-- ==== Sys2Proof/Word.lean ====
section
/-!
DEFINITION. The plain words of the AXM-256 model: bytes and wider words, and the sparse tables that hold every
memory, register file and record store of the device.
-/
namespace Sys2Proof

/-- One byte (R10: fields are little-endian, bit 0 least significant). -/
abbrev Byte := BitVec 8
/-- A 32-bit word: an FP32 element, a vector-register lane, a status word. -/
abbrev Word := BitVec 32

/-- A sparse store: (key, value) pairs. Its canonical form is strictly rising keys and no value equal to what an
unlisted key reads as; the operations that keep it so stand in Machine/Ops.lean. -/
abbrev Table (α : Type) := List (Nat × α)

end Sys2Proof
end

