-- ==== Sys2Proof/Syntax.lean ====
section
/-!
DEFINITION. The commands of the AXM-256: one constructor a row of the opcode table, and the operands each carries. An
operand is what reaches the device from outside with the command: values written, words received, physical readings, and
the verdicts of the cryptographic checks that the manual refers to outside standards (log entry 3).
-/
namespace Sys2Proof

/-- The roles of a dictionary session (R9, R390). -/
inductive Role where
  | operator | installer | maker
  deriving DecidableEq, Repr

/-- The carriers of dictionary records (R401, R405): segments A and B, Ligature, the PCIe mailbox. -/
inductive Transport where
  | segA | segB | ligature | pcie
  deriving DecidableEq, Repr

/-- A firmware image in flash (R345): its version, its security version number, whether its signature and hash verify. -/
structure FwImage where
  version : Nat
  svn : Nat
  verifies : Bool
  /-- SHA-512 of the image (R352). -/
  digest : List Byte
  deriving DecidableEq, Repr

/-- The header of a dictionary REQUEST as it arrives (R394, R395): the session it names, its SEQ, the key under which its tag was
made, its REQ_TAG, and how many unanswered REQUESTs the device then holds (R403). -/
structure Req where
  ses : Nat
  seq : Nat
  key : List Byte
  tag : Nat
  held : Nat
  deriving DecidableEq, Repr

/-- What the device finds when it checks a maker-signed or hashed value carried in a write (R411, R446). -/
structure Verdict where
  ok : Bool
  version : Nat
  deriving DecidableEq, Repr

/-- A write of one entry that has a row of its own in the opcode table. -/
structure EntryWrite where
  req : Req
  value : Nat
  deriving DecidableEq, Repr

/-- A write of one subindex of an entry. -/
structure SubWrite where
  req : Req
  sub : Nat
  value : Nat
  deriving DecidableEq, Repr

/-- A write of one element of an array entry. -/
structure ArrayWrite where
  req : Req
  sub : Nat
  elem : Nat
  value : Nat
  deriving DecidableEq, Repr


/-! ## Frames and the tick -/

/-- What holds a pin, or asks for one (R170): a request (key slot and REQUEST_ID), a training job or an evaluation. -/
inductive Use where
  | request (slot id : Nat) | job (n : Nat) | eval (n : Nat)
  deriving DecidableEq, Repr

/-- The class of a frame task (R24). -/
inductive Cls where
  | decode | training | housekeeping
  deriving DecidableEq, Repr

/-- A task's window on one engine, in hclk from the tick edge (R29), and how many descriptors of the task that engine
runs in it. Engines: MA 4h, MB 4h+1 and Ductus 4h+2 of logical Hearth h, transfer engine 1024+c of cluster c, Scribe
1056+p of partition p. -/
structure Window where
  eng : Nat
  start : Nat
  stop : Nat
  count : Nat
  /-- Transfer tasks whose ring slots the descriptors of a matrix window read (R151). -/
  reads : List Nat
  deriving DecidableEq, Repr

/-- Token rows of one user in a micro-batch (R178): `n` rows, the last of which has a context of `ctx` 64-token blocks. -/
structure RowPiece where
  use : Use
  variant : Nat
  n : Nat
  ctx : Nat
  deriving DecidableEq, Repr

/-- A chunk of a training sequence (R223): the step, group and rollout of a job, or 0, 0 and the probe of an evaluation, with the
chunk's number; `score`: a reward-scoring pass; `back`: the backward pass. -/
structure ChunkRef where
  use : Use
  step : Nat
  g : Nat
  i : Nat
  chunk : Nat
  score : Bool
  back : Bool
  deriving DecidableEq, Repr

/-- The schedule of a training sequence (R223): the sequence, its tokens, its start frame, and whether it has forward frames alone. -/
structure SchedNote where
  app : Nat
  use : Use
  step : Nat
  score : Bool
  g : Nat
  i : Nat
  n : Nat
  f0 : Nat
  fwd : Bool
  deriving DecidableEq, Repr

/-- A micro-batch of up to 128 token rows of an application (R178, R198); `chunk`: its rows are those of a training chunk. -/
structure Batch where
  app : Nat
  rows : List RowPiece
  chunk : Option ChunkRef
  deriving DecidableEq, Repr

/-- What a task works on, as the planner sees it (R28): shapes alone. Micro-batches are named by their place in the plan. -/
inductive Shape where
  /-- The rows of a micro-batch through one layer: the forward pass, or the backward one of a training chunk (R198, R223). -/
  | rows (batch layer : Nat)
  /-- The transfer that fills one ring slot with a streamed layer's weights for a micro-batch (R151): cluster, ring, slot. -/
  | weights (batch layer cluster ring slot : Nat)
  /-- The transfer of a variant's live patch copy for a micro-batch and layer (R180), from buffer B or A. -/
  | patch (batch layer variant : Nat) (b : Bool)
  /-- The Scribe's update of a variant (R249). -/
  | scribe (variant : Nat)
  /-- The fill of a slot, in a fill window (R172); a snapshot drain (R254). -/
  | fill
  | drain
  /-- Staging of a package (R323); the carry task of a variant (R327); half of a partition's resident weights (R333). -/
  | stage
  | carry (variant : Nat)
  | reload (part : Nat)
  /-- Other work, by its line in the copybook's cost table. -/
  | fixed (line : Nat)
  deriving DecidableEq, Repr

/-- An outbound hand-off (R287): departure, bytes with headers, the link group it leaves by, LINK_DELAY of the links beyond it in ps,
devices passed through and die-to-die hops. -/
structure HandOff where
  depart : Nat
  bytes : Nat
  group : Nat
  beyond : Nat
  through : Nat
  hops : Nat
  deriving DecidableEq, Repr

/-- A run table (R179): the micro-batch and layer whose steering-point drain on a Hearth reads it, and its RUN_ADDR. -/
structure RunPlan where
  batch : Nat
  layer : Nat
  hearth : Nat
  addr : Nat
  deriving DecidableEq, Repr

/-- The scales of a micro-batch's key/value writes (R203): layer, head, kind (1: values), and the Hearth and RS_ADDR that its DIRECT
outputs read them from. -/
structure ScalePlan where
  batch : Nat
  layer : Nat
  head : Nat
  kind : Nat
  hearth : Nat
  addr : Nat
  deriving DecidableEq, Repr

/-- A partial that a training task yields (R232, R301): its job (2^32·key slot + JOB_ID), step, target, leaf position, and where
its FP32 values lie when the task completes: Hearth and operand-space address, first element of the target, and count. -/
structure Contrib where
  job : Nat
  step : Nat
  target : Nat
  pos : Nat
  hearth : Nat
  addr : Nat
  elem : Nat
  n : Nat
  deriving DecidableEq, Repr

/-- One frame task as the planner plans it (R28, R29). A stream is 4h+q for stream Qq of Hearth h, or 1024+c for the
sequencer of cluster c. -/
structure TaskPlan where
  id : Nat
  part : Nat
  cls : Cls
  stream : Nat
  /-- Slots of the command ring before the task's first descriptor. -/
  slot : Nat
  windows : List Window
  /-- Control and semaphore descriptors, which the sequencer itself executes. -/
  controls : Nat
  /-- Sampled or prefilled tokens it carries (LATE_DECODE counts them). -/
  tokens : Nat
  /-- Sequences it advances: 2^192·key slot + REQUEST_ID. -/
  seqs : List Nat
  /-- Training contributions (R303). -/
  contribs : List Contrib
  /-- Remote ring slots it consumes: cluster, ring, and slots that must have arrived (R35). -/
  inputs : List (Nat × Nat × Nat)
  /-- Its outbound hand-offs (R29, R287). -/
  handoffs : List HandOff
  /-- The fill window of its application in which it fills a slot (R172). -/
  fill : Option Nat
  /-- The application whose snapshot it drains (R254). -/
  drain : Option Nat
  shape : Shape
  /-- The carried work that it resumes (R32): the frame and the id under which that work was planned, and the descriptor of it that
  runs first. -/
  resumes : Option (Nat × Nat × Nat)
  deriving DecidableEq, Repr

/-- The plan of one frame (R27 to R29): its tasks, the command ring each stream is bound to (R48), the tiles assigned to
streams (R65: tile 16h + 8·array + t), the semaphore values (R133), the buffer rings set (R134) with the values of their
16-byte entries, the slots of carried rings and vector registers kept (R109), and the longest tile step of the copybook,
which is the least seam (R29). -/
structure Plan where
  tasks : List TaskPlan
  binds : List (Nat × Nat)
  tiles : List (Nat × Nat)
  sems : List (Nat × Nat × Nat)
  rings : List (Nat × Nat × BitVec 128)
  carryRegs : List (Nat × Nat)
  /-- Owners of the SRAM lines (R370): Well of a Hearth or Inkstone of a cluster, unit, bytes [lo, hi), owner. -/
  lines : List (Bool × Nat × Nat × Nat × Nat)
  /-- Semaphores carried for a housekeeping carry-over (R133): cluster, semaphore. -/
  carriedSems : List (Nat × Nat)
  /-- Tally slot 256h + NTAG to stream 1,024·partition + ID and task (R86), and the streams each plan writes or reads (R85). -/
  tallyMap : List (Nat × Nat × Nat)
  numStreams : List Nat
  seam : Nat
  /-- Micro-batches, the run tables of their steering points, and the scales of their key/value writes. -/
  batches : List Batch
  runTables : List RunPlan
  scales : List ScalePlan
  /-- Scrubs of frames (R369): die group, and the hclk from which and to which its scrub engine runs. -/
  scrubs : List (Nat × Nat × Nat)
  /-- Channels that recalibrate (R121), and the offsets at which each begins. -/
  recals : List (Nat × Nat)
  /-- Positions that the reduction plans of steps expect on this device, whether or not their tasks are planned (R301, R303): job, step,
  target, position. -/
  reduction : List (Nat × Nat × Nat × Nat)
  deriving DecidableEq, Repr

/-- Results received from other devices for a reduction: a child's sums of one target at a tree node, a root's result, a norm
leaf or node, and the clip factor with the norm it came from (R304, R305). `job` is 2^32·key slot + JOB_ID. -/
inductive TreeIn where
  | child (job step level child target : Nat) (vals : List Word)
  | root (job step target : Nat) (vals : List Word)
  | norm (job step level child : Nat) (v : Word)
  | factor (job step : Nat) (f norm : Word)
  deriving DecidableEq, Repr

/-- What a result is, without its values: 0 a child's, 1 the root's, 2 a norm, 3 the factor; job, step, level, child and target. -/
structure TreeName where
  kind : Nat
  job : Nat
  step : Nat
  level : Nat
  child : Nat
  target : Nat
  deriving DecidableEq, Repr

/-- The logits of one loss row that stage L − 1 computed in the frame that ends (R221, R222): the job (2^32·key slot + JOB_ID), step,
group and rollout, the index of the loss token among its rollout's generated tokens, and the token. -/
structure LossRow where
  job : Nat
  step : Nat
  g : Nat
  i : Nat
  k : Nat
  token : Nat
  logits : List Word
  deriving DecidableEq, Repr

/-- What the devices of an application need of a step to be reduced (R300, R304, R307, R235, R222): variant, clip mode and threshold,
LATE_AGE, the close frame once its last sequence is admitted, and for the loss its template, ε and temperature, and each
sequence's group, rollout, advantage and token weight; and the token rows of each rollout group, for its Peat pages (R152). -/
structure ReduceInfo where
  job : Nat
  app : Nat
  variant : Nat
  step : Nat
  mode : Nat
  tau : Word
  lateAge : Nat
  close : Option Nat
  template : Nat
  eps : Word
  temp : Word
  seqs : List (Nat × Nat × Word × Word)
  rows : List Nat
  deriving DecidableEq, Repr

/-- A tick edge: what reaches the device at it. `wall` is the TAI time in ns. -/
structure TickEdgeOp where
  wall : Nat
  /-- What remote ring slots stamped for this frame hold for the reductions of this device (R304, R305, R308). -/
  tree : List TreeIn
  /-- Loss rows of the frame that ended, in plan order (R222). -/
  losses : List LossRow
  /-- Evaluations whose last passes ran in the frame that ended: key slot, REQUEST_ID, and for each probe the mean log2 probability and the match
  fraction that its logits gave (R236). -/
  evals : List (Nat × Nat × List (Word × Word))
  deriving DecidableEq, Repr

/-- A rising edge on TICK_IN or PPS_IN, at a whole hclk (R15), and the time in TAI ns. -/
structure EdgePinOp where
  off : Nat
  wall : Nat
  deriving DecidableEq, Repr

/-- The readings of the Flue at a cut-off (R438): 32 clusters and the management die in m°C, and the power averaged over 16
frames, in W; each domain's power in mW; the input rail in mV; the cold plate at inlet and outlet in m°C. -/
structure Sensors where
  temps : List Int
  power : Nat
  domains : List Nat
  voltage : Nat
  coldPlate : List Int
  deriving DecidableEq, Repr

/-- The admission cut-off (R27): what the planner plans for the next frame, and what the Flue reads. -/
structure CutoffOp where
  sensors : Sensors
  plan : Option Plan
  /-- Slipped tokens that have arrived and wait for a slip place, by sequence, in order of arrival (R200). -/
  slips : List Nat
  deriving DecidableEq, Repr

/-- An event of the frame at an hclk offset. -/
structure AtOp where
  off : Nat
  deriving DecidableEq, Repr

/-- The close of a task's window on an engine (R33). -/
structure WindowCloseOp where
  off : Nat
  task : Nat
  eng : Nat
  deriving DecidableEq, Repr

/-! ## Descriptors at the head of a stream (R45, R100, R131, R138) -/

/-- A matrix descriptor at its stream's head (R45); for ARRAY = PAIR also the MB descriptor that follows it (R68). -/
structure MatmulOp where
  off : Nat
  stream : Nat
  desc : BitVec 256
  follower : Option (BitVec 256)
  deriving DecidableEq, Repr

/-- A 64-byte Ductus or transfer descriptor at its stream's head. -/
structure Desc64Op where
  off : Nat
  stream : Nat
  desc : BitVec 512
  deriving DecidableEq, Repr

/-- An 8-byte control or semaphore descriptor at its stream's head. -/
structure Desc8Op where
  off : Nat
  stream : Nat
  desc : BitVec 64
  deriving DecidableEq, Repr

/-- Something ends on an array: the logical Hearth and 0 for MA (with its MB follower, if paired) or 1 for MB. -/
structure ArrayOp where
  off : Nat
  hearth : Nat
  array : Nat
  deriving DecidableEq, Repr

/-- Something happens at a logical Hearth. -/
structure HearthOp where
  off : Nat
  hearth : Nat
  deriving DecidableEq, Repr

/-- A stream step of a stream closes and the Damper processes its evidence (R87). -/
structure DamperOp where
  part : Nat
  stream : Nat
  /-- The stream's record meets an uncorrectable error as it is read (R90). -/
  bad : Bool
  deriving DecidableEq, Repr

/-- A sampled tile step of an array has been computed again (R94): its A stream (1,024·partition + ID), the stream step and
the tile step's number in plan order (R93). -/
structure TracerOp where
  off : Nat
  hearth : Nat
  array : Nat
  stream : Nat
  step : Nat
  index : Nat
  deriving DecidableEq, Repr

/-- Something happens at a cluster's transfer engine. -/
structure ClusterOp where
  off : Nat
  cluster : Nat
  deriving DecidableEq, Repr

/-- An access of a cluster's executing transfer faults at an element: the cause its access met (R145). -/
structure XferFaultOp where
  off : Nat
  cluster : Nat
  elem : Nat
  cause : Nat
  deriving DecidableEq, Repr

/-- RESUME or ABANDON written to a cluster's TE control register, naming a stream (R147). -/
structure ResumeOp where
  off : Nat
  cluster : Nat
  stream : Nat
  deriving DecidableEq, Repr

/-- A TLB_INVAL of a DVA range on a partition (R127). -/
structure TlbOp where
  off : Nat
  part : Nat
  lo : Nat
  hi : Nat
  deriving DecidableEq, Repr

/-- Firmware migrates one page of an application to a frame (R129): the next phase of the procedure. -/
structure MigrateOp where
  off : Nat
  app : Nat
  page : Nat
  frame : Nat
  deriving DecidableEq, Repr

/-- A channel recalibrates (R121). -/
structure ChannelOp where
  off : Nat
  channel : Nat
  deriving DecidableEq, Repr

/-! ## Messages (R277) -/

/-- A Ligature message: the header fields of R277 and its body. -/
structure Msg where
  kind : Nat
  vc : Nat
  cls : Nat
  dstUnit : Nat
  dstDevice : Nat
  srcDevice : Nat
  srcUnit : Nat
  tag : Nat
  hops : Nat
  epoch : Nat
  stamp : Nat
  addr : Nat
  seg : Nat
  segs : Nat
  arg : Nat
  body : List Byte
  deriving DecidableEq, Repr

/-- A TICK message as it arrives (R13, R278): its STAMP is the FRAME_NO of the next edge; the correction that its body carries, in ps,
the manager's term, its pending period and fraction changes and the values in force (entry, value, edge: R20); the residence time
that this device adds on passing it on, in ps. -/
structure TickMsg where
  off : Nat
  port : Nat
  msg : Msg
  correction : Nat
  term : Nat
  changes : List (Nat × Nat × Nat)
  residence : Nat
  deriving DecidableEq, Repr
/-! ## Variants and the Inkwell (R154 to R182) -/

/-- LOOKUP, WITHDRAW: a variant. -/
structure VariantOp where
  off : Nat
  variant : Nat
  deriving DecidableEq, Repr

/-- CLAIM: variant, key slot, slot, generation. -/
structure ClaimOp where
  off : Nat
  variant : Nat
  key : Nat
  slot : Nat
  gen : Nat
  deriving DecidableEq, Repr

/-- PIN, EVICT: slot and generation. -/
structure SlotGenOp where
  off : Nat
  slot : Nat
  gen : Nat
  deriving DecidableEq, Repr

/-- UNPIN: slot and variant. -/
structure UnpinOp where
  off : Nat
  slot : Nat
  variant : Nat
  deriving DecidableEq, Repr

/-- Something of one slot. -/
structure SlotOp where
  off : Nat
  slot : Nat
  deriving DecidableEq, Repr

/-- A bind for a use (R169): variant, key slot, application. -/
structure BindOp where
  off : Nat
  use : Use
  variant : Nat
  key : Nat
  app : Nat
  deriving DecidableEq, Repr

structure UseOp where
  off : Nat
  use : Use
  deriving DecidableEq, Repr

/-- A request by its key slot and REQUEST_ID. -/
structure ReqOp where
  off : Nat
  slot : Nat
  id : Nat
  deriving DecidableEq, Repr

/-- A chain device's report that its slot for a request is LIVE (R171). -/
structure LiveReportOp where
  off : Nat
  slot : Nat
  id : Nat
  device : Nat
  deriving DecidableEq, Repr

/-- A flip notice: the variant and the edge it names (R250). -/
structure FlipOp where
  off : Nat
  variant : Nat
  edge : Nat
  deriving DecidableEq, Repr

/-! ## Envelopes and requests (R183 to R211) -/

/-- A sealed text (R184): its bytes, the ciphertext and the 16-byte tag, and what it was sealed from: key, nonce, additional data and
plaintext. It opens under the same key, nonce and data, and under no others (DEDUCED: log entry 161). -/
structure Sealed where
  bytes : List Byte
  key : List Byte
  nonce : List Byte
  aad : List Byte
  plain : List Byte
  deriving DecidableEq, Repr

/-- An envelope as it arrives: its carriage (0 L00, 1 L01, 2 PCIe, 3 Ligature), the route of its answers, its intake device, the
address it lies at (R190), the 64-byte clear header (R183), and the sealed payload with its tag. -/
structure Env where
  source : Nat
  reply : Nat
  origin : Nat
  addr : Nat
  hdr : BitVec 512
  box : Sealed
  deriving DecidableEq, Repr

/-- The fields of the header (R183). -/
def Env.bits (e : Env) (lo len : Nat) : Nat := (e.hdr.toNat >>> lo) % 2 ^ len
def Env.magic (e : Env) : Nat := e.bits 0 16
def Env.version (e : Env) : Nat := e.bits 16 8
def Env.kind (e : Env) : Nat := e.bits 24 8
def Env.tenant (e : Env) : Nat := e.bits 32 16
def Env.keyGen (e : Env) : Nat := e.bits 64 32
def Env.seq (e : Env) : Nat := e.bits 96 32
def Env.id (e : Env) : Nat := e.bits 128 64
def Env.notAfter (e : Env) : Nat := e.bits 192 64
def Env.payloadLen (e : Env) : Nat := e.bits 256 32

structure EnvOp where
  off : Nat
  env : Env
  deriving DecidableEq, Repr

/-- A forwarded intake entry (R189, R190) with the opened envelope's payload. -/
structure ForwardOp where
  off : Nat
  entry : BitVec 1024
  body : List Byte
  deriving DecidableEq, Repr

/-- A UDP datagram's segment (R187): where it went, its segment header, its bytes; whether the reassembly buffer is full. -/
structure UdpOp where
  off : Nat
  port : Nat
  v6 : Bool
  dst : Nat
  dstPort : Nat
  fragment : Bool
  reply : Nat
  id : Nat
  tenant : Nat
  index : Nat
  count : Nat
  bytes : List Byte
  full : Bool
  deriving DecidableEq, Repr

/-- An ARP request or Neighbor Discovery message for an address, on a port (R187). -/
structure AddrOp where
  off : Nat
  port : Nat
  addr : Nat
  deriving DecidableEq, Repr

/-- An envelope under reassembly, by tenant and REQUEST_ID. -/
structure ReasmOp where
  off : Nat
  tenant : Nat
  id : Nat
  deriving DecidableEq, Repr

/-- The logits of the sampling row of a sequence (R207): FP32 bit patterns. -/
structure SampleOp where
  off : Nat
  slot : Nat
  id : Nat
  logits : List Word
  deriving DecidableEq, Repr

/-- An end record (R201): the request, the status, and the last token with the frame it was sampled in, if it has one. -/
structure EndOp where
  off : Nat
  slot : Nat
  id : Nat
  status : Nat
  last : Option (Nat × Nat)
  deriving DecidableEq, Repr

/-- A response returned over Ligature (R189): its REPLY_HANDLE (R190), whether it is the request's last, its header (R183) and what is
sealed under it. -/
structure ReturnOp where
  off : Nat
  handle : Nat
  final : Bool
  hdr : BitVec 512
  plain : List Byte
  deriving DecidableEq, Repr

/-- A write of an array entry of one application with its values by key slot (R168, R193). -/
structure ShareWrite where
  req : Req
  sub : Nat
  first : Nat
  values : List Nat
  deriving DecidableEq, Repr

/-- A probe of a check set or an evaluation (R216, R328): its prompt and reference tokens and the expected means. -/
structure Probe where
  prompt : List Nat
  ref : List Nat
  expLp : Word
  expMatch : Word
  deriving DecidableEq, Repr

/-- A check set (R328). -/
structure CheckSet where
  tolLp : Word
  tolMatch : Word
  probes : List Probe
  deriving DecidableEq, Repr

/-- What a registration's payload carries beyond the header (R157): the masters and patch definitions with their lists, whether
they are whole, the check set, the page frames firmware takes for the record, and the other chain devices that hold it. -/
structure RegOp where
  off : Nat
  env : Env
  app : Nat
  header : BitVec 2048
  masters : List Word
  patches : List (BitVec 256)
  lists : List (List Nat)
  whole : Bool
  others : List Nat
  home : Nat
  check : Option CheckSet
  /-- Pages of the record and the frames firmware gives them. -/
  pages : List (Nat × Nat)
  deriving DecidableEq, Repr

/-- A projection matrix of a layer: its number, K and N (R156). -/
structure MatrixInfo where
  layer : Nat
  number : Nat
  k : Nat
  n : Nat
  deriving DecidableEq, Repr

/-- What the copybook's cost table says of one layer on one engine (R28): hclk that a pass takes, a token row's projections, the
attention of a row over one 64-token block of context, a row's activation moves, and a row's part of one 128 × 128
weight-gradient block; hclk that one place of TRAIN_SHARE takes at most (R224); and DDR bytes by die group that a pass
reads, a row over one context block, and a row's activation moves (R123). What a pass costs a transfer engine for a STREAMED layer
is the cost of filling its ring slots (R151). -/
structure Price where
  layer : Nat
  eng : Nat
  pass : Nat
  row : Nat
  attn : Nat
  move : Nat
  grad : Nat
  place : Nat
  ddr : List (Nat × Nat × Nat × Nat)
  deriving DecidableEq, Repr

/-- A line of the cost table for other work: hclk by engine, and DDR bytes by engine and die group. -/
structure FixedPrice where
  line : Nat
  hclk : List (Nat × Nat)
  ddr : List (Nat × Nat × Nat)
  deriving DecidableEq, Repr

/-- What the model needs of a copybook (R3, R7): the application it describes on this device. -/
structure Copybook where
  /-- Measurement of the copybook (R351's block), and the base it runs. -/
  measure : Nat
  baseId : Nat
  baseGen : Nat
  /-- Partitions, lowest first; system application number. -/
  parts : List Nat
  sysApp : Nat
  /-- Hidden width, vocabulary, layers held, layers held by the stage with most, projection matrices. -/
  hidden : Nat
  vocab : Nat
  /-- The end-of-text token (R218), and the rows of a training chunk (R223). -/
  endOfText : Nat
  trainChunk : Nat
  layers : List Nat
  maxLayers : Nat
  matrices : List MatrixInfo
  /-- Key/value cache (R202, R203): element format, heads, head width; the scale of a layer, head and kind (1: values). -/
  kvFormat : Nat
  kvHeads : Nat
  kvWidth : Nat
  kvScales : List (Nat × Nat × Nat × Word)
  inkBase : Nat
  /-- Whether an operand, ring or staging region beside `resident` and `control` lies in the Inkwell band (R161). -/
  inBand : Bool
  /-- What it needs against the Capacity Table (R3): pairs of a table item and the amount. -/
  needs : List (Nat × Nat)
  /-- Stream records by 1,024·partition + stream (R84), which fields the copybook names being set in them. -/
  streams : List (Nat × BitVec 128)
  /-- Streams whose copybook names HR_BASE, TB and FLOOR, and those of decode tasks (R84, R96). -/
  namesHr : List Nat
  namesTb : List Nat
  namesFloor : List Nat
  decodeStreams : List Nat
  /-- RESIDENT and CONTROL regions (R150, R371): Well or not, unit, bytes [lo, hi). -/
  resident : List (Bool × Nat × Nat × Nat)
  control : List (Bool × Nat × Nat × Nat)
  /-- The cost table (R28), and the shares of a frame's slices, in 1/1,000, that generation and training tasks may take (R194, R224). -/
  prices : List Price
  fixedPrices : List FixedPrice
  budgetGen : Nat
  budgetTrain : Nat
  /-- The longest tile step (R29); bytes that a patch copy and a Scribe task move in an hclk, as planned (R180, R249). -/
  tileStep : Nat
  copyRate : Nat
  scribeRate : Nat
  /-- Layers marked STREAMED (R150), and the Hearths whose Ductus drains a layer's steering point (R155). -/
  streamLayers : List Nat
  steering : List (Nat × List Nat)
  /-- Peat range of the application and Peat bytes of a training row (R152), and its page-table entries as firmware writes them at the load
  (R125). -/
  peat : Nat × Nat
  peatRow : Nat
  ptes : List (Nat × BitVec 64)
  /-- Resident weights by (Well or not, unit, offset) and byte, loaded at the copybook load (R150). -/
  weights : List (Bool × Nat × Nat × Byte)
  /-- Bytes of streamed weights in DDR, by device virtual address; kept layers (R233); 0 alternating, 1 paired backward (R229). -/
  streamed : List (Nat × Byte)
  keepLayers : Nat
  /-- Keep areas (R233): layer, cluster, bytes [lo, hi) of its Inkstone. -/
  keeps : List (Nat × Nat × Nat × Nat)
  backward : Nat
  deriving DecidableEq, Repr

/-! ## Training, updates and snapshots (R212 to R265) -/

/-- ADVANTAGE of a job (R220): the reward readouts its scoring passes gave: group cursor value, rollout, and the FP32 logits at
REWARD_POS and REWARD_NEG of the last position (R219). -/
structure AdvantageOp where
  off : Nat
  slot : Nat
  job : Nat
  scores : List (Nat × Nat × Word × Word)
  deriving DecidableEq, Repr

/-- A commit notice (R244): the job, variant, step and update count, and what the Scribe needs of the job: its optimiser block
and seed, and the clip factor of each tensor (one for all in global mode). -/
structure CommitNotice where
  slot : Nat
  job : Nat
  variant : Nat
  step : Nat
  u : Nat
  opt : BitVec 512
  seed : Nat
  factors : List Word
  deriving DecidableEq, Repr

structure CommitOp where
  off : Nat
  notice : CommitNotice
  deriving DecidableEq, Repr

/-- A device's Scribe report for a step (R250). -/
structure ScribeReportOp where
  off : Nat
  device : Nat
  slot : Nat
  job : Nat
  step : Nat
  fault : Bool
  /-- A stream of the device ran cold in the step (R89). -/
  cold : Bool
  deriving DecidableEq, Repr

/-- A group of a job. -/
structure GroupOp where
  off : Nat
  slot : Nat
  job : Nat
  group : Nat
  deriving DecidableEq, Repr

/-- A device's REDUCE_DONE for a step (R309); the last stage's names the step's loss. -/
structure ReduceOp where
  off : Nat
  device : Nat
  slot : Nat
  job : Nat
  step : Nat
  loss : Option Word
  deriving DecidableEq, Repr

/-- An application by its lowest partition. -/
structure AppOp where
  off : Nat
  app : Nat
  deriving DecidableEq, Repr

/-! ### What a snapshot holds (R252) -/

namespace Machine

/-- Tracer statistics of a stream (R95): sampled, disagreed, worst plus 129 (0: none). -/
structure TraceStat where
  sampled : Nat
  disagreed : Nat
  worst : Nat
  pending : Bool
  deriving DecidableEq, Repr

/-- A response waiting for its publication (R209, R210). -/
structure Resp where
  kind : Nat
  slot : Nat
  tenant : Nat
  id : Nat
  seq : Nat
  keyGen : Nat
  status : Nat
  final : Bool
  firstT : Nat
  ref : Nat
  toks : List (Nat × Nat)
  report : List Byte
  source : Nat
  reply : Nat
  origin : Nat
  /-- The frame it arose in; it has been counted as waiting for a pool buffer (R188). -/
  made : Nat
  waits : Bool
  /-- Sealed by another device: its frame stamp and plaintext (R189). -/
  sealed : Option (Nat × List Byte)
  deriving DecidableEq, Repr

/-- How far an ordered withdrawal has come (R176): ordered, then seen by an admission cut-off; or carried out. -/
inductive Withdrawal where
  | none | ordered | seen | done
  deriving DecidableEq, Repr

/-- An accepted replacement of a record not yet in force (R478): the registration and its answer. -/
structure NextRec where
  reg : RegOp
  answer : Resp
  /-- An admission cut-off has passed since its acceptance. -/
  cutPassed : Bool
  deriving DecidableEq, Repr

/-- A registered variant (R157 to R160, R241, R242): its header, application and home die group, patch definitions with their
lists, the headers of its two optimiser banks, whether version 0 of its patches is written, the other chain devices that hold it (DEDUCED: log entry 59). -/
structure VarRec where
  hdr : BitVec 2048
  app : Nat
  home : Nat
  patches : List (BitVec 256)
  lists : List (List Nat)
  bankA : BitVec 512
  bankB : BitVec 512
  ready : Bool
  others : List Nat
  wd : Withdrawal
  /-- It leaves the registry at the withdrawal edge; the answers RELEASED to the requests for it (R479). -/
  release : List Resp
  /-- Accepted replacements not yet in force, in order (R478). -/
  next : List NextRec
  /-- The edge that the flip notice named; the planner has built the next plan against the other half (R177, R250). -/
  flipAt : Nat
  flipSeen : Bool
  /-- Its check set (R328), and the pages of its record. -/
  check : Option CheckSet
  pages : List Nat
  deriving DecidableEq, Repr

/-- One rollout of a group (R218), or one sequence of an OFFLINE_GROUP: its prompt and generated tokens, its end's status, its
reward and its advantage. -/
structure Rollout where
  prompt : List Nat
  toks : List Nat
  status : Option Nat
  reward : Option Word
  adv : Word
  deriving DecidableEq, Repr

/-- A group under its cursor value; the frame in which its last rollout ended. -/
structure Group where
  g : Nat
  rollouts : List Rollout
  dropped : Bool
  /-- It came in an OFFLINE_GROUP. -/
  offline : Bool
  ended : Option Nat
  deriving DecidableEq, Repr

/-- How far a step has come (R213). -/
inductive StepPhase where
  | rollout
  /-- Advantages are computed; its sequences wait for their schedules. -/
  | scheduling
  | training
  /-- Committed: the Scribes run. -/
  | committed
  /-- Every Scribe has reported; then the flip notice has gone. -/
  | scribed
  | flipping
  /-- Ended without a flip: its version goes live at the next edge (R215, R250). -/
  | empty
  deriving DecidableEq, Repr

/-- A training sequence's schedule (R223, R224): its rank's group and rollout, its length, its start frame. -/
structure Sched where
  g : Nat
  i : Nat
  n : Nat
  f0 : Option Nat
  /-- It uses the forward frames alone. -/
  fwd : Bool
  deriving DecidableEq, Repr

/-- A drawn step. -/
structure StepS where
  s : Nat
  /-- Ledger and group cursors at its DRAW. -/
  ledgerAt : Nat
  groupAt : Nat
  groups : List Group
  first : Nat
  phase : StepPhase
  seqs : List Sched
  /-- Reward-scoring passes of ended rollouts (R219, R223). -/
  scores : List Sched
  /-- A training stream ran cold while it trained (R89). -/
  cold : Bool
  /-- LATE_AGE and LATE_GRACE at its DRAW (R319). -/
  lateAge : Nat
  grace : Nat
  /-- D(s) of R307, once its last sequence is scheduled. -/
  close : Option Nat
  /-- Devices that have reported REDUCE_DONE; devices whose Scribe has reported. -/
  reduced : List Nat
  scribed : List Nat
  loss : Word
  norm : Word
  factor : Word
  deriving DecidableEq, Repr

/-- A job (R212) under 2^32·key slot + JOB_ID. -/
structure Job where
  key : Nat
  tenant : Nat
  app : Nat
  variant : Nat
  reward : Nat
  /-- The TRAIN_JOB payload (R216). -/
  par : BitVec 1024
  /-- Where its responses go. -/
  answer : Resp
  ledger : List (List Nat)
  cursor : Nat
  groupCursor : Nat
  /-- The next step to draw, and how many steps' versions have gone live. -/
  next : Nat
  live : Nat
  /-- Created at an edge; not yet: its slots are being bound. -/
  started : Bool
  /-- Pins asked of other devices and not yet answered (R237). -/
  asked : List (Use × Nat)
  paused : Bool
  pausedNext : Option Bool
  /-- It ends at the next edge, with its cause (R217). -/
  ends : Option Nat
  steps : List StepS
  offline : List (List Rollout)
  committed : Option Nat
  /-- Updates that have flipped since the job began. -/
  done : Nat
  /-- The step last committed. -/
  last : Option Nat
  /-- `done` as the latest complete snapshot holds it (R258). -/
  secured : Nat
  deriving DecidableEq, Repr

/-- A late contribution's name: tree level, origin step, target, position. -/
structure LateName where
  level : Nat
  origin : Nat
  target : Nat
  pos : Nat
  deriving DecidableEq, Repr

/-- A manifest record (R310). -/
structure Manifest where
  job : Nat
  step : Nat
  level : Nat
  void : Bool
  close : Nat
  entries : List (BitVec 128)
  deriving DecidableEq, Repr

/-- Late contributions of a job at this device's nodes: still outstanding, pending with their values, and what went into the
step last folded (R312, R315). -/
structure LateBook where
  job : Nat
  outstanding : List LateName
  pending : List (LateName × Nat × List Word)
  folded : List (Nat × LateName × Nat × List Word)
  manifests : List Manifest
  /-- Names to enter DROPPED_SWITCH (4) or LOST (5) in the node's next record (R315, R316). -/
  owed : List (Nat × LateName)
  deriving DecidableEq, Repr

/-- A variant's part of a snapshot: its record and the bytes of its live bank (masters, then moments and scales). -/
structure SnapVar where
  id : Nat
  /-- The snapshot whose objects hold it. -/
  taken : Nat
  rec_ : VarRec
  masters : List Word
  moments : List Byte
  scales : List Word
  deriving DecidableEq, Repr

/-- What a snapshot holds of this device (R252) (DESIGN CHOICE: log entry 61). -/
structure Image where
  number : Nat
  edge : Nat
  vars : List SnapVar
  jobs : List Job
  late : List LateBook
  records : Table (BitVec 128)
  retained : Table (List (BitVec 128))
  trace : Table TraceStat
  baseId : Nat
  baseGen : Nat
  measure : Nat
  deriving DecidableEq, Repr

end Machine

/-- A sealed snapshot object on its way to a store (R255): the device it came from, its snapshot, its part (a variant's bank, or
one of the other parts), version, bytes and SHA-512. A manifest names the objects of its snapshot on its device, earlier ones that it
still uses too: part and snapshot of each. -/
structure SnapObj where
  device : Nat
  app : Nat
  snapshot : Nat
  part : Nat
  version : Nat
  len : Nat
  sha : List Byte
  names : List (Nat × Nat)
  deriving DecidableEq, Repr

/-- An object arrives; the store's area has room for it or not. -/
structure SnapObjOp where
  off : Nat
  obj : SnapObj
  room : Bool
  deriving DecidableEq, Repr

/-- The buddy's answer for an object, by its part: acknowledged, or refused for want of space. -/
structure SnapAckOp where
  off : Nat
  app : Nat
  snapshot : Nat
  part : Nat
  refused : Bool
  deriving DecidableEq, Repr

/-- A completion record (R255): its device and application, the snapshot's number, FRAME_NO of E, the SHA-512 of the manifest. -/
structure SnapRec where
  device : Nat
  app : Nat
  snapshot : Nat
  edge : Nat
  sha : List Byte
  deriving DecidableEq, Repr

/-- A completion record arrives, with the hclk that its device spent in drain windows (R255, R259); SNAPSHOT_COMPLETE. -/
structure SnapRecOp where
  off : Nat
  app : Nat
  snapshot : Nat
  device : Nat
  edge : Nat
  sha : List Byte
  spent : Nat
  deriving DecidableEq, Repr

/-- A restore report (R262). On a device that takes a lost one's place, what its store gave back of the lost one's snapshot, each object
with its SHA-512 right, unsealed; and the frames that firmware gives the pages of its records, by variant and page. -/
structure RestoreOp where
  off : Nat
  app : Nat
  device : Nat
  image : Option Machine.Image
  pages : List (Nat × Nat × Nat)
  deriving DecidableEq, Repr

/-! ## Ligature (R266 to R299, R480) -/

/-- Placement of an application on this device (R480). -/
structure Placement where
  stage : Nat
  len : Nat
  replica : Nat
  replicas : Nat
  prev : Nat
  next : Nat
  sysApp : Nat
  deriving DecidableEq, Repr

/-- A message that arrives on a port. -/
structure MsgOp where
  off : Nat
  port : Nat
  msg : Msg
  deriving DecidableEq, Repr

/-- A flit that arrives on a port (R273), of the kind that the command's name says: its header and its 2,048 data bytes, the codewords
that the FEC corrected and could not correct since the last flit, and the virtual channel and 32-byte units of each message that ends in
it. -/
structure FlitOp where
  off : Nat
  port : Nat
  header : BitVec 64
  data : List Byte
  corrected : Nat
  uncorrected : Nat
  done : List (Nat × Nat)
  deriving DecidableEq, Repr

/-- What a HELLO flit says of its sender (R273): identity, device number if it has one, port, epoch, initial credits by channel. -/
structure Hello where
  identity : Nat
  device : Option Nat
  port : Nat
  epoch : Nat
  credits : List Nat
  deriving DecidableEq, Repr

/-- A HELLO flit; whether the peer passes the mutual authentication that follows it (R372). -/
structure HelloOp where
  off : Nat
  port : Nat
  hello : Hello
  authOk : Bool
  deriving DecidableEq, Repr

/-- A TSYNC flit (R14): a question, or an answer with its four timestamps in ps: sent, received there, answered, received here. -/
structure TsyncOp where
  off : Nat
  port : Nat
  answer : Bool
  t1 : Nat
  t2 : Nat
  t3 : Nat
  t4 : Nat
  deriving DecidableEq, Repr

/-- Something happens at a port. -/
structure PortOp where
  off : Nat
  port : Nat
  deriving DecidableEq, Repr

/-- An attempt at training a port ends (R296); the medium it found (R270, PORT_MEDIUM's code). -/
structure PortTrainOp where
  off : Nat
  port : Nat
  ok : Bool
  medium : Nat
  deriving DecidableEq, Repr

/-- Something happens on a die-to-die link: 0 to 7 joins Pk to P(k + 1), 8 + i joins the management die to P(2i + 1) (R266). -/
structure LinkOp where
  off : Nat
  link : Nat
  deriving DecidableEq, Repr

/-- Something becomes known of a device. -/
structure DeviceOp where
  off : Nat
  device : Nat
  deriving DecidableEq, Repr

/-- The wiring map (R290): each device's number, identity and rack, and the cables, from (device, port) to (device, port). -/
structure WireMap where
  devices : List (Nat × Nat × Nat)
  cables : List (Nat × Nat × Nat × Nat)
  deriving DecidableEq, Repr

/-- A write of the wiring map: its bytes, and what they say. -/
structure WiringOp where
  req : Req
  data : List Byte
  map : WireMap
  deriving DecidableEq, Repr

/-- What an EVENT message tells the manager (R297, R317, R290): a port's state, a fatal event, an expired holdover, a device's
attestation on joining (its identity and epoch, whether R354 holds, and its measurement block 0x02), its START entry's STOP_CAUSE (R429), or anything else. -/
inductive EventReport where
  | port (device port state : Nat)
  | fatal (device code : Nat)
  | started (device cause : Nat)
  | expired (device : Nat)
  | attested (identity epoch : Nat) (ok : Bool) (block : List Byte)
  | other
  deriving DecidableEq, Repr

structure EventOp where
  off : Nat
  port : Nat
  msg : Msg
  report : EventReport
  deriving DecidableEq, Repr

/-- A SLOT_REPORT (R288): the ring name and stamp of each slot that did not arrive. -/
structure SlotReportOp where
  off : Nat
  port : Nat
  msg : Msg
  slots : List (Nat × Nat)
  /-- Results of reduction trees that have not arrived (R308). -/
  trees : List TreeName
  deriving DecidableEq, Repr

/-- The tables that the manager sends a device (R282, R290, R291): its number; the link group for each device; the ports of each
group; each port's cable to a device, its port and identity; its parent, depth and children in the relay tree; the device epochs;
the topology edge. -/
structure Tables where
  number : Nat
  routes : List (Nat × Nat)
  groups : List (Nat × List Nat)
  cables : List (Nat × Nat × Nat × Nat)
  parent : Nat
  depth : Nat
  children : List Nat
  epochs : List (Nat × Nat)
  edge : Nat
  deriving DecidableEq, Repr

/-- A device's place in an application: device, its lowest partition there, stage, replica. -/
structure Member where
  device : Nat
  app : Nat
  stage : Nat
  replica : Nat
  deriving DecidableEq, Repr

/-- The device set of an application (R289): its system application number and its members. -/
structure AppSet where
  sysApp : Nat
  members : List Member
  deriving DecidableEq, Repr

/-- A request by its TAG (R280). -/
structure TagOp where
  off : Nat
  tag : Nat
  deriving DecidableEq, Repr

/-! ## Base replacement (R320 to R340) -/

/-- A carry map of one layer (R327): DIAG with vectors a and b; DENSE with a W × W matrix of BF16 codes, row k holding the
weights fed by input k, and b. -/
inductive CarryMap where
  | identity
  | diag (a b : List Word)
  | dense (m : List (List Nat)) (b : List Word)
  deriving DecidableEq, Repr

/-- What a device has staged of a package (R322): the new copybook with its shard's weights, and the carry maps of its layers. -/
structure Package where
  book : Copybook
  carry : List (Nat × CarryMap)
  deriving DecidableEq, Repr

/-- BASE_ORDER with its 128-byte block (R321). -/
structure BaseOrderOp where
  req : Req
  order : BitVec 1024
  deriving DecidableEq, Repr

/-- A device's report on its staged parts (R323): whether every hash agrees with the manifest; for this device, what it staged. -/
structure ShardOp where
  off : Nat
  app : Nat
  device : Nat
  ok : Bool
  package : Option Package
  deriving DecidableEq, Repr

/-- A carry task ends, a check times out, a variant is not quiet: the application and the variant. -/
structure AppVariantOp where
  off : Nat
  app : Nat
  variant : Nat
  deriving DecidableEq, Repr

/-- A check of a variant (R330): on the last stage, for each probe, the measured mean log2 probability and match fraction; on
another device the outcome that the last stage sent, as a CAUSE code, 0 for PASSED, with the means: log2 probability and match
fraction, each measured and expected. -/
structure CheckOp where
  off : Nat
  app : Nat
  variant : Nat
  measured : List (Word × Word)
  told : Option Nat
  means : Word × Word × Word × Word
  deriving DecidableEq, Repr

/-! ## Security (R341 to R384) -/

/-- A key command with its PROOF and its session's transcript hash (R355, R356). -/
structure KeyOp where
  off : Nat
  tenant : Nat
  code : Nat
  trk : List Byte
  proof : List Byte
  transcript : List Byte
  deriving DecidableEq, Repr

/-- A key slot. -/
structure KeySlotOp where
  off : Nat
  slot : Nat
  deriving DecidableEq, Repr

/-- SPDM requests (R350): a FINISH carries whether it verifies and whether it authenticates the requester. -/
inductive SpdmReq where
  | getVersion | getCapabilities | negotiate | getDigests | getCertificate | challenge
  | getMeasurements (index : Nat)
  | keyExchange | finish (session : Nat) (ok mutual_ : Bool) | endSession (session : Nat)
  | other
  deriving DecidableEq, Repr

/-- Their answers: versions in tenths, a measurement block. -/
inductive SpdmResp where
  | version (l : List Nat) | capabilities | algorithms | digests | certificate | challengeAuth
  | measurement (index : Nat) (value : List Byte)
  | keyExchange (session : Nat) | finished (session : Nat) | ended (session : Nat)
  | error
  deriving DecidableEq, Repr

/-- An SPDM request on a transport: 0 the DOE mailbox, 1 MGMT, 2 UDP on L00, 3 on L01 (R351). -/
structure SpdmOp where
  off : Nat
  transport : Nat
  req : SpdmReq
  deriving DecidableEq, Repr

/-- What a TDISP request is answered with (R374). -/
inductive TdispResp where
  | version | capabilities
  | report (rings : List Nat) (measurement : Nat)
  | state (s : Nat)
  | ok | error
  deriving DecidableEq, Repr

/-- Something happens at a virtual function VF1 to VF8. -/
structure VfOp where
  off : Nat
  vf : Nat
  deriving DecidableEq, Repr

/-- IDE keys for a VF, over an SPDM session (R373). -/
structure IdeOp where
  off : Nat
  vf : Nat
  session : Nat
  deriving DecidableEq, Repr

/-- A frame's scrub ends: the frame, its owner (1 device-owned, k + 2 key slot k); the frames [lo, hi) under a version-tree line
that failed verification on the way (R367, R369). -/
structure ScrubOp where
  off : Nat
  pfn : Nat
  owner : Nat
  failed : Option (Nat × Nat)
  deriving DecidableEq, Repr

/-- TENANT_ADD (R355). -/
structure TenantOp where
  req : Req
  tenant : Nat
  code : Nat
  deriving DecidableEq, Repr

/-- What a VIEW_REQUEST names (R382): a 64-byte line of a logical Hearth's operand space, a tile's status word (R66), or a DDR granule. -/
inductive View where
  | onChip (hearth addr : Nat)
  | tile (hearth array tile : Nat)
  | ddr (pfn granule : Nat)
  deriving DecidableEq, Repr

/-- A write of VIEW_REQUEST: its bytes, and what they name. -/
structure ViewOp where
  req : Req
  data : List Byte
  view : View
  deriving DecidableEq, Repr

/-! ## Sessions and dictionary requests (R389 to R402) -/

/-- What a value stands for whose bytes the manual gives no layout of: the wiring map (R290) and the place of a view (R384). -/
inductive Parsed where
  | raw
  | map (m : WireMap)
  | view (v : View)
  deriving DecidableEq, Repr

/-- One item of a REQUEST (R395): entry, TYPE, OFFSET, LENGTH and, for a write, its bytes; for a signed record what its check finds;
for the values of `Parsed` what they stand for. -/
structure Item where
  index : Nat
  sub : Nat
  typ : Nat
  offset : Nat
  length : Nat
  data : List Byte
  verdict : Verdict
  parsed : Parsed
  deriving DecidableEq, Repr

/-- An OPEN record (R390): the role, METHOD 1 (password) or 2 (key), and the nonce Nc. -/
structure OpenOp where
  transport : Transport
  role : Role
  password : Bool
  nonce : Nat
  pub : Nat
  deriving DecidableEq, Repr

/-- The body of a PROOF (R390): METHOD 1, an HMAC; METHOD 2, a key index and a signature, given by the public key under which it verifies
and the bytes it signs, with the key that a certificate of the maker root names, if one follows. -/
inductive ProofBody where
  | password (mac : List Byte)
  | key (index : Nat) (signer signed : List Byte) (cert : Option (List Byte))
  deriving DecidableEq, Repr

/-- A PROOF record (R390, R391): the opening it answers by Nc, the key under which its tag was made, and its body. -/
structure ProofOp where
  transport : Transport
  nonce : Nat
  key : List Byte
  body : ProofBody
  deriving DecidableEq, Repr

/-- A request without items. -/
structure SesOp where
  req : Req
  deriving DecidableEq, Repr

/-- A request of one item. -/
structure ItemOp where
  req : Req
  item : Item
  deriving DecidableEq, Repr

/-- A segment of a staged value (R399); FLAGS bit 0. -/
structure StagedOp where
  req : Req
  item : Item
  last : Bool
  deriving DecidableEq, Repr

/-- A request of several items. -/
structure ItemsOp where
  req : Req
  items : List Item
  deriving DecidableEq, Repr

/-- A session is named. -/
structure SessionOp where
  ses : Nat
  deriving DecidableEq, Repr

/-- A role is named. -/
structure RoleOp where
  role : Role
  deriving DecidableEq, Repr

/-- A record in the mailbox's request window (R401). -/
inductive MailRecord where
  | opening (op : OpenOp)
  | proof (op : ProofOp)
  | read (op : ItemsOp)
  | write (op : ItemOp)
  | writeMulti (op : ItemsOp)
  | writeStaged (op : StagedOp)
  | subscribe (op : SesOp) (start : Bool)
  | close (op : SesOp)
  deriving DecidableEq, Repr

structure MailOp where
  record : MailRecord
  deriving DecidableEq, Repr

/-- A write of a maker-signed value as a whole (R411). -/
structure BlobWrite where
  req : Req
  data : List Byte
  verdict : Verdict
  deriving DecidableEq, Repr

/-! ## Events and rings -/

/-- Where event records go (R412): a control processor's event ring, an MSI-X vector's, or the Epell channel. -/
inductive EventTarget where
  | cp (k : Nat) | vector (v : Nat) | epell
  deriving DecidableEq, Repr

/-- A firing of a source with its CODE and ARG, at an hclk offset. -/
structure FireOp where
  off : Nat
  src : Nat
  code : Nat
  arg : Nat
  deriving DecidableEq, Repr

/-- The router serves a target; sessions in `blocked` cannot take a NOTIFY now (R404). -/
structure TakeOp where
  off : Nat
  target : EventTarget
  blocked : List Nat
  deriving DecidableEq, Repr

/-- A handler writes its source number to its processor's EOI register (R415). -/
structure EoiOp where
  off : Nat
  cp : Nat
  src : Nat
  deriving DecidableEq, Repr

/-- A source or a ring whose effective level rises (R416, R425). -/
inductive EscTarget where
  | source (n : Nat) | ring (n : Nat)
  deriving DecidableEq, Repr

structure EscalateOp where
  off : Nat
  target : EscTarget
  deriving DecidableEq, Repr

/-- FATAL fires with CODE 1 (HARDWARE) or 2 (FIRMWARE), R421. -/
structure FatalOp where
  off : Nat
  code : Nat
  deriving DecidableEq, Repr

/-- A doorbell write (R423): the page it lies in (BAR2 of PCIe function `owner`, or the owner's page in management-die
register space), the slot, and the new index in bits [16:0]. -/
structure DoorbellOp where
  off : Nat
  pcie : Bool
  owner : Nat
  slot : Nat
  index : Nat
  /-- The entries that the producer has written from the old TAIL on. -/
  entries : List (List Byte)
  deriving DecidableEq, Repr

/-- Firmware serves one entry of a ring; the key slot of the entry's tenant (R422, R425). -/
structure RingServiceOp where
  off : Nat
  tenant : Nat
  deriving DecidableEq, Repr

/-! ## Power, kindling, reset and pins (R434 to R477) -/

/-- The scopes of a reset (R453, R454); Hearths by physical number 9·cluster + h. -/
inductive Scope where
  | hearth (n : Nat) | cluster (c : Nat) | partition (p : Nat) | warm | cold
  deriving DecidableEq, Repr

/-- Power-good (R434): whether SYSCLK is present (R470). -/
structure PowerGoodOp where
  sysclk : Bool
  deriving DecidableEq, Repr

/-- K0 ends (R346): its time in µs; the root key hashes right; the acceptance key list verifies, with its version; the identity key
unwraps (R344); the defect record verifies (R446); the worst-case power in W that the factory calibration gives at each clock step
from 600 MHz up (R437). -/
structure K0Op where
  us : Nat
  root : Bool
  list : Bool
  listVersion : Nat
  identity : Bool
  record : Bool
  calib : List Nat
  deriving DecidableEq, Repr

/-- Kinds of DIMM (R119): those it names, and any other. -/
inductive DimmKind where
  | mrdimm | rdimm | other
  deriving DecidableEq, Repr

/-- One channel's DIMM and training (R119, R121): capacity in GiB, rate in MT/s, of a supported kind, trained. -/
structure ChannelTrain where
  channel : Nat
  kind : DimmKind
  /-- Its module bears ECC. -/
  ecc : Bool
  gib : Nat
  /-- The highest rate in MT/s that its module supports. -/
  rate : Nat
  /-- A digest of the module's serial-presence-detect contents. -/
  spd : Nat
  /-- It would train from the saved values, which a warm start also uses; it would train by full training. -/
  saved : Bool
  full : Bool
  deriving DecidableEq, Repr

/-- K1 ends: its time, the channels, and the die-to-die links with a module that failed lane repair. -/
structure K1Op where
  us : Nat
  channels : List ChannelTrain
  links : List Nat
  deriving DecidableEq, Repr

/-- Channels not trained by 2.20 s (R441). -/
structure ChannelsOp where
  channels : List Nat
  deriving DecidableEq, Repr

/-- A stage of kindling ends, with its time in µs. -/
structure StageOp where
  us : Nat
  deriving DecidableEq, Repr

/-- A physical bank that failed its march test (R444): of the Inkstone of a cluster, or of the Well of a physical Hearth. -/
structure Bank where
  ink : Bool
  unit : Nat
  bank : Nat
  deriving DecidableEq, Repr

/-- The proof stroke ends (R444): its time; banks that failed, physical Hearths that failed, clusters whose transfer engine failed,
partitions whose Scribe failed, channels that failed; the security engine passed. -/
structure ProofStrokeOp where
  us : Nat
  banks : List Bank
  hearths : List Nat
  clusters : List Nat
  scribes : List Nat
  channels : List Nat
  security : Bool
  deriving DecidableEq, Repr

/-- An image that the recovery loader receives (R349). -/
structure ImageOp where
  image : FwImage
  deriving DecidableEq, Repr

/-- A sensor's reading in m°C. -/
structure TempOp where
  off : Nat
  temp : Int
  deriving DecidableEq, Repr

/-- Something happens to a power domain. -/
structure DomainOp where
  off : Nat
  domain : Nat
  deriving DecidableEq, Repr

/-- Corrected errors of a channel (R452). -/
structure CorrectedOp where
  off : Nat
  channel : Nat
  count : Nat
  deriving DecidableEq, Repr

/-- A die group's channels have been retrained: those that failed (R452). -/
structure RetrainOp where
  off : Nat
  group : Nat
  failed : List Nat
  deriving DecidableEq, Repr

/-- Something happens to a unit's reset. -/
structure ScopeOp where
  off : Nat
  scope : Scope
  deriving DecidableEq, Repr

/-- A unit's reset proper ends: whether it passes its proof stroke, and banks that failed in it (R444, R451). -/
structure UnitBackOp where
  off : Nat
  scope : Scope
  passed : Bool
  banks : List Bank
  deriving DecidableEq, Repr

/-- A control processor's watchdog. -/
structure CpOp where
  off : Nat
  cp : Nat
  deriving DecidableEq, Repr

/-- A pluggable module is inserted or removed (R468). -/
structure ModuleOp where
  off : Nat
  port : Nat
  present : Bool
  deriving DecidableEq, Repr

/-- A copybook is loaded (R3): for the application whose lowest partition it names, with the devices that the manager places it on
(R286), if this device is not the only one. -/
structure LoadOp where
  off : Nat
  book : Copybook
  set : List Member
  deriving DecidableEq, Repr

/-! ## MGMT messages (R278, R289, R292) -/

/-- An admission that the first device of a chain passes along it (R171): the request as the later devices need it. -/
structure Admission where
  tenant : Nat
  id : Nat
  keyGen : Nat
  app : Nat
  handle : Nat
  variant : Nat
  maxNew : Nat
  prompt : List Nat
  temp : Word
  topK : Nat
  topP : Word
  stops : List Nat
  seed : Nat
  phase : Nat
  first : Nat
  deriving DecidableEq, Repr

/-- A tenant record on the manager (R355, R357): enrolled with a code; whether a key has been set; ordered revoked. -/
structure Tenant where
  id : Nat
  code : Nat
  keyed : Bool
  revoked : Bool
  deriving DecidableEq, Repr

/-- What the manager holds of a base replacement (R337): the application, phase, OP_ID, NEW_BASE_GEN, order and S. -/
structure BasePhase where
  app : Nat
  phase : Nat
  opId : Nat
  newGen : Nat
  order : BitVec 1024
  switchAt : Option Nat
  deriving DecidableEq, Repr

/-- System state besides the map and the sets that the manager sends to the standby (R292): shares and quotas, the latest complete
snapshot of each application, the ash entries of lost devices, frames of service (R260); base replacements and the next OP_ID (R337). -/
structure SysState where
  tokenShare : Table Nat
  prefillShare : Table Nat
  kvQuota : Table Nat
  trainShare : Table Nat
  snaps : List (Nat × Nat)
  losses : List (BitVec 512)
  served : Nat
  bases : List BasePhase
  nextOp : Nat
  tenants : List Tenant
  /-- Key records, wrapped (R358). -/
  records : List (List Byte)
  deriving DecidableEq, Repr

/-- What a MGMT message carries: manager-to-worker control and its answers, or a record of a session over Ligature (R401). -/
inductive Control where
  | tables (t : Tables)
  | placement (app : Nat) (p : Placement)
  /-- Export table entries: PFN, system application number (R128). -/
  | exports (l : List (Nat × Nat))
  /-- Shares that the manager writes (R193, R224): entry, subindex, first key slot, values. -/
  | shares (index sub first : Nat) (values : List Nat)
  | admission (a : Admission)
  /-- From the chain's first device: a slot is to be bound for a request (R171, R195); the answer, 0 or the refusal's code. -/
  | bindAsk (tenant id variant app : Nat)
  | bindAnswer (tenant id code : Nat)
  /-- A pin asked of the chain's devices for a job or an evaluation (R237), its release, and the answer, 0 or the refusal's code. -/
  | pinAsk (u : Use) (variant app : Nat)
  | pinRelease (u : Use)
  | pinAnswer (u : Use) (code : Nat)
  /-- From a job's device: a sequence's schedule; from any: a chunk of it that slipped by some frames (R224, R225). -/
  | schedule (x : SchedNote)
  | slip (c : ChunkRef) (frames : Nat)
  | reduceOpen (i : ReduceInfo)
  | reduceVoid (job step : Nat)
  | snapOrder (app number edge : Nat) (boosted : Bool)
  /-- A snapshot is interrupted (R256). A device asks the manager for one (R458), a job's device for a boosted one (R258). -/
  | snapInterrupt (app number : Nat)
  | snapAsk (app : Nat) (boosted : Bool)
  /-- A device that hosts an application drains for service, or drains no longer; its drain has run out (R458). -/
  | service (app : Nat) (on : Bool)
  | serviceStop (app : Nat)
  /-- A job has ended (R315); an application stays stopped for want of a device (R318). -/
  | jobEnded (job : Nat)
  | chainLost (app : Nat)
  | restoreStop (app edge : Nat)
  | resumeEdge (app edge : Nat)
  | baseOrder (opId newGen : Nat) (order : BitVec 1024)
  | baseMap (app : Nat)
  | baseSwitch (app edge : Nat)
  | baseAbandon (app : Nat)
  | baseRetire (app : Nat)
  | haltAt (app edge : Nat)
  | runAt (app edge : Nat) (steps : Option Nat)
  /-- A key record, unwrapped in the security engine (R357, R358). -/
  | keyRecord (record : BitVec 1024)
  /-- The system wrapping key, over the join session (R358). -/
  | swk (key : List Byte)
  | keyRetire (tenant : Nat)
  | keyRevoke (tenant : Nat)
  | buddy (device : Nat)
  | standby (map : WireMap) (joined : List (Nat × Nat)) (sets : List AppSet)
  | standbyState (x : SysState)
  | standbyAck
  /-- The sender's Capacity Table (R294). -/
  | capacity (table : List (Nat × Nat))
  /-- From the manager: a page of this device in an exported frame migrates (R129). -/
  | migrate (app page frame : Nat)
  /-- An exported frame of the sender migrates (R129): from, to, and how far; an importer has done its part. -/
  | migration (src dst phase : Nat)
  | migrationAck (src phase : Nat)
  /-- What the sender's admitted work needs (R20, R22): hclk a frame, and the share of the slices it may take. -/
  | load (l : List (Nat × Nat))
  | record (r : MailRecord)
  deriving DecidableEq, Repr

structure MgmtOp where
  off : Nat
  port : Nat
  msg : Msg
  control : Control
  deriving DecidableEq, Repr
/-- The commands (opcode_table.json): one constructor a row. -/
inductive Instr where
  /-- TICK_EDGE (R25): A tick edge begins a frame and the device performs the ordered edge actions within the edge window. -/
  | tickEdge (op : TickEdgeOp)
  /-- TICK (R13): A TICK message is received, its correction used to place the edge and relayed with added residence and link delay. -/
  | tick (op : TickMsg)
  /-- TICK_IN_EDGE (R15): A rising edge on TICK_IN places the device's tick edge. -/
  | tickInEdge (op : EdgePinOp)
  /-- HOLDOVER_ENTRY (R16): No tick within 0.25 frame of the expected edge puts the device in HOLDOVER on its own timer. -/
  | holdoverEntry (op : AtOp)
  /-- HOLDOVER_LIMIT_EXPIRY (R16): HOLDOVER_LIMIT consecutive holdover frames put the device in EXPIRED and stop admission. -/
  | holdoverLimitExpiry (op : AtOp)
  /-- UPSTREAM_DELAY_MEASURE (R14): Every 1,024 frames or after retraining the device measures its upstream link delay by timestamp exchange. -/
  | upstreamDelayMeasure (op : PortOp)
  /-- PPS_IN_EDGE (R17): A PPS_IN rising edge places or timestamps a manager tick edge. -/
  | ppsInEdge (op : EdgePinOp)
  /-- ADMISSION_CUTOFF (R27): At the start of the training slice admission closes and the planner starts the next plan. -/
  | admissionCutoff (op : CutoffOp)
  /-- GUARD_BAND_START (R32): At the first hclk of the guard band sequencers stop issuing and unfinished tasks become late. -/
  | guardBandStart (op : AtOp)
  /-- WINDOW_CLOSE (R33): A task window closes and its in-flight operation stops at the next boundary. -/
  | windowClose (op : WindowCloseOp)
  /-- RESPONSE_PUBLISH (R210): At offset 1,700 hclk the responses of the previous frame are published, ordered by key slot and REQUEST_ID. -/
  | responsePublish (op : AtOp)
  /-- FRAME_PERIOD (R20): A write of the frame period is checked and scheduled for a named edge or refused PERIOD_REFUSED. -/
  | framePeriod (op : EntryWrite)
  /-- DECODE_FRACTION (R22): A write of the decode fraction is checked and scheduled or refused FRACTION_REFUSED. -/
  | decodeFraction (op : EntryWrite)
  /-- TRAINING_FRACTION (R22): A write of the training fraction is checked and scheduled or refused FRACTION_REFUSED. -/
  | trainingFraction (op : EntryWrite)
  /-- HOUSEKEEPING_FRACTION (R22): A write of the housekeeping fraction is checked and scheduled or refused FRACTION_REFUSED. -/
  | housekeepingFraction (op : EntryWrite)
  /-- GUARD_FRACTION (R22): A write of the guard fraction is checked and scheduled or refused FRACTION_REFUSED. -/
  | guardFraction (op : EntryWrite)
  /-- COUNTER_CLEAR (R36): A write clears the selected frame counters. -/
  | counterClear (op : EntryWrite)
  /-- NOP (R48): A control NOP descriptor issues and does nothing. -/
  | nop (op : Desc8Op)
  /-- MATMUL (R49): A matrix descriptor issues to its array once its wait, queue, window and owner-tag conditions hold. -/
  | matmul (op : MatmulOp)
  /-- TILE_STEP_END (R56): A pass of a tile step ends and the array tests overflow before promoting or repeating. -/
  | tileStepEnd (op : ArrayOp)
  /-- TRACER_PASS_END (R94): A sampled tile step's wide shadow pass ends and the Tracer compares narrow and wide results. -/
  | tracerPassEnd (op : TracerOp)
  /-- MATMUL_COMPLETE (R51): A matrix descriptor completes when its last promotion is written, signalling SIG_SEM. -/
  | matmulComplete (op : ArrayOp)
  /-- VOP (R100): A Ductus VOP descriptor issues and streams its rows through the stage chain. -/
  | vop (op : Desc64Op)
  /-- DRAIN (R63): A DRAIN descriptor issues and reads its accumulator tile through the Ductus after earlier matrix work. -/
  | drain (op : Desc64Op)
  /-- DUCTUS_COMPLETE (R107): A Ductus descriptor completes at its last write and signals SIG_SEM. -/
  | ductusComplete (op : HearthOp)
  /-- COPY (R138): A COPY transfer issues to the cluster transfer engine. -/
  | copy (op : Desc64Op)
  /-- FILL (R141): A FILL transfer issues and writes its pattern to every destination element. -/
  | fill (op : Desc64Op)
  /-- GATHER (R141): A GATHER transfer issues and reads elements through its list of addresses. -/
  | gather (op : Desc64Op)
  /-- SEM_WAIT (R132): SEM_WAIT issues once the semaphore reaches VALUE and subtracts it. -/
  | semWait (op : Desc8Op)
  /-- SEM_ADD (R132): SEM_ADD adds VALUE to a semaphore. -/
  | semAdd (op : Desc8Op)
  /-- RING_RELEASE (R135): RING_RELEASE frees VALUE consumed slots of a buffer ring. -/
  | ringRelease (op : Desc8Op)
  /-- RING_PUBLISH (R135): RING_PUBLISH publishes VALUE filled slots of a buffer ring. -/
  | ringPublish (op : Desc8Op)
  /-- TRANSFER_COMPLETE (R143): A transfer completes when its last element is written or taken by the fabric. -/
  | transferComplete (op : ClusterOp)
  /-- TRANSFER_FAULT (R146): An access faults at an element; the transfer stops at the cursor and enters FAULTED. -/
  | transferFault (op : XferFaultOp)
  /-- RESUME (R147): A RESUME continues a faulted or carried transfer from its cursor. -/
  | resume (op : ResumeOp)
  /-- ABANDON (R147): An ABANDON ends a faulted transfer as unresolvable. -/
  | abandon (op : ResumeOp)
  /-- TRANSFER_CARRY_RESUME (R149): A CARRIED transfer resumes from its cursor when its next housekeeping window opens. -/
  | transferCarryResume (op : ClusterOp)
  /-- DAMPER_STEP (R87): The Damper processes a closed stream step's evidence and updates SPREAD, BUMP and cold state. -/
  | damperStep (op : DamperOp)
  /-- ARRAY_COUNTER_CLEAR (R71): A write clears the selected array counters. -/
  | arrayCounterClear (op : EntryWrite)
  /-- DAMPER_RESET (R90): A write turns the streams of the named partitions cold. -/
  | damperReset (op : EntryWrite)
  /-- NUM_COUNTER_CLEAR (R96): A write clears the selected numerics counters. -/
  | numCounterClear (op : EntryWrite)
  /-- CHANNEL_RECALIBRATION (R121): Every 1,024 frames a memory channel recalibrates within a housekeeping slice. -/
  | channelRecalibration (op : ChannelOp)
  /-- TLB_INVAL (R127): Firmware removes cached translations for a DVA range of a partition. -/
  | tlbInval (op : TlbOp)
  /-- TLB_INVAL_COMPLETE (R127): A TLB_INVAL completes once all caches dropped the entries and their accesses completed. -/
  | tlbInvalComplete (op : TlbOp)
  /-- PAGE_MIGRATE (R129): Firmware migrates a page to a new frame under the MIGRATING procedure. -/
  | pageMigrate (op : MigrateOp)
  /-- READ_REQ (R280): A remote read request is checked against the export table and MACs and answered. -/
  | readReq (op : MsgOp)
  /-- WRITE_REQ (R280): A remote write request is checked and its granules written and acknowledged. -/
  | writeReq (op : MsgOp)
  /-- READ_RESP (R278): A remote read answer delivers granules to the requesting transfer. -/
  | readResp (op : MsgOp)
  /-- WRITE_ACK (R278): A remote write acknowledgement completes the requesting access. -/
  | writeAck (op : MsgOp)
  /-- REFUSED_RESP (R278): A refusal answer faults the requesting access with its cause. -/
  | refusedResp (op : MsgOp)
  /-- REMOTE_TIMEOUT (R280): A remote request unanswered within REMOTE_TIMEOUT faults REMOTE_UNREACHABLE. -/
  | remoteTimeout (op : TagOp)
  /-- RING_SLOT (R137): A remote ring slot segment arrives and a complete slot is accepted or dropped. -/
  | ringSlot (op : MsgOp)
  /-- XFER_COUNTER_CLEAR (R153): A write clears the selected transfer counters. -/
  | xferCounterClear (op : EntryWrite)
  /-- LOOKUP (R166): LOOKUP returns the slot a variant owns outside FREE, or NONE. -/
  | lookup (op : VariantOp)
  /-- CLAIM (R166): CLAIM takes a FREE slot for a variant, pins it and queues a fill. -/
  | claim (op : ClaimOp)
  /-- PIN (R166): PIN adds a pin to a FILLING or LIVE slot of the right generation. -/
  | pin (op : SlotGenOp)
  /-- UNPIN (R166): UNPIN removes a pin and records LAST_USE when pins reach 0. -/
  | unpin (op : UnpinOp)
  /-- EVICT (R166): EVICT moves an unpinned LIVE slot to DRAINING. -/
  | evict (op : SlotGenOp)
  /-- WITHDRAW (R166): WITHDRAW sets WITHDRAW_PENDING on a variant's slot. -/
  | withdraw (op : VariantOp)
  /-- SLOT_FREE (R175): A DRAINING slot with no pins and no writing transfer is cleared and set FREE. -/
  | slotFree (op : SlotOp)
  /-- SLOT_BIND (R169): Firmware binds a slot for a request or use by lookup, pin, eviction and claim. -/
  | slotBind (op : BindOp)
  /-- SLOT_BIND_RESUME (R169): A bind waiting on a DRAINING slot resumes when the slot is free. -/
  | slotBindResume (op : UseOp)
  /-- FILL_COMPLETE (R172): A fill completes on every cluster and the slot becomes LIVE. -/
  | fillComplete (op : SlotOp)
  /-- PARK_LIMIT_EXPIRY (R173): A request parked PARK_LIMIT frames ends VARIANT_UNAVAILABLE. -/
  | parkLimitExpiry (op : ReqOp)
  /-- WITHDRAW_VARIANT (R176): A write orders the forced withdrawal of one variant. -/
  | withdrawVariant (op : EntryWrite)
  /-- WITHDRAW_TENANT (R176): A write orders the withdrawal of every variant of a key slot. -/
  | withdrawTenant (op : EntryWrite)
  /-- SLOT_RESERVE (R168): A write of slot reserves is checked against the application's slots or refused RESERVE_REFUSED. -/
  | slotReserve (op : ShareWrite)
  /-- FILL_PER_FRAME (R172): A write of fill windows per slice is checked against the slice and admitted work. -/
  | fillPerFrame (op : EntryWrite)
  /-- SLOT_LIVE_REPORT (R171): A chain device's report of its slot going LIVE reaches the chain's first device. -/
  | slotLiveReport (op : LiveReportOp)
  /-- FLIP_NOTICE (R250): A flip notice arrives and the device makes the variant's flip pending. -/
  | flipNotice (op : FlipOp)
  /-- VARIANT_COUNTER_CLEAR (R182): A write clears the selected variant counters. -/
  | variantCounterClear (op : EntryWrite)
  /-- UDP_SEGMENT (R187): A UDP segment arrives and is reassembled into an envelope. -/
  | udpSegment (op : UdpOp)
  /-- REASSEMBLY_TIMEOUT (R187): An envelope not complete within REASSEMBLY_FRAMES is discarded and counted. -/
  | reassemblyTimeout (op : ReasmOp)
  /-- ARP (R187): An ARP request for a configured IPv4 address is answered. -/
  | arpRequest (op : AddrOp)
  /-- NEIGHBOR_DISCOVERY (R187): An IPv6 Neighbor Discovery message for a configured address is answered. -/
  | neighborDiscovery (op : AddrOp)
  /-- INTAKE_FORWARD (R189): An intake entry and opened envelope forwarded over Ligature enter the first device's intake ring. -/
  | intakeForward (op : ForwardOp)
  /-- GENERATE (R195): A GENERATE envelope is checked, opened onto its intake ring and queued for admission. -/
  | generate (op : EnvOp)
  /-- CANCEL (R197): A CANCEL removes a queued request or ends an admitted one CANCELLED at the next edge after a cut-off. -/
  | cancel (op : EnvOp)
  /-- REGISTER_VARIANT (R157): A REGISTER_VARIANT envelope is checked and its record registered or refused. -/
  | registerVariant (op : RegOp)
  /-- REPLACE_VARIANT (R478): A REPLACE_VARIANT is checked and scheduled to replace the variant's record at an edge. -/
  | replaceVariant (op : RegOp)
  /-- RELEASE_VARIANT (R479): A RELEASE_VARIANT withdraws the variant and removes its record at the withdrawal edge. -/
  | releaseVariant (op : EnvOp)
  /-- TRAIN_JOB (R212): A TRAIN_JOB envelope creates a training job or is refused JOB_REFUSED. -/
  | trainJob (op : EnvOp)
  /-- LEDGER_APPEND (R216): A LEDGER_APPEND adds prompts to a job's ledger or is refused LEDGER_FULL. -/
  | ledgerAppend (op : EnvOp)
  /-- REWARDS (R219): A REWARDS envelope supplies external rewards for one group. -/
  | rewards (op : EnvOp)
  /-- OFFLINE_GROUP (R216): An OFFLINE_GROUP supplies weighted sequences in place of the next DRAW. -/
  | offlineGroup (op : EnvOp)
  /-- JOB_PAUSE (R216): JOB_CONTROL PAUSE stops the job drawing from the next edge. -/
  | jobPause (op : EnvOp)
  /-- JOB_RESUME (R216): JOB_CONTROL RESUME lets a paused job draw again from the next edge. -/
  | jobResume (op : EnvOp)
  /-- JOB_END (R216): JOB_CONTROL END ends the job at the next edge, abandoning its uncommitted step. -/
  | jobEnd (op : EnvOp)
  /-- EVALUATE (R236): An EVALUATE runs teacher-forced probes under the variant's live version. -/
  | evaluate (op : EnvOp)
  /-- ADMIT_WAIT_EXPIRY (R195): A request pending ADMIT_WAIT frames is refused with its check's code. -/
  | admitWaitExpiry (op : ReqOp)
  /-- TOKEN_SAMPLE (R207): Stage L−1 samples one token per sequence from the logits and hands a record to stage 0. -/
  | tokenSample (op : SampleOp)
  /-- END_RECORD (R201): An end record arrives and the device releases the sequence at the next edge. -/
  | endRecord (op : EndOp)
  /-- TOKEN_SHARE (R194): A write of token shares is checked against the frame or refused SHARE_REFUSED. -/
  | tokenShare (op : ShareWrite)
  /-- PREFILL_SHARE (R194): A write of prefill shares is checked against the frame or refused SHARE_REFUSED. -/
  | prefillShare (op : ShareWrite)
  /-- KV_QUOTA (R194): A write of key/value quotas is checked against the frame or refused SHARE_REFUSED. -/
  | kvQuota (op : ShareWrite)
  /-- GEN_COUNTER_CLEAR (R211): A write clears the selected generation counters. -/
  | genCounterClear (op : EntryWrite)
  /-- REWARD_WAIT_EXPIRY (R219): A group whose external rewards miss REWARD_WAIT is dropped. -/
  | rewardWaitExpiry (op : GroupOp)
  /-- ADVANTAGE (R220): When every group is scored or dropped and v(s−1) is live, advantages are computed per group. -/
  | advantage (op : AdvantageOp)
  /-- COMMIT_NOTICE (R244): A commit notice arrives and the device plans its Scribe task at the next cut-off. -/
  | commitNotice (op : CommitOp)
  /-- SCRIBE_DONE (R250): A Scribe task completes, validating the idle bank or reporting a numeric fault. -/
  | scribeDone (op : VariantOp)
  /-- SCRIBE_REPORT (R250): A device's Scribe completion or numeric-fault report reaches the chain's first device. -/
  | scribeReport (op : ScribeReportOp)
  /-- EVAL_FRAMES_EXPIRY (R236): An evaluation not complete within EVAL_FRAMES is abandoned. -/
  | evalFramesExpiry (op : ReqOp)
  /-- REDUCE_DONE (R309): A device's report that its reduction of a step is complete reaches the job's holder. -/
  | reduceDone (op : ReduceOp)
  /-- TRAIN_SHARE (R224): A write of training shares is checked against the frame or refused SHARE_REFUSED. -/
  | trainShare (op : ShareWrite)
  /-- TRAIN_COUNTER_CLEAR (R238): A write clears the selected training counters. -/
  | trainCounterClear (op : EntryWrite)
  /-- SNAPSHOT_INTERVAL (R258): The policy interval elapses and the manager orders the next snapshot. -/
  | snapshotInterval (op : AppOp)
  /-- SNAP_NOW (R258): A write orders a snapshot at the first reachable edge. -/
  | snapNow (op : EntryWrite)
  /-- RESTORE_NOW (R262): A write orders a restore from the latest complete snapshot. -/
  | restoreNow (op : EntryWrite)
  /-- SNAP_OBJECT (R255): A sealed snapshot object arrives at the buddy's store. -/
  | snapObject (op : SnapObjOp)
  /-- SNAP_OBJECT_ACK (R253): The buddy acknowledges an object and the bank's HELD mark clears. -/
  | snapObjectAck (op : SnapAckOp)
  /-- SNAP_COMPLETION_RECORD (R255): A device writes its completion record after its last object is acknowledged. -/
  | snapCompletionRecord (op : SnapRecOp)
  /-- SNAPSHOT_COMPLETE (R255): The manager writes SNAPSHOT_COMPLETE and the buddy frees unused objects. -/
  | snapshotComplete (op : SnapRecOp)
  /-- SNAP_TIMEOUT (R256): A snapshot not complete within SNAP_TIMEOUT is interrupted. -/
  | snapTimeout (op : AppOp)
  /-- RESTORE (R262): The manager stops the application, re-forms its set and writes back its latest complete snapshot. -/
  | restore (op : AppOp)
  /-- RESTORE_REPORT (R262): A device reports its restore done and the last report names the resume edge. -/
  | restoreReport (op : RestoreOp)
  /-- SCRIBE_COUNTER_CLEAR (R265): A write clears the selected update and snapshot counters. -/
  | scribeCounterClear (op : EntryWrite)
  /-- DATA_FLIT (R274): A DATA flit is accepted in order, or discarded and NAKed on CRC failure or gap. -/
  | dataFlit (op : FlitOp)
  /-- IDLE_FLIT (R273): An IDLE flit delivers ACK and credits. -/
  | idleFlit (op : FlitOp)
  /-- NAK_FLIT (R274): A NAK makes the sender replay every flit after ACK. -/
  | nakFlit (op : FlitOp)
  /-- NAK_LIMIT (R274): Sixteen NAKs without ACK progress put the port into RETRAINING. -/
  | nakLimit (op : PortOp)
  /-- HELLO_FLIT (R290): A HELLO flit gives the peer's identity, checked against the wiring map. -/
  | helloFlit (op : HelloOp)
  /-- TSYNC_FLIT (R296): A TSYNC flit carries timestamps of the delay exchange. -/
  | tsyncFlit (op : TsyncOp)
  /-- MGMT (R278): A MGMT message carries dictionary records or manager-to-worker control. -/
  | mgmt (op : MgmtOp)
  /-- EVENT (R297): An EVENT message reports port or device state to the manager, which may compute new tables. -/
  | event (op : EventOp)
  /-- SLOT_REPORT (R288): A SLOT_REPORT makes the sender replan the named tasks in slip places. -/
  | slotReport (op : SlotReportOp)
  /-- SIGNAL_DETECT (R295): Signal on the receive lanes moves a DOWN port to TRAINING. -/
  | signalDetect (op : PortOp)
  /-- LOSS_OF_SIGNAL (R295): Loss of signal held 1 µs moves the port DOWN and out of its link group. -/
  | lossOfSignal (op : PortOp)
  /-- PORT_TRAINING_DONE (R296): Fast or full training ends and the port goes UP, MISWIRED or FAILED. -/
  | portTrainingDone (op : PortTrainOp)
  /-- PORT_RETRY (R295): Every PORT_RETRY_FRAMES a FAILED port tries training again. -/
  | portRetry (op : PortOp)
  /-- FEC_RETRAIN (R296): Uncorrectable codewords reaching FEC_RETRAIN_THRESHOLD in 1,024 frames retrain the port. -/
  | fecRetrain (op : PortOp)
  /-- PORT_RETRAIN_FAST (R296): A write orders fast retraining of a port. -/
  | portRetrainFast (op : SubWrite)
  /-- PORT_RETRAIN_FULL (R296): A write orders full retraining of a port. -/
  | portRetrainFull (op : SubWrite)
  /-- PORT_RETRAIN_PLANNED (R298): A write removes the port from its group at the next edge and then retrains it. -/
  | portRetrainPlanned (op : SubWrite)
  /-- PORT_MODE (R271): A write changes a port's mode or is refused MODE_REFUSED. -/
  | portMode (op : SubWrite)
  /-- LINK_DELAY_MEASURE (R296): Every 1,024 frames an UP port measures LINK_DELAY by TSYNC exchange. -/
  | linkDelayMeasure (op : PortOp)
  /-- UCIE_MODULE_FAIL (R267): A UCIe module failing lane repair is removed at the next edge and the link runs reduced. -/
  | ucieModuleFail (op : LinkOp)
  /-- MANAGER_TIMEOUT (R293): A standby without TICK for MANAGER_TIMEOUT frames becomes manager with a higher term. -/
  | managerTimeout (op : AtOp)
  /-- DEVICE_LOSS_TIMEOUT (R317): No UP path to a device for LOSS_FRAMES makes the manager declare it lost. -/
  | deviceLossTimeout (op : DeviceOp)
  /-- WIRING_MAP (R290): A wiring map write is accepted or refused WIRING_REFUSED. -/
  | wiringMap (op : WiringOp)
  /-- LIG_COUNTER_CLEAR (R299): A write clears the selected Ligature counters. -/
  | ligCounterClear (op : EntryWrite)
  /-- LATE_COUNTER_CLEAR (R319): A write clears the selected late-contribution counters. -/
  | lateCounterClear (op : EntryWrite)
  /-- BASE_ORDER (R320): A write orders a base replacement or is refused BASE_BUSY. -/
  | baseOrder (op : BaseOrderOp)
  /-- BASE_ABORT (R331): A write aborts the operation before the S−1 cut-off or is refused ABORT_REFUSED. -/
  | baseAbort (op : EntryWrite)
  /-- BASE_RETIRE (R336): A write retires the old base, withdrawing variants still KEPT at the next edge. -/
  | baseRetire (op : EntryWrite)
  /-- SHARD_VERIFIED (R323): A device reports its staged shard verified; when all have, MAP begins. -/
  | shardVerified (op : ShardOp)
  /-- QUIESCE_EXPIRY (R326): A variant not quiet within QUIESCE_FRAMES has its drawn step abandoned. -/
  | quiesceExpiry (op : AppVariantOp)
  /-- CARRY_TASK_DONE (R327): A carry task completes, leaving the journal entry MAPPED or FAILED. -/
  | carryTaskDone (op : AppVariantOp)
  /-- CHECK_OUTCOME (R330): The last stage's check outcome sets the entry PASSED or FAILED on every device. -/
  | checkOutcome (op : CheckOp)
  /-- CHECK_FRAMES_EXPIRY (R329): A check not complete within CHECK_FRAMES fails with cause TIMEOUT. -/
  | checkFramesExpiry (op : AppVariantOp)
  /-- BASE_COUNTER_CLEAR (R340): A write clears the selected base-replacement counters. -/
  | baseCounterClear (op : EntryWrite)
  /-- KEY_SET (R356): KEY_SET installs a tenant's first key generation and generates its TDK. -/
  | keySet (op : KeyOp)
  /-- KEY_ROTATE (R361): KEY_ROTATE makes a new TRK current and keeps the old as previous. -/
  | keyRotate (op : KeyOp)
  /-- KEY_RETIRE (R361): KEY_RETIRE retires the previous key generation. -/
  | keyRetire (op : KeyOp)
  /-- KEY_REVOKE (R362): KEY_REVOKE revokes the tenant on every device holding it. -/
  | keyRevoke (op : KeyOp)
  /-- ROSTER (R355): ROSTER returns the roster entries of devices holding the tenant's key. -/
  | roster (op : KeyOp)
  /-- TENANT_ADD (R355): A write enrols a tenant ID with its enrolment code. -/
  | tenantAdd (op : TenantOp)
  /-- TENANT_REMOVE (R362): A write revokes a tenant. -/
  | tenantRemove (op : EntryWrite)
  /-- KEY_ROTATE_EXPIRY (R361): KEY_ROTATE_FRAMES after a rotation the previous generation is retired. -/
  | keyRotateExpiry (op : KeySlotOp)
  /-- SPDM_REQUEST (R350): An SPDM request is answered by the responder. -/
  | spdmRequest (op : SpdmOp)
  /-- IDE_KM (R373): An IDE_KM exchange sets the keys of a VF's IDE stream. -/
  | ideKm (op : IdeOp)
  /-- GET_VERSION (R374): TDISP GET_VERSION returns the supported version. -/
  | getVersion (op : VfOp)
  /-- GET_CAPABILITIES (R374): TDISP GET_CAPABILITIES returns the interface's capabilities. -/
  | getCapabilities (op : VfOp)
  /-- LOCK_INTERFACE (R374): TDISP LOCK_INTERFACE moves the VF to CONFIG_LOCKED. -/
  | lockInterface (op : VfOp)
  /-- GET_DEVICE_INTERFACE_REPORT (R374): TDISP returns the VF's interface report. -/
  | getDeviceInterfaceReport (op : VfOp)
  /-- GET_DEVICE_INTERFACE_STATE (R374): TDISP returns the VF's interface state. -/
  | getDeviceInterfaceState (op : VfOp)
  /-- START_INTERFACE (R374): TDISP START_INTERFACE moves the VF to RUN. -/
  | startInterface (op : VfOp)
  /-- STOP_INTERFACE (R374): TDISP STOP_INTERFACE returns the VF to CONFIG_UNLOCKED. -/
  | stopInterface (op : VfOp)
  /-- FUNCTION_LEVEL_RESET (R374): A Function Level Reset moves a VF in RUN to ERROR. -/
  | functionLevelReset (op : VfOp)
  /-- IDE_INTEGRITY_FAILURE (R374): An IDE integrity failure moves the VF to ERROR and stops its DMA. -/
  | ideIntegrityFailure (op : VfOp)
  /-- SCRUB_COMPLETE (R369): A frame scrub completes and the frame is given to its owner. -/
  | scrubComplete (op : ScrubOp)
  /-- DEBUG_POLICY (R380): A write changes the debug policy at the next edge. -/
  | debugPolicy (op : EntryWrite)
  /-- DEBUG_HALT (R381): A write makes the manager name a halt edge for the application. -/
  | debugHalt (op : EntryWrite)
  /-- DEBUG_STEP (R381): A write names an edge from which k frames run before the next halt. -/
  | debugStep (op : EntryWrite)
  /-- DEBUG_RESUME (R381): A write names an edge from which the halted application runs on. -/
  | debugResume (op : EntryWrite)
  /-- VIEW_REQUEST (R382): A view request returns an on-chip line or DDR granule in clear or ciphertext. -/
  | viewRequest (op : ViewOp)
  /-- MAKER_UNLOCK (R383): A maker unlock destroys key slots and the SWK and raises the unlock counter. -/
  | makerUnlock (op : EntryWrite)
  /-- SEC_COUNTER_CLEAR (R384): A write clears the selected security counters. -/
  | secCounterClear (op : EntryWrite)
  /-- OPEN (R390): An OPEN record starts a session and the device answers ACCEPT. -/
  | openSession (op : OpenOp)
  /-- PROOF (R391): A PROOF record is verified and the session opened or refused in RESULT. -/
  | proof (op : ProofOp)
  /-- READ (R400): A READ request returns bytes of entries, latching whole values up to 1 MiB. -/
  | read (op : ItemsOp)
  /-- WRITE (R397): A WRITE stores a value into an entry that has no behaviour of its own, after its checks. -/
  | write (op : ItemOp)
  /-- WRITE_MULTI (R398): A WRITE_MULTI is checked and applied whole or not at all. -/
  | writeMulti (op : ItemsOp)
  /-- WRITE_STAGED (R399): A WRITE_STAGED segment is staged, and the last segment applies the value as one write. -/
  | writeStaged (op : StagedOp)
  /-- SUBSCRIBE_START (R404): SUBSCRIBE starts NOTIFY records to the session. -/
  | subscribeStart (op : SesOp)
  /-- SUBSCRIBE_STOP (R404): SUBSCRIBE stops NOTIFY records to the session. -/
  | subscribeStop (op : SesOp)
  /-- CLOSE (R395): CLOSE ends the session. -/
  | closeSession (op : SesOp)
  /-- SESSION_IDLE_EXPIRY (R389): A session without records for SESSION_IDLE frames is closed. -/
  | sessionIdleExpiry (op : SessionOp)
  /-- AUTH_LOCK_EXPIRY (R392): A password lock's span ends and openings for the role are accepted again. -/
  | authLockExpiry (op : RoleOp)
  /-- SESSION_CLOSE (R389): A write closes one session or all but the caller's. -/
  | sessionClose (op : EntryWrite)
  /-- T1S_ENABLE (R402): A write enables or disables a 10BASE-T1S segment, dropping its sessions after the answer. -/
  | t1sEnable (op : SubWrite)
  /-- MAILBOX_ENABLE (R402): A write enables or disables the PCIe mailbox transport. -/
  | mailboxEnable (op : EntryWrite)
  /-- MAILBOX_DOORBELL (R401): A front-end rings the mailbox doorbell and the device takes the record in the request window. -/
  | mailboxDoorbell (op : MailOp)
  /-- INSTALLER_RESET (R393): A maker write returns the installer credential to the label state. -/
  | installerReset (op : EntryWrite)
  /-- ACCEPT_KEYS (R411): A staged write of the acceptance key list is verified and raises counter 1. -/
  | acceptKeys (op : BlobWrite)
  /-- DEFECT_RECORD (R411): A write of the signed defect record is verified, takes effect at the next start and clears the service list. -/
  | defectRecord (op : BlobWrite)
  /-- FACTORY_CAL (R411): A write of the signed calibration record is verified and takes effect at the next start. -/
  | factoryCal (op : BlobWrite)
  /-- SESSION_COUNTER_CLEAR (R410): A write clears the selected session counters. -/
  | sessionCounterClear (op : EntryWrite)
  /-- EVENT_FIRE (R415): An event source fires and moves to PENDING or coalesces. -/
  | eventFire (op : FireOp)
  /-- EVENT_TAKE (R417): The router writes a pending source's record to its target and the handler starts. -/
  | eventTake (op : TakeOp)
  /-- EOI (R415): A handler's EOI completes the source, which goes INACTIVE or is taken again. -/
  | eoi (op : EoiOp)
  /-- EVENT_ESCALATE (R416): Each AGE_LIMIT interval raises a pending source's effective level by one. -/
  | eventEscalate (op : EscalateOp)
  /-- FATAL (R421): FATAL writes a FAULT entry, reports to the manager and stops plans until reset. -/
  | fatal (op : FatalOp)
  /-- SOURCE_REG (R413): A write of a source register takes effect at the next edge. -/
  | sourceReg (op : ArrayWrite)
  /-- DOORBELL_TAIL (R423): A producer doorbell moves a ring's TAIL after its check. -/
  | doorbellTail (op : DoorbellOp)
  /-- DOORBELL_HEAD (R423): A consumer doorbell moves a ring's HEAD after its check. -/
  | doorbellHead (op : DoorbellOp)
  /-- RING_SERVICE (R425): Firmware takes the next intake, completion or event ring by level and age. -/
  | ringService (op : RingServiceOp)
  /-- SCRUB_ESCALATE (R426): Every SCRUB_AGE frames of waiting reservations moves the scrub one place earlier. -/
  | scrubEscalate (op : AtOp)
  /-- EVENT_COUNTER_CLEAR (R433): A write clears the selected event counters. -/
  | eventCounterClear (op : EntryWrite)
  /-- ASH_CLEAR_FIRST_FAULT (R433): A write empties the FIRST_FAULT region. -/
  | ashClearFirstFault (op : EntryWrite)
  /-- ASH_CLEAR_SUPPRESSED (R433): A write clears ASH_SUPPRESSED. -/
  | ashClearSuppressed (op : EntryWrite)
  /-- POWER_GOOD (R434): The input holds at or above 32 V for 10 ms with D80 in regulation and kindling begins. -/
  | powerGood (op : PowerGoodOp)
  /-- K0_COMPLETE (R440): Mask ROM checks, PUF and identity unwrap end and firmware is loaded. -/
  | k0Complete (op : K0Op)
  /-- K1_COMPLETE (R440): Die-to-die, memory and port training end. -/
  | k1Complete (op : K1Op)
  /-- MEMORY_TRAINING_DEADLINE (R441): A channel not trained by 2.20 s is FAILED and its die group disabled. -/
  | memoryTrainingDeadline (op : ChannelsOp)
  /-- HEARTH_WAVE (R443): Every 50 ms the next wave of Hearths is powered under a current ramp limit. -/
  | hearthWave (op : StageOp)
  /-- PROOF_STROKE_COMPLETE (R444): Known-answer tests end and failing units are marked. -/
  | proofStrokeComplete (op : ProofStrokeOp)
  /-- READY (R440): K3 commits maps, publishes the Capacity Table, starts the frame timer and enters READY. -/
  | ready (op : StageOp)
  /-- RECOVERY_IMAGE (R349): The recovery loader receives an image, checks it, writes CANDIDATE and restarts. -/
  | recoveryImage (op : ImageOp)
  /-- CLOCK_STEP_UP (R438): 64 cool frames raise hclk one step. -/
  | clockStepUp (op : AtOp)
  /-- ADMISSION_RESUME (R438): 64 cool frames at the floor resume admission. -/
  | admissionResume (op : AtOp)
  /-- THERMAL_TRIP (R438): A sensor reaching TJ_TRIP fires FATAL and removes all but D80, D81 and D84. -/
  | thermalTrip (op : TempOp)
  /-- POWER_LIMIT (R437): A write of the power limit sets a new floor at a named edge or is refused. -/
  | powerLimit (op : EntryWrite)
  /-- HEARTH_FAULT (R449): An uncorrectable Hearth error fault-resets the Hearth, marks it OUT and plans its spare. -/
  | hearthFault (op : HearthOp)
  /-- SPARE_RELOAD_DONE (R449): A spare's proof stroke and reload complete so plans may use it. -/
  | spareReloadDone (op : HearthOp)
  /-- DOMAIN_FAULT (R436): A regulator fault puts a domain in FAULT and its units are handled as failed. -/
  | domainFault (op : DomainOp)
  /-- RETRAIN_CHANNEL (R452): A write starts in-service retraining of a die group's channels or is refused. -/
  | retrainChannel (op : EntryWrite)
  /-- CHANNEL_ERROR_THRESHOLD (R452): Corrected errors reaching the threshold in 1,024 frames start an automatic retraining. -/
  | channelErrorThreshold (op : CorrectedOp)
  /-- CHANNEL_RETRAIN_DONE (R452): A drained group's channels finish retraining and the group returns or is disabled. -/
  | channelRetrainDone (op : RetrainOp)
  /-- RESET_HEARTH (R454): An ordered reset of one Hearth. -/
  | resetHearth (op : EntryWrite)
  /-- RESET_CLUSTER (R454): An ordered reset of one cluster. -/
  | resetCluster (op : EntryWrite)
  /-- RESET_PARTITION (R454): An ordered reset of one partition. -/
  | resetPartition (op : EntryWrite)
  /-- RESET_DEVICE_WARM (R454): An ordered warm device reset keeping DDR in self-refresh. -/
  | resetDeviceWarm (op : EntryWrite)
  /-- RESET_DEVICE_COLD (R454): An ordered cold device reset removing every domain. -/
  | resetDeviceCold (op : EntryWrite)
  /-- RESET_DRAIN_COMPLETE (R455): A unit's drain completes and its reset proper begins. -/
  | resetDrainComplete (op : ScopeOp)
  /-- WATCHDOG_EXPIRY (R453): A control-processor watchdog expires and fault-resets its partition or the device. -/
  | watchdogExpiry (op : CpOp)
  /-- SERVICE_DRAIN_EXPIRY (R458): After SERVICE_DRAIN_FRAMES remaining requests end SERVICE_STOPPED. -/
  | serviceDrainExpiry (op : AtOp)
  /-- MODULE_PRESENT_CHANGE (R468): A pluggable module inserted or removed is handled as a cable plugged or pulled. -/
  | modulePresentChange (op : ModuleOp)
  /-- POWER_COUNTER_CLEAR (R460): A write clears the selected power and reset counters. -/
  | powerCounterClear (op : EntryWrite)
  /-- COPYBOOK_LOAD (R3): A copybook is loaded for an application, checked against the Capacity Table and refused CAPACITY_EXCEEDED or loaded, seeding stream records and resident weights. -/
  | copybookLoad (op : LoadOp)
  /-- UNIT_RESET_COMPLETE (R454): The reset proper of a Hearth, cluster or partition ends, absorption stops and the unit begins its return under R451. -/
  | unitResetComplete (op : UnitBackOp)
  /-- UNCORRECTABLE_LOGIC_ERROR (R453): An uncorrectable error in a cluster's or partition's own logic starts a fault reset of that unit at once. -/
  | uncorrectableLogicError (op : ScopeOp)
  /-- DIMM_SUPPLY_LOSS (R475): A DIMM's own supply lost in service is handled as a failure of its channel. -/
  | dimmSupplyLoss (op : ChannelOp)
  /-- RESPONSE_RETURN (R189): A response returned over Ligature reaches the intake device, which sends it by the carriage on which the envelope arrived. -/
  | responseReturn (op : ReturnOp)
  /-- VF_CONFIGURATION_CHANGE (R374): A change to a VF's rings or MMIO configuration moves a VF in RUN to ERROR and stops its DMA. -/
  | vfConfigurationChange (op : VfOp)
  /-- LOSS_OF_INPUT (R439): The rail below 30 V for 2 µs stops issue and starts the shutdown sequence. -/
  | lossOfInput
  /-- GASP_COMPLETE (R431): GASP_HEAD is written, validating the gasp, and the remaining domains are removed. -/
  | gaspComplete
  /-- OVERVOLTAGE (R474): VIN above 42 V for 10 µs opens the input switch and proceeds as a loss of input. -/
  | overvoltage
  /-- INPUT_SWITCH_CLOSE (R474): VIN within range for 100 ms closes the input switch again. -/
  | inputSwitchClose
  /-- SERVICE_REQ (R458): SERVICE_REQ# held 100 ms starts or cancels the service drain. -/
  | serviceReq
  /-- COLD_RST (R471): COLD_RST# held low 1 ms orders a cold device reset. -/
  | coldRst
  /-- COLD_RST_RELEASE (R471): COLD_RST# rising starts kindling again from power-good. -/
  | coldRstRelease
  /-- PE_PERST_ASSERT (R466): PE_PERST# low after READY resets the PCIe endpoint alone. -/
  | pePerstAssert
  /-- PE_PERST_RELEASE (R466): PE_PERST# rising lets PCIe link training begin. -/
  | pePerstRelease
  /-- SYSCLK_PRESENT (R470): SYSCLK appears after being absent at power-good and kindling leaves its wait in K0. -/
  | sysclkPresent
  deriving DecidableEq, Repr

end Sys2Proof
end

