-- ==== Sys2Proof/Config.lean ====
section
/-!
DEFINITION. What the manual leaves to standards outside it or leaves open: free values (no body, so that no proof can
see them) and the cryptographic functions it names by reference.
-/
namespace Sys2Proof

/-- A value the manual calls undefined after an operation that the device survives (R33, R55, R108): the n-th free byte. -/
opaque Config.freeByte : Nat → BitVec 8
/-- The n-th free 32-bit word (an accumulator element, a vector lane, a drawn nonce word). -/
opaque Config.freeWord : Nat → BitVec 32
/-- The n-th free natural number, for values the manual leaves open without a width. -/
opaque Config.freeNat : Nat → Nat
/-- SHA-512 (FIPS 180-4, named by R343, R406, R444): the manual does not restate it (DESIGN CHOICE: log entry 116). -/
opaque Config.sha512 : List (BitVec 8) → List (BitVec 8)
/-- HMAC-SHA-512 of a key over a message (R360, R390). -/
opaque Config.hmac512 : List (BitVec 8) → List (BitVec 8) → List (BitVec 8)
/-- AES-256 block encryption of a 16-byte block under a 32-byte key (R205's generator does not use it; R365 and R366 do). -/
opaque Config.aes256 : List (BitVec 8) → List (BitVec 8) → List (BitVec 8)

/-- AES-256-XTS (IEEE 1619) of a data unit under 64 bytes of keys and a tweak (R365, R382). -/
opaque Config.xts : List (BitVec 8) → Nat → List (BitVec 8) → List (BitVec 8)
/-- GHASH (NIST SP 800-38D) under a hash key (R366). -/
opaque Config.ghash : List (BitVec 8) → List (BitVec 8) → List (BitVec 8)
/-- AES-256 key wrap (RFC 3394) of a key record under the system wrapping key (R357): 8 bytes longer than what it wraps. -/
opaque Config.keyWrap : List (BitVec 8) → List (BitVec 8) → List (BitVec 8)
/-- The direction byte of the counter blocks that this device sends under (R372), whose value the manual does not give. -/
opaque Config.linkDirection : BitVec 8
/-- The shared secret of an ephemeral secp384r1 key pair of this device, named by a number it draws, and a peer's public key (R390). -/
opaque Config.ecdh : Nat → List (BitVec 8) → List (BitVec 8)
/-- An RSA-PSS signature under the device identity key (R343, R390). -/
opaque Config.identitySign : List (BitVec 8) → List (BitVec 8)
/-- The installer's salt and verifier for the password printed on the module label, from the maker record (R393). -/
opaque Config.labelVerifier : List (BitVec 8)
/-- The storage key that the PUF response gives this device (R344, R363). -/
opaque Config.pufKey : List (BitVec 8)

/-- What the maker record says of this module: its serial number, the stepping of its dies, the MAC addresses of L00 and L01, its
identity certificate (R408, R401, R343) (DESIGN CHOICE: log entry 117). -/
opaque Config.serial : List (BitVec 8)
opaque Config.stepping : Nat
opaque Config.mac : Nat → Nat
opaque Config.identityCert : List (BitVec 8)
/-- The bytes of a wiring map, whose layout the manual does not give (R290). -/
opaque Config.mapBytes : List Nat → List (BitVec 8)

end Sys2Proof
end

