-- ==== Sys2Proof/Machine/State.lean ====
section
/-!
DEFINITION. The state of the AXM-256 as plain data: one structure a chapter of the manual, the device that holds them,
what survives a cold start, the queue of waiting commands, and the machine right after reset.
-/
namespace Sys2Proof.Machine
open Sys2Proof

/-- Why the machine stops with a fault. -/
inductive Fault where
  /-- Raised by every command that names a Hearth, cluster, partition, port, channel or other unit number outside the
  device's range (R2, R38, R267): such a unit does not exist. Safe: the model stops where no hardware exists. -/
  | noSuchUnit
  deriving DecidableEq, Repr

/-- Why the machine has no meaning for a command. -/
inductive Refusal where
  /-- Raised by an arm of Dispatch.lean that has no meaning yet. Safe: the model stops. -/
  | notModelled (mnemonic : String)
  deriving DecidableEq, Repr

/-- Dictionary value types (R386). -/
inductive EType where
  | bool | u8 | u16 | u32 | u64 | i32 | f32 | bytes (n : Nat) | str | array
  deriving DecidableEq, Repr

/-- Access codes (R387). -/
inductive Access where
  | ro | wo | rw | w1c
  deriving DecidableEq, Repr

/-- The qualifiers of an access code (R387): none, "(manager)", "(RO on worker)". -/
inductive MgrRule where
  | any | managerOnly | roOnWorker
  deriving DecidableEq, Repr

/-! ## Frames and the tick (R12 to R37) -/

/-- TICK_STATE (0x1002.00), R16. -/
inductive TickState where
  | locked | holdover | realigning | expired
  deriving DecidableEq, Repr

/-- Where a frame task of the plan in force stands. -/
inductive TaskStatus where
  /-- Planned, or running: its stream may issue its descriptors. -/
  | live
  /-- Every descriptor completed. -/
  | done
  /-- Late (R32). -/
  | late
  /-- Failed (R64). -/
  | failed
  /-- Its hand-off had not arrived by the edge (R35). -/
  | absent
  deriving DecidableEq, Repr

/-- A task of the plan in force and how far it has come: descriptors issued and completed on each engine (the key is the
engine; 4,096 for the sequencer itself). -/
structure Task where
  plan : TaskPlan
  status : TaskStatus
  issued : Table Nat
  completed : Table Nat
  /-- Engines whose window has closed. -/
  closed : List Nat
  /-- Its contributions have been written to the leaf area (R307). -/
  taken : Bool
  /-- Counted in WINDOW_OVERRUN (R37). -/
  overrun : Bool
  /-- The descriptors issued, in ring order: the engine, and whether the descriptor depends on no state that an earlier one of
  the task left in an engine (R32). -/
  order : List (Nat × Bool)
  /-- The ring index of its first descriptor. -/
  start : Nat
  deriving DecidableEq, Repr

/-- Housekeeping work that waits to be planned again (R32, R64): the frame and the id it was planned under, its task, its command
ring and the index of its first descriptor there, what of it was issued, in ring order, and what completed on each engine. -/
structure Carry where
  frame : Nat
  id : Nat
  plan : TaskPlan
  ring : Nat
  start : Nat
  order : List (Nat × Bool)
  completed : Table Nat
  deriving DecidableEq, Repr

/-- A sequencer stream (R48): its command ring, the tasks planned on it in order, and its held mark (R61: the tile and the engine). -/
structure Stream where
  ring : Nat
  tasks : List Nat
  held : Option (Nat × Nat)
  /-- HEAD of its ring at plan release; each task's first descriptor lies at its slot from there. -/
  base : Nat
  deriving DecidableEq, Repr

/-- The frame. -/
structure FrameS where
  /-- FRAME_NO (R18). -/
  no : Nat
  /-- hclk from the tick edge, and hclk from the start of the clock to that edge. -/
  off : Nat
  base : Nat
  tick : TickState
  /-- Frames run in HOLDOVER one after another (R16). -/
  holdRun : Nat
  /-- The next edge is placed on the own frame timer for want of a tick (R16). -/
  timer : Bool
  /-- Edge error in ps as last measured (R16), less what the edge has been moved by since. -/
  error : Int
  /-- hclk by which this frame's guard band is longer (R16: realignment). -/
  guardAdj : Int
  /-- The FRAME_NO that the tick message of the edge that began this frame announced (R13), and the one that came ahead of this
  device's next edge. -/
  announced : Option Nat
  announcedNext : Option Nat
  /-- A worker has taken the manager's number from a first tick (R18). -/
  adopted : Bool
  /-- Past the admission cut-off; in the guard band. -/
  cut : Bool
  guard : Bool
  /-- The plan built in this frame for the next (R27); whether the planner completed it. -/
  next : Option Plan
  /-- The plan in force: its tasks by id, streams, and tile assignments. -/
  tasks : Table (Option Task)
  streams : Table Stream
  tiles : Table Nat
  /-- FRAME streams that the plan's tasks write or read (R85). -/
  numStreams : List Nat
  /-- Housekeeping tasks of this frame that were carried (R32), and those that failed and are queued again (R64). -/
  carried : List Nat
  again : List Nat
  /-- Work of earlier frames to be planned again, and where it resumes. -/
  carry : List Carry
  /-- Sequences whose late tokens are planned again (R32). -/
  retry : List Nat
  /-- Micro-batches of the plan in force (R178), and training chunks that slipped, each with the frame its schedule names and its rows
  (R225). -/
  batches : List Batch
  slipped : List (ChunkRef × Nat × Nat)
  /-- Increments of this frame for the OVERRUN report: 4·partition + (late decode, late training, carry, overrun) (R37). -/
  inc : Table Nat
  /-- Partitions for which this frame's lateness raises OVERRUN (R37). -/
  overrun : List Nat
  /-- Channels that recalibrate in this frame, with the offsets at which each begins (R121). -/
  recals : List (Nat × Nat)
  /-- The last PPS_IN edge of this frame (R17): its time in TAI ns and its offset. -/
  pps : Option (Nat × Nat)
  /-- TICK_IN has risen for the edge that began this frame, and for the next one (R15, R16). -/
  tickIn : Bool
  tickInNext : Bool
  deriving DecidableEq, Repr

/-! ## Hearths: arrays, tiles, Ductus (R38 to R71, R97 to R116) -/

/-- A matrix descriptor issued to an array and how far it has come: its tile step and the pass (0 to 2 narrow, 3 wide). -/
structure MatOp where
  /-- Place in the Hearth's order of issue. -/
  seq : Nat
  desc : BitVec 256
  task : Nat
  stream : Nat
  /-- Executes in lockstep with the other array (R68). -/
  paired : Bool
  step : Nat
  pass : Nat
  /-- This step's final pass is promoted and the partner's is not yet. -/
  ready : Bool
  /-- The operand blocks of the tile step in progress, read once for all its passes: rows of element codes (R56). -/
  blkA : Option (List (List Nat))
  blkB : Option (List (List Nat))
  /-- The row and column scales, read once (R53). -/
  scales : Option (List Word × List Word)
  /-- The last promoted tile step, its final pass and its blocks: for HOLD (R67) and the Tracer (R94). -/
  last : Option (Nat × Nat × List (List Nat) × List (List Nat))
  deriving DecidableEq, Repr

/-- A block left in an operand buffer (R67): rows of element codes along K. -/
structure HeldBlock where
  fmt : Nat
  elems : List (List Nat)
  deriving DecidableEq, Repr

/-- One array: what it executes and has staged, and the held block. -/
structure ArrayS where
  queue : List MatOp
  held : Option HeldBlock
  deriving DecidableEq, Repr

/-- One accumulator tile (R59, R60, R66): its owner's command ring and task, its DRAINING and HELD marks, its elements under
128·i + j. -/
structure TileS where
  owner : Option Nat
  task : Nat
  draining : Bool
  held : Bool
  acc : Table Word
  deriving DecidableEq, Repr

/-- What a beat of a Ductus descriptor adds to the quantise tally (R112): saturations, NaN events, and the largest d plus 129 (0: none). -/
structure BeatMark where
  beat : Nat
  sat : Nat
  nan : Nat
  dmax : Nat
  deriving DecidableEq, Repr

/-- A Ductus descriptor not yet complete (R107): the offset of its issue; once started, the offsets of its first and last beat,
whether the last has entered S0, and its memory writes and tally marks still to be done. -/
structure DuctOp where
  seq : Nat
  desc : BitVec 512
  task : Nat
  stream : Nat
  issued : Nat
  started : Bool
  first : Nat
  last : Nat
  entered : Bool
  writes : List (Nat × Byte)
  marks : List BeatMark
  deriving DecidableEq, Repr

/-- One entry of the array tally (R58) and of the quantise tally (R112) for an NTAG. The largest d is held plus 129; 0: none. -/
structure Tally where
  rep1 : Nat
  rep2 : Nat
  wide : Nat
  sat : Nat
  nan : Nat
  dmax : Nat
  deriving DecidableEq, Repr

/-- The Hearths: arrays 2h + a, tiles 16h + 8a + t, Ductus queues h, vector registers 32h + v (lane to word), the tally
256h + NTAG, and the scale latch of h (its RS_ADDR, and the scales). -/
structure HearthS where
  nextSeq : Nat
  arrays : Table ArrayS
  tiles : Table TileS
  ductus : Table (List DuctOp)
  vregs : Table (Table Word)
  tally : Table Tally
  latch : Table (Option (Nat × List Word))
  deriving DecidableEq, Repr

/-! ## The Damper and the Tracer (R84 to R96) -/

/-- Evidence of a stream step (R86): repeats and saturations, and the largest d (plus 129; 0: none). -/
structure Evidence where
  ovf : Nat
  dmax : Nat
  /-- The stream's turn (its count of causes, R89) when the step was planned, and whether it was planned cold. -/
  era : Nat
  cold : Bool
  /-- The step has closed and its evidence is with the Damper (R85, R112). -/
  handed : Bool
  /-- The training step that a step of TRAINING_STEP granularity is: its job (2^32·key slot + JOB_ID) plus one, and its number (R85). -/
  tag : Nat × Nat
  deriving DecidableEq, Repr

/-- The scale parameters pinned into a task's quantise descriptors (R88, R110): the mode, h, D and FLOOR. -/
structure Pin where
  exact : Bool
  h : Nat
  spread : Nat
  floor : Nat
  deriving DecidableEq, Repr

/-- HEADROOM_MAX, BUMP_STEPS, COLD_STEPS, COLD_HEADROOM, SPREAD_DECAY and NUM_SEED as they stood at a partition's last copybook
load (R96). -/
structure Limits where
  hrMax : Nat
  bumpSteps : Nat
  coldSteps : Nat
  coldHr : Nat
  decay : Nat
  seed : Nat
  deriving DecidableEq, Repr

/-- Stream records under 1,024·partition + stream (R84), the two retained of training streams (R88), evidence of planned and
unclosed stream steps, the map from tally slots (256h + NTAG) to stream and task, Tracer statistics. -/
structure NumS where
  records : Table (BitVec 128)
  retained : Table (List (BitVec 128))
  steps : Table (List Evidence)
  /-- How often each stream has turned cold (the model's bookkeeping for R89's discarding of earlier evidence). -/
  eras : Table Nat
  tallyMap : Table (Nat × Nat)
  trace : Table TraceStat
  /-- TRACER_RATE_LOG in force for the frame, and for the plan being built; none: TRACER_ENABLE was 0 (R96). -/
  rate : Option Nat
  rateNext : Option Nat
  /-- Pinned parameters by tally slot, for the frame and for the plan being built, and those of late decode tokens by sequence and
  stream (R88). -/
  pins : List (Nat × Pin)
  pinsNext : List (Nat × Pin)
  kept : List (Nat × Nat × Pin)
  limits : Table Limits
  deriving DecidableEq, Repr

/-! ## Memories, transfers, semaphores (R117 to R153) -/

/-- A transfer in a cluster's engine (R143, R144). -/
structure Xfer where
  desc : BitVec 512
  task : Nat
  stream : Nat
  part : Nat
  cursor : Nat
  /-- The state code of R144. -/
  st : Nat
  cause : Nat
  dva : Nat
  /-- The ring slot of the present index has been taken from EMPTY or FULL (R135). -/
  inSlot : Bool
  /-- Bytes of the outgoing remote slot so far, by offset (R137). -/
  slotBuf : Table Byte
  /-- Remote granules received for it, acknowledged writes, and requests still out (tag) (R128, R280). -/
  got : List (Nat × List Byte)
  acked : List Nat
  waits : List Nat
  /-- The destination bytes from the cursor on that its remote writes under way carry (R143). -/
  run : List Byte
  /-- The Inkwell slot it fills (R172). -/
  fill : Option Nat
  /-- The frame its task was planned for. -/
  frame : Nat
  /-- HEAD of its stream's ring at its issue; where HEAD goes when a fault is resumed (R146). -/
  head : Nat
  ahead : Nat
  deriving DecidableEq, Repr

/-- A stream's resume record (R144). -/
structure ResumeRec where
  cursor : Nat
  st : Nat
  cause : Nat
  dva : Nat
  tag : Nat
  deriving DecidableEq, Repr

/-- A migration under way (R129): phase 0 waits for the first TLB_INVAL, 1 copies, 2 waits for the second. -/
structure Migration where
  app : Nat
  page : Nat
  src : Nat
  dst : Nat
  phase : Nat
  /-- Devices of the application that have done their part of this phase, where the frame is exported. -/
  acks : List Nat
  deriving DecidableEq, Repr

/-- A migration on another device of a frame that this device's entries name (R129): that device, its frames, and the phase whose
TLB_INVALs are under way. -/
structure Importing where
  device : Nat
  src : Nat
  dst : Nat
  phase : Nat
  deriving DecidableEq, Repr

/-- A request to another device without its answer (R280): tag, device, granule address, the cluster whose transfer waits, and
the hclk count at which it was sent; the granule of device virtual address (DVA / 256) it stands for. -/
structure RemoteWait where
  tag : Nat
  key : Nat
  device : Nat
  addr : Nat
  write : Bool
  cluster : Nat
  sent : Nat
  deriving DecidableEq, Repr

/-- A run of SRAM lines with one owner (R370): the Well of logical Hearth `unit`, or the Inkstone of cluster `unit`; bytes
[lo, hi); owner 0: the application, k + 1: tenant key slot k. -/
structure LineRun where
  well : Bool
  unit : Nat
  lo : Nat
  hi : Nat
  owner : Nat
  deriving DecidableEq, Repr

/-- An arriving remote ring slot (R281): ring name, stamp, segments got by index. -/
structure InSlot where
  cluster : Nat
  ring : Nat
  stamp : Nat
  count : Nat
  segs : Table (List Byte)
  deriving DecidableEq, Repr

/-- A Peat page reserved for a training step (R152): its job (2^32·key slot + JOB_ID), step, application and page. -/
structure PeatUse where
  job : Nat
  step : Nat
  app : Nat
  page : Nat
  deriving DecidableEq, Repr

/-- A channel's DIMM and training (R119 to R121). -/
structure MemS where
  /-- Wells: h × 2^22 + offset; Inkstones: c × 2^25 + offset; DDR: PFN × 2^21 + offset. -/
  well : Table Byte
  ink : Table Byte
  ddr : Table Byte
  /-- Owner of a frame: 0 not given, 1 device-owned, k + 2 key slot k (R364, R369); per granule where a whole granule was
  written under another key. -/
  frameOwner : Table Nat
  granOwner : Table Nat
  /-- Accesses of a tenant's pages that met an uncorrectable granule in this frame: application, address, key slot (R375). -/
  dataLost : List (Nat × Nat × Nat)
  /-- Page versions by frame, and what each group's retrainings add to all of its versions (R367, R452). -/
  pageVersion : Table Nat
  groupVersion : Table Nat
  /-- Granules that read uncorrectable: poisoned, or failed (R129, R145). -/
  bad : List Nat
  /-- Version-tree lines that failed, as runs of frames [lo, hi) (R367). -/
  treeBad : List (Nat × Nat)
  /-- Level-1 entries, app × 2^18 + index; level-2 entries by address, table address ÷ 4,096 × 512 + index: in force; and changes to
  valid entries not yet in force, by app × 2^27 + page (R124, R127). -/
  level1 : Table (BitVec 64)
  ptes : Table (BitVec 64)
  pteNext : Table (Option (BitVec 64))
  /-- Pages each cluster's TE has cached, newest first, at most 512. -/
  tlb : Table (List Nat)
  /-- TLB_INVALs not yet complete: partition and DVA range. -/
  invals : List (Nat × Nat × Nat)
  migrations : List Migration
  importing : List Importing
  /-- Frame export table: PFN to system application number; that number by application (R128). -/
  exports : Table Nat
  sysApp : Table Nat
  /-- Semaphores c × 1,024 + n, and those poisoned (R130). -/
  sems : Table Nat
  poison : Table Nat
  /-- Buffer rings c × 64 + r (R134), and the stamps of accepted remote slots waiting in them (R137). -/
  brings : Table (BitVec 128)
  stamps : Table (List Nat)
  /-- Transfers of cluster c: executing and staged; carried housekeeping transfers; resume records by stream. -/
  te : Table (List Xfer)
  carriedX : Table (List Xfer)
  resume : Table ResumeRec
  remote : List RemoteWait
  nextTag : Nat
  inSlots : List InSlot
  /-- Owners of SRAM lines under the plan in force, and the copybook's exempt regions: RESIDENT and CONTROL (R370, R371). -/
  lines : List LineRun
  resident : List LineRun
  control : List LineRun
  /-- Installed DIMMs in GiB by channel (0: none), usable frames by group, last recalibration by channel. -/
  dimm : Table Nat
  usable : Table Nat
  recal : Table Nat
  /-- Corrected errors of the last 1,024 frames, by channel: frame and count (R452). -/
  corrWindow : Table (List (Nat × Nat))
  /-- Application of a partition: its lowest partition plus 1; 0: none. -/
  appOf : Table Nat
  /-- Peat regions by application: base, size; and their pages that training steps have reserved (R152). -/
  peat : Table (Nat × Nat)
  peatUsed : List PeatUse
  deriving DecidableEq, Repr

/-! ## Variants and the Inkwell (R154 to R182) -/

/-- A queued fill (R172): its slot, and whether it is CARRIED. -/
structure Fill where
  slot : Nat
  carried : Bool
  deriving DecidableEq, Repr

/-- A bind in progress (R169): it waits for a slot, or for any DRAINING slot of its tenant, to be FREE. -/
structure Bind where
  use : Use
  variant : Nat
  key : Nat
  app : Nat
  /-- The slot it waits for; none: any DRAINING slot of the tenant. It has evicted that slot and claims it (R169). -/
  wait : Option Nat
  claims : Bool
  deriving DecidableEq, Repr

/-- The last answer of the slot-table unit (R166). -/
inductive SlotAnswer where
  | ok | none | found (slot gen state : Nat) | exists_ (slot gen : Nat) | reserveFull | lost
  deriving DecidableEq, Repr

/-- The Inkwell: slots by number (R164), reserves by 4,096·application + key slot (R168), fills, binds and their outcomes. -/
structure InkS where
  slots : Table (BitVec 128)
  reserve : Table Nat
  fills : List Fill
  /-- Key slot last served by fills, by application (R172). -/
  served : Table Nat
  binds : List Bind
  /-- Bound slots and their generations; refused uses with their code. -/
  bound : List (Use × Nat × Nat)
  refused : List (Use × Nat)
  answer : SlotAnswer
  /-- Slots whose last fill failed for good since the last edge (R172). -/
  failed : List Nat
  /-- UNPINs due at the next edge (R170). -/
  unpins : List (Nat × Nat)
  /-- Fill windows of this frame (R172): 64·application + window to slot + 1; the halves that a slot's fill writes (1: A, 2: B);
  its copies that have completed: cluster and descriptor. -/
  windows : Table Nat
  halves : Table Nat
  fillDone : Table (List (Nat × BitVec 512))
  /-- FILL_RETRIES and PARK_LIMIT as the last plan was built with them (R182). -/
  retries : Nat
  parkLimit : Nat
  /-- The registry by VARIANT_ID. -/
  recs : Table (Option VarRec)
  /-- Registrations held unanswered during a base replacement (R325), with their key slots; `true`: a replacement. -/
  heldRegs : List (RegOp × Nat × Bool)
  deriving DecidableEq, Repr

/-! ## Applications (R3, R480) -/

/-- A loaded application, under its lowest partition. -/
structure App where
  book : Copybook
  place : Placement
  /-- Placement to take force at a topology edge. -/
  placeNext : Option Placement
  /-- No plan of it is released: halted (R381), under restore (R262), or its device set is broken (R317). -/
  stopped : Bool
  /-- GENERATE requests are held, uncounted: the switch fence and the reload (R331, R333). -/
  fence : Bool
  deriving DecidableEq, Repr

/-! ## The generation path (R183 to R211) -/

/-- How far a request has come. -/
inductive ReqStage where
  /-- Waiting for admission; the code of the pending check it fails, 0 before its first check. -/
  | queued (code : Nat)
  /-- Passed checks 1 to 6 at a cut-off and waiting for its slot (R169). -/
  | binding
  /-- Decided: ADMITTED (1) or a refusal, to apply at the next edge (R196). -/
  | decided (code : Nat)
  | active
  /-- Ends with a status at the next edge (R197, R201). -/
  | ending (code : Nat)
  deriving DecidableEq, Repr

/-- A generation request (R191) and its sequence. -/
structure GenReq where
  slot : Nat
  tenant : Nat
  id : Nat
  keyGen : Nat
  app : Nat
  source : Nat
  reply : Nat
  origin : Nat
  /-- The sequence handle of R200. -/
  handle : Nat
  /-- The first device of its chain. -/
  holder : Nat
  variant : Nat
  maxNew : Nat
  prompt : List Nat
  temp : Word
  topK : Nat
  topP : Word
  stops : List Nat
  seed : Nat
  streamFrames : Nat
  /-- The payload breaks R192, and the code it is refused with; 0: none. -/
  bad : Nat
  /-- SK (R206). -/
  sk : Nat
  arrived : Nat
  /-- The entry still lies on its intake ring (R424). -/
  onRing : Bool
  /-- Frames it has counted towards ADMIT_WAIT. -/
  waited : Nat
  stage : ReqStage
  phase : Nat
  /-- Its place in the order of admission (R178). -/
  order : Nat
  /-- Blocks reserved on this device, where its block table lies, and the table: one list a held layer (R204). -/
  reserved : Nat
  tableAt : Option Nat
  blocks : List (List Nat)
  /-- Rows appended so far; tokens generated, with the frames they were sampled in; how many of them are reported. -/
  rows : Nat
  out : List (Nat × Nat)
  reported : Nat
  /-- Devices that have not answered whether they have bound a slot (R195); devices whose slot has not been reported LIVE (R171). -/
  asked : List Nat
  waiting : List Nat
  parked : Nat
  /-- A CANCEL has arrived; an admission cut-off has passed since (R197). -/
  cancel : Bool
  cancelSeen : Bool
  first : Nat
  /-- Rows planned for the frame, and the sample of this frame is taken. -/
  planned : Nat
  sampled : Bool
  /-- Log2 probabilities of its generated tokens, of a rollout at the last stage (R218). -/
  lps : List Word
  /-- A rollout of a training job: job, step, group, index (R218); it is reported to the job, not to a tenant. -/
  rollout : Option (Nat × Nat × Nat × Nat)
  deriving DecidableEq, Repr

/-- An envelope under reassembly (R187). -/
structure Reasm where
  tenant : Nat
  id : Nat
  started : Nat
  count : Nat
  reply : Nat
  port : Nat
  segs : Table (List Byte)
  deriving DecidableEq, Repr

/-- An entry of a replay filter (R186): REQUEST_ID, NOT_AFTER, and whether its CANCEL has been accepted. -/
structure Replay where
  id : Nat
  notAfter : Nat
  cancelled : Bool
  /-- It went on to the first device of another chain (R189). -/
  away : Bool
  deriving DecidableEq, Repr

/-- Requests, shares (4,096·application + key slot), responses, replay filters and reassembly. -/
structure GenS where
  apps : Table (Option App)
  reqs : List GenReq
  tokenShare : Table Nat
  prefillShare : Table Nat
  kvQuota : Table Nat
  /-- Free key/value blocks: DVAs by 4,096·application + key slot (R204). -/
  kvFree : Table (List Nat)
  resps : List Resp
  filters : Table (List Replay)
  reasm : List Reasm
  /-- Envelopes whole after reassembly that the intake unit has not taken: port, reply route, bytes. -/
  ready : List (Nat × Nat × List Byte)
  /-- Envelopes forwarded to this device that are still to be served: the entry's envelope, its key slot, its payload (R189). -/
  opened : List (Env × Nat × List Byte)
  /-- Binds that the first device of a chain has asked for (R195, R237), until they are answered. -/
  asks : List Use
  /-- Responses sent for a REQUEST_ID, by 2^192·key slot + REQUEST_ID, once its request has ended (R184). -/
  sent : Table Nat
  /-- Other devices that drain for service while they host an application (R458): application, device, its epoch then. -/
  serviced : List (Nat × Nat × Option Nat)
  /-- Rollouts that ended at an edge, for their jobs (R218). -/
  ended : List GenReq
  /-- Sequences admitted so far (R178). -/
  admitted : Nat
  deriving DecidableEq, Repr

/-! ## Training (R212 to R238) -/

/-- An evaluation (R236). -/
structure Eval where
  slot : Nat
  id : Nat
  app : Nat
  variant : Nat
  answer : Resp
  probes : Nat
  seqs : List Sched
  since : Nat
  /-- Devices that have not answered whether they hold its pin (R237). -/
  asked : List Nat
  deriving DecidableEq, Repr

/-- A Scribe task (R239, R244): planned at a cut-off, running from the next edge; and what it waits for has been counted. -/
structure ScribeTask where
  notice : CommitNotice
  planned : Bool
  running : Bool
  heldCounted : Bool
  limitCounted : Bool
  deriving DecidableEq, Repr

/-! ## The reductions of this device (R300 to R316) -/

/-- A contribution held: target, leaf position (child index above level 0), first element and values. -/
structure Leaf where
  target : Nat
  pos : Nat
  elem : Nat
  vals : List Word
  deriving DecidableEq, Repr

/-- The reduction of one step of a job on this device: what it is; the contributions expected (target, position) and present; the
children received at each tree level (level, leaf); the sums of the highest node closed here, by master element, and how many
levels have closed; the targets whose root result is held, and the edge from which all are; the norms by level and child; the
clip factors, the norm and the edge from which they are held; the loss its rows have summed (R222). -/
structure Reduce where
  info : ReduceInfo
  expected : List (Nat × Nat)
  leaves : List Leaf
  children : List (Nat × Leaf)
  sums : Table Word
  closed : Nat
  rootGot : List Nat
  rootAt : Option Nat
  norms : List (Nat × Nat × Word)
  normClosed : Nat
  factors : List Word
  norm : Word
  factorAt : Option Nat
  reported : Bool
  loss : Word
  deriving DecidableEq, Repr

/-- The rollout record of stage L − 1: log2 probabilities of a rollout's generated tokens (R218). -/
structure LpRec where
  job : Nat
  g : Nat
  i : Nat
  lps : List Word
  deriving DecidableEq, Repr

/-- Jobs, evaluations, shares, Scribe tasks and reductions. -/
structure TrainS where
  jobs : List Job
  evals : List Eval
  /-- Schedules that another device's jobs and evaluations have at this stage (R224). -/
  notes : List SchedNote
  share : Table Nat
  scribe : List ScribeTask
  reduces : List Reduce
  late : List LateBook
  lpRecs : List LpRec
  /-- Tree results sent, kept for their reports (R308): frame stamp, result, the frame to whose edge it is kept. -/
  treeSent : List (Nat × TreeIn × Nat)
  deriving DecidableEq, Repr

/-! ## Snapshots (R252 to R265) -/

/-- Snapshots of one application on this device (R255 to R262): an order's edge E; the one in progress with the parts not yet
acknowledged; the latest complete one; the state code; on the manager, devices that have reported. -/
structure Snap where
  order : Option Nat
  boosted : Bool
  number : Nat
  state : Nat
  current : Option Image
  /-- Parts not yet acknowledged, in the order of the drain; those whose objects have left; bytes drained of the next (R253, R254). -/
  toSend : List Nat
  sent : List Nat
  moved : Nat
  /-- SHA-512 of the manifest that has left (R255). -/
  manifest : List Byte
  recorded : List Nat
  complete : Option Image
  /-- On the manager: every completed snapshot's drain time in hclk, newest first, at most 4 (R259). -/
  costs : List Nat
  spent : Nat
  /-- The edge of the last capture. -/
  last : Nat
  /-- A restore: the edge it stops the application at, devices that have reported, and the resume edge (R262). -/
  stopAt : Option Nat
  restored : List Nat
  resumeAt : Option Nat
  deriving DecidableEq, Repr

/-- Snapshots by application; objects stored here as a buddy (R255), with the completion records and the latest
snapshot known complete of each application; frames of service (R260). -/
structure SnapS where
  apps : Table Snap
  store : List SnapObj
  /-- Completion records in the store (R255). -/
  records : List SnapRec
  completeNos : List (Nat × Nat)
  served : Nat
  deriving DecidableEq, Repr

/-! ## Ligature (R266 to R299) -/

/-- Port states (R295), in the order of PORT_STATE's codes. -/
inductive PortState where
  | disabled | down | training | miswired | up | retraining | failed
  deriving DecidableEq, Repr

/-- One port (R269 to R276, R295, R296): its state; whether it has saved coefficients, and whether the present training is fast;
failures in a row, and the frame of the last; whether the PHY has trained and the HELLO that arrived with its authentication; the
next SEQ to send, the messages in the replay buffer (first SEQ, flits) and those that wait (with their hclk count); the next SEQ
to accept; NAKs without ACK progress; credits held by channel; the planned retraining that its next edge begins (R298) and
whether it is out of its group until the edge after it is UP; uncorrectable codewords of this span of 1,024 frames. -/
structure PortS where
  st : PortState
  saved : Bool
  fast : Bool
  fails : Nat
  failedAt : Nat
  phy : Bool
  hello : Option (Hello × Bool)
  txSeq : Nat
  replay : List (Nat × Nat × Msg)
  queue : List (Nat × Msg)
  rxSeq : Nat
  naks : Nat
  credit : Table Nat
  leaving : Bool
  removed : Bool
  fec : Nat
  /-- The session key of the sending direction, and the DATA flits first sent under it (R372). -/
  key : List Byte
  sentFlits : Nat
  deriving DecidableEq, Repr

/-- A hand-off slot that this device sent (R288): ring name, stamp, its task's plan, and how often the task has run again. -/
structure SentSlot where
  addr : Nat
  stamp : Nat
  task : TaskPlan
  /-- The training chunk whose rows it carries: its frame, its rows (R225). -/
  chunk : Option (ChunkRef × Nat × Nat)
  tries : Nat
  /-- It is kept to the edge that begins this frame. -/
  keep : Nat
  deriving DecidableEq, Repr

/-- The fabric: ports; the tables in force and those for the pending topology edge (R297), which wait for the standby (R292); each
link group's turn (R284), the ports that forwarded slots took, and those that forwarded requests came on; sent slots; the hand-offs expected of the plan in force that did
not arrive; the HELLO'd, joined devices, ports reported not UP, application sets and lost devices, which the manager keeps; since
when a device has been out of reach; the die-to-die modules that failed (R267); the frame of the last TICK and the device that
sent it; a standby is to take over at the next edge (R293). -/
structure LigS where
  ports : Table PortS
  tables : Option Tables
  routes : Table Nat
  tablesNext : Option Tables
  topoWaits : Bool
  turn : Table Nat
  slotPorts : List (Nat × Nat × Nat × Nat)
  reqPorts : List (Nat × Nat × Nat)
  sent : List SentSlot
  map : WireMap
  /-- Joined devices with their epochs. -/
  joined : List (Nat × Nat)
  /-- Ports that are not UP: device, port. -/
  portsDown : List (Nat × Nat)
  sets : List AppSet
  /-- On the standby: what the manager has sent besides (R292). -/
  sys : Option SysState
  unreach : Table Nat
  /-- Measurement block 0x02 of each device that attested itself (R352, R354). -/
  images : Table (List Byte)
  modules : Table Nat
  moduleFails : List Nat
  lastTick : Nat
  manager : Nat
  takeover : Bool
  /-- Device tables of CAPACITY that the manager has been sent: subindex and value (R294). -/
  caps : Table (List (Nat × Nat))
  /-- What the admitted work of each device needs, as it last told (R20, R22): hclk a frame, and its share of the slices. -/
  loads : Table (List (Nat × Nat))
  /-- Devices that the manager has declared lost (R317). -/
  lost : List Nat
  deriving DecidableEq, Repr

/-! ## Base replacement (R320 to R340) -/

/-- A journal entry (R337) with the means that the last stage measured (R330): log2 probability and match fraction, measured and
expected. -/
structure JEntry where
  word : BitVec 128
  lp : Word
  expLp : Word
  hit : Word
  expHit : Word
  /-- The frame it was MAPPED in (R329). -/
  mappedAt : Nat
  /-- The chain's first device has been told that the variant's slot is ready for its check (R329). -/
  told : Bool
  deriving DecidableEq, Repr

/-- The passes of a variant's check, on the chain's first device (R329): chain devices whose slots are not yet known to be ready, and a
schedule for each probe. -/
structure CheckPass where
  variant : Nat
  asked : List Nat
  seqs : List Sched
  deriving DecidableEq, Repr

/-- The base replacement of one application (R320): its phase code, the operation, what is staged, the journal, edge S. -/
structure BaseS where
  phase : Nat
  opId : Nat
  order : BitVec 1024
  newGen : Nat
  package : Option Package
  verified : List Nat
  journal : List JEntry
  /-- MAP has begun: at this edge. -/
  mapAt : Nat
  holdRegs : Bool
  switchAt : Option Nat
  /-- The copybook of the old base, kept while variants are bound to it. -/
  old : Option Copybook
  /-- Variants whose drawn step is abandoned at the next edge (R326). -/
  quash : List Nat
  checks : List CheckPass
  deriving DecidableEq, Repr

/-! ## Tenant keys (R355 to R363) -/

/-- A key slot (R359) with the key record it was loaded from (R357). -/
structure KeySlot where
  tenant : Nat
  /-- 0 FREE, 1 ACTIVE, 2 ROTATING, 3 REVOKING. -/
  st : Nat
  genCur : Nat
  genPrev : Option Nat
  trkCur : List Byte
  trkPrev : List Byte
  tdk : List Byte
  /-- Frame of the last rotation (R361). -/
  rotated : Nat
  /-- The withdrawal edge of its revocation (R362). -/
  edgeW : Option Nat
  /-- The previous generation is retired at the next edge (R361). -/
  retire : Bool
  deriving DecidableEq, Repr

/-! ## Security (R341 to R384) -/

/-- The key commands (R355). -/
inductive KeyCmd where
  | set | rotate | retire | revoke | roster
  deriving DecidableEq, Repr

/-- What a key command is answered with (R355). -/
inductive KeyAnswer where
  | ok | enrolRefused | keyExists | proofFailed | keyBusy
  /-- The device has no identity, or was unlocked by the maker (R344, R383). -/
  | refused
  /-- ROSTER: device number, SHA-512 of the identity certificate and block 0x02 of each device that holds the key. -/
  | roster (l : List (Nat × Nat × List Byte))
  deriving DecidableEq, Repr

/-- Halts of an application (R381): the halt edge and the resumption edge named, the frames that a DEBUG_STEP lets run, the halt
key while it is halted (R382). -/
structure Halt where
  at_ : Option Nat
  resume : Option Nat
  steps : Option Nat
  key : Option Nat
  deriving DecidableEq, Repr

/-- An SPDM session that a requester holds (R350): its transport, whether it is mutually authenticated. -/
structure SpdmSession where
  id : Nat
  transport : Nat
  mutual_ : Bool
  deriving DecidableEq, Repr

/-- The security engine: the identity is unwrapped (R344); the system wrapping key (R357); tenant records; halts by application;
SPDM sessions and their next number; VFs whose IDE stream has keys (R373); a DEBUG_POLICY that waits for its edge (R380); the last
view; TENANT_TIMING counts under 64·key slot + item (R380). -/
structure SecS where
  idOk : Bool
  swk : Option (List Byte)
  tenants : List Tenant
  halts : Table Halt
  spdm : List SpdmSession
  nextSpdm : Nat
  ide : List Nat
  policyNext : Option Nat
  view : List Byte
  timing : Table Nat
  deriving DecidableEq, Repr

/-! ## Sessions and the dictionary (R385 to R411) -/

/-- A dictionary session (R389): who opened it, over what, and what the device holds for it. -/
structure Session where
  id : Nat
  role : Role
  transport : Transport
  /-- Opened with the label password: every write but PASSWORD_SET.02 is refused (R393). -/
  label : Bool
  openFrame : Nat
  lastFrame : Nat
  /-- The SEQ last accepted from the caller and last used by the device (R394). -/
  seqIn : Nat
  seqOut : Nat
  /-- Its two AES-256-GCM keys: caller to device, device to caller (R389, R390). -/
  keyIn : List Byte
  keyOut : List Byte
  subscribed : Bool
  /-- Bytes of a WRITE_STAGED value so far, with its entry (R399). -/
  staged : Option (Nat × List Byte)
  /-- The copy a READ at OFFSET 0 latched, with its entry (R400). -/
  latch : Option (Nat × List Byte)
  deriving DecidableEq, Repr

/-- An opening whose PROOF has not come (records 1 and 2 exchanged, R390). -/
structure Opening where
  transport : Transport
  role : Role
  password : Bool
  /-- The caller's nonce Nc, the transcript hash TH, and the two keys derived. -/
  nonceC : Nat
  th : List Byte
  keyIn : List Byte
  keyOut : List Byte
  deriving DecidableEq, Repr

/-- Failed password proofs of one role (R392): consecutive failures, the frame up to which openings are locked (absent:
no lock), and how often the span has doubled. -/
structure AuthLock where
  failures : Nat
  until_ : Option Nat
  doublings : Nat
  /-- A lock has ended and no opening has succeeded since: each further failure locks again. -/
  ended : Bool
  deriving DecidableEq, Repr

/-- A write accepted for a later edge (R397). -/
structure PendingWrite where
  key : Nat
  value : Nat
  edge : Nat
  deriving DecidableEq, Repr

/-- Sessions and transports. -/
structure EpellS where
  sessions : List Session
  openings : List Opening
  nextId : Nat
  /-- Locks of the operator (1) and the installer (2). -/
  locks : Table AuthLock
  /-- NOTIFY records waiting for a session, oldest first, at most 1,024 (R404). -/
  notify : Table (List (BitVec 128))
  /-- Sessions whose notify store has dropped a record since the last one sent. -/
  notifyLost : List Nat
  deriving DecidableEq, Repr

/-- What lies in the boot flash and the maker record, and outlives every start (R342 to R348, R393, R411, R446 to R448). -/
structure Nv where
  /-- SHA-512 of the mask ROM (R352), and the SHA-512 of the identity certificate, as the number the wiring map knows it by (R290). -/
  rom : List Byte
  identity : Nat
  /-- Monotonic counters 0 (security version floor), 1 (key list version), 2 (maker unlocks), R347. -/
  counter0 : Nat
  counter1 : Nat
  counter2 : Nat
  /-- Images by their version and security version number, R345. -/
  active : FwImage
  candidate : Option FwImage
  /-- Failed starts of the candidate, R348. -/
  candidateFails : Nat
  /-- The firmware acceptance key list (0xF000.00) by its list version and bytes. -/
  keyList : List Byte
  /-- The maker-signed defect record and calibration record in flash (0xF001.00, 0xF002.00). -/
  defects : List Byte
  cal : List Byte
  /-- The service defect list (R448), entries of R446. -/
  serviceDefects : List (BitVec 64)
  /-- The installer's credential is the label's (R393). -/
  installerLabel : Bool
  /-- Salt and verifier V of the operator's (none at the factory) and the installer's password. -/
  operatorPw : Option (List Byte)
  installerPw : List Byte
  /-- ROLE_KEYS.01 and .02, 516 bytes a key. -/
  operatorKeys : List Byte
  installerKeys : List Byte
  /-- Channels with saved memory-training values, and the serial-presence-detect contents recorded with them (R121). -/
  savedChannels : List (Nat × Nat)
  /-- Serial checksum printed on the label (0xF003.00 confirms by it). -/
  serialSum : Nat
  deriving DecidableEq, Repr

/-! ## The event router, the rings and the ash record (R412 to R433) -/

/-- The states of a source (R415). -/
inductive SrcState where
  | inactive | pending | active | activePending
  deriving DecidableEq, Repr

/-- One event source: its register in force and the one written for the next edge (R413), its state, the firings merged,
and the first merged firing. -/
structure Source where
  reg : BitVec 32
  next : Option (BitVec 32)
  /-- The edge of `next` has passed while the source was not INACTIVE. -/
  due : Bool
  st : SrcState
  coalesced : Nat
  frame : Nat
  offset : Nat
  code : Nat
  arg : Nat
  /-- The hclk count, since the clock started, of the firing that made it PENDING (R416). -/
  since : Nat
  /-- Raises of the effective level already counted in ESCALATIONS. -/
  raised : Nat
  /-- The event ring and the index of the record being handled, for an MSI-X target. -/
  slot : Option (Nat × Nat)
  deriving DecidableEq, Repr

/-- Events, reports and ring contexts. -/
structure EvS where
  sources : Table Source
  /-- Handlers running on CP0 to CP7, innermost first: source and level (R417). -/
  handlers : Table (List (Nat × Nat))
  /-- The last 256 event records delivered, newest first (R431). -/
  delivered : List (BitVec 128)
  /-- Targets that dropped a record since their last one (the LOST bit, R419). -/
  lost : List Nat
  /-- Report store: report r at r mod 4,096, and the number of the next report (R420). -/
  reports : Table (BitVec 512)
  nextReport : Nat
  /-- The 32,768 ring contexts (R422). -/
  rings : Table (BitVec 256)
  /-- Entries published and not yet served, by doorbell: how many, and the hclk count of the doorbell, oldest first (R425). -/
  ringAge : Table (List (Nat × Nat))
  ringRaised : Table Nat
  /-- Entries of rings in management-die memory, as (ring × 2^17 + index) to bytes. -/
  ringData : Table (List Byte)
  /-- Places by which the scrub has moved earlier, and the frames a reservation has waited for a scrubbed frame (R426). -/
  scrubPlace : Nat
  scrubWait : Nat
  deriving DecidableEq, Repr

/-- A last gasp region (R431). -/
structure Gasp where
  valid : Bool
  startCount : Nat
  entries : List (BitVec 512)
  deriving DecidableEq, Repr

/-- The ash record (R427 to R432), in MRAM: it outlives every start. -/
structure AshS where
  main : Table (BitVec 512)
  next : Nat
  firstFault : List (BitVec 512)
  start : Table (BitVec 512)
  startCount : Nat
  gaspA : Gasp
  gaspB : Gasp
  /-- EVENT and THROTTLE entries of this frame, and entries dropped (R430). -/
  perFrame : Nat
  suppressed : Nat
  /-- STOP_CAUSE of the last stop (R429). -/
  stopCause : Nat
  deriving DecidableEq, Repr

/-! ## Power, kindling, reset and pins (R434 to R477) -/

/-- How far the device has come from a start (R440), or why it stands still. -/
inductive Stage where
  /-- No power-good: before it, after a loss of input, or while COLD_RST# is low. -/
  | off
  /-- K0 is running, or waits for SYSCLK (R470). -/
  | k0
  /-- K0 ended in the recovery loader (R346). -/
  | recovery
  | k1
  /-- K2, with the next wave 0 to 7 (R443). -/
  | k2 (wave : Nat)
  | proof
  /-- The proof stroke has ended; K3 runs. -/
  | k3
  | ready
  /-- The security engine failed its tests, or a fatal left no way on (R445). -/
  | dead
  /-- Writing the last gasp (R431). -/
  | gasp
  deriving DecidableEq, Repr

/-- DEVICE_STATE (0x0005.00). -/
inductive DeviceState where
  | kindling | ready | serviceSafe | identityFailed
  deriving DecidableEq, Repr

/-- How far a reset has come (R453 to R455). -/
inductive ResetPhase where
  /-- Ordered; takes effect at the first edge after the first cut-off that follows. -/
  | ordered (cutPassed : Bool)
  /-- Draining (R455). -/
  | draining
  /-- The reset proper: the unit's boundary answers TARGET_RESET (R456). -/
  | under
  /-- Out of reset and through its proof stroke; it returns at the next edge (R450, R451). -/
  | returning
  deriving DecidableEq, Repr

/-- A reset under way. -/
structure UnitReset where
  scope : Scope
  phase : ResetPhase
  fault : Bool
  deriving DecidableEq, Repr

/-- A spare being brought in for an OUT Hearth (R449). -/
structure SpareUse where
  logical : Nat
  spare : Nat
  proofPlanned : Bool
  reloaded : Bool
  /-- A cut-off has passed since its reload: the plan then built may use it (R449). -/
  ready : Bool
  deriving DecidableEq, Repr

/-- SERVICE_STATE (R458). -/
inductive ServiceState where
  | none | draining | snapshot | safe
  deriving DecidableEq, Repr

/-- Power, clock, kindling, spares, resets and pins. -/
structure PowS where
  stage : Stage
  dev : DeviceState
  /-- This kindling follows a warm device reset (R442); it runs the image in CANDIDATE (R348); its SVN. -/
  warm : Bool
  candidate : Bool
  svn : Nat
  /-- The gasp data written so far (R431). -/
  gasp : List (BitVec 512)
  sysclk : Bool
  /-- The VIN input switch is closed (R474). -/
  inputSwitch : Bool
  powerGood : Bool
  overTemp : Bool
  coldRst : Bool
  /-- PE_PERST# is low; the ports whose Lkk_PRS# is low (R468). -/
  perst : Bool
  prs : List Nat
  tickOut : Nat
  /-- Domain states D00 to D95: 0 OFF, 1 RAMPING, 2 ON, 3 SLEEP, 4 RETENTION, 5 FAULT. -/
  domains : Table Nat
  temps : List Int
  power : Nat
  /-- hclk in MHz, the step committed for the next edge, and the floor (R437). -/
  mhz : Nat
  mhzNext : Option Nat
  /-- A clock whose need arose after the admission cut-off: it waits for the edge after the next (R30). -/
  mhzLate : Option Nat
  floor : Nat
  /-- Frames in a row cool enough to raise the clock, or to resume admission (R438). -/
  coolRaise : Nat
  coolResume : Nat
  /-- Admission is held at the floor: now, and from the next edge. -/
  hold : Bool
  holdNext : Bool
  /-- Worst-case power in W at each step from 600 MHz up, from the factory calibration (R437). -/
  calib : List Nat
  /-- Logical to physical Hearths (0 to 255 to 9·cluster + h), R447. -/
  map : Table (Option Nat)
  /-- Physical Hearths up, failed or listed as defective, and OUT logical Hearths (R449). -/
  up : List Nat
  bad : List Nat
  outHearths : List Nat
  spares : List SpareUse
  /-- DEGRADED clusters and unavailable partitions (R447). -/
  degraded : List Nat
  /-- Clusters without a spare that become DEGRADED at the next edge (R449). -/
  degrading : List Nat
  lostParts : List Nat
  /-- Unit epochs: Hearth h, 256 + cluster, 288 + partition (R450): in force, and those returning at the next edge. -/
  epochs : Table Nat
  epochRise : List Nat
  resets : List UnitReset
  /-- LIVE slots to be refilled before tasks lie on a cluster again that came back (R454): cluster, slot. -/
  refill : List (Nat × Nat)
  kindle : List Nat
  svc : ServiceState
  svcStart : Nat
  svcPress : Bool
  /-- FATAL has fired: nothing is released or admitted from the next edge (R421). -/
  fatal : Bool
  /-- Die groups whose channels are being retrained, and channels whose automatic retraining waits for free frames (R452). -/
  retraining : List Nat
  retrainWaits : List Nat
  /-- Failed banks of Wells and Inkstones, as entries of R446: listed, or found in a proof stroke (R444). -/
  banks : List (BitVec 64)
  /-- Inputs for the gasp: frames of telemetry kept (R431). -/
  telemetry : List (Nat × Nat)
  deriving DecidableEq, Repr

/-! ## The device -/

/-- An envelope that the device sends (R183, R184): its header, the nonce, and the plaintext sealed under the tenant's key of KEY_GEN with
the header as additional data; a NOTICE has its header alone. -/
structure Sent where
  hdr : BitVec 512
  nonce : List Byte
  plain : List Byte
  deriving DecidableEq, Repr

/-- A dictionary record that the device sends (R394): its header, the key and nonce that seal it (none: ACCEPT, which is clear), its body. -/
structure SentRec where
  hdr : BitVec 128
  key : List Byte
  nonce : List Byte
  body : List Byte
  deriving DecidableEq, Repr

/-- What leaves the device, or is shown outside it, newest first in `Dev.out`. -/
inductive Out where
  /-- An ACCEPT, RESULT, ANSWER or NOTIFY record on a transport (R390, R394, R395, R404). -/
  | record (t : Transport) (r : SentRec)
  /-- An MSI-X vector raised (R414). -/
  | msix (vector : Nat)
  /-- A 16-byte event record sent to the manager in an EVENT message (R413). -/
  | eventMsg (rec : BitVec 128)
  /-- An ash entry sent to the manager (the START entry after joining, R429). -/
  | ashMsg (rec : BitVec 512)
  /-- A response or notice leaves for its front-end's pool buffer (R188), as UDP datagrams of at most 8,192 bytes (R187: port, route, segment
  header, first byte, length), or back to its intake device (R189: device, REPLY_HANDLE, FINAL). -/
  | pooled (vf addr : Nat) (m : Sent)
  | datagram (port reply : Nat) (seg : BitVec 128) (first len : Nat) (m : Sent)
  | returned (device handle : Nat) (final : Bool) (m : Sent)
  /-- Answers to ARP and Neighbor Discovery: port, address, MAC (R187). -/
  | arp (port addr mac : Nat)
  | neighbor (port addr mac : Nat)
  /-- A sampled token's 16-byte record to stage 0 with its slot's stamp; an end record to every device of the chain (R200, R201). -/
  | token (record : List Byte) (stamp : Nat)
  | endRecord (slot id status : Nat) (last : Option (Nat × Nat))
  /-- An intake entry and the opened payload to the first device of a chain; an admission passed along it; a bind asked of its devices and
  the answer; a report of a LIVE slot to its first device (R171, R189, R195). -/
  | forward (entry : BitVec 1024) (body : List Byte)
  | bindAsk (tenant id variant app : Nat)
  | bindAnswer (tenant id code : Nat)
  /-- A pin asked for a job or an evaluation, its release, its answer (R237); a schedule, and a slip of one of its chunks (R224, R225). -/
  | pinAsk (u : Use) (variant app : Nat)
  | pinRelease (u : Use)
  | pinAnswer (u : Use) (code : Nat)
  | schedule (x : SchedNote)
  | slip (c : ChunkRef) (frames : Nat)
  | admission (slot id : Nat)
  | slotLive (slot id : Nat)
  /-- A commit notice, a flip notice, a Scribe report and a REDUCE_DONE to the other devices of a chain (R244, R250, R309). -/
  | commitNotice (n : CommitNotice)
  | flipNotice (variant edge : Nat)
  | scribeReport (job step : Nat) (fault cold : Bool)
  | reduceDone (job step : Nat) (loss : Option Word)
  /-- A reduction opened on the other devices; results that leave this device's nodes (R304, R305). -/
  | reduceOpen (i : ReduceInfo)
  /-- A step that commits nothing: its folded contributions return to pending, its records become VOID (R315). -/
  | reduceVoid (job step : Nat)
  /-- The edge of a snapshot's capture, named by the manager (R252): application, number, edge, boosted. -/
  | snapOrder (app number edge : Nat) (boosted : Bool)
  /-- A sealed object to the buddy (R255); a snapshot is interrupted (R256); a boosted one is asked of the manager (R258). -/
  | snapObject (o : SnapObj)
  | snapInterrupt (app number : Nat)
  | snapAsk (app : Nat) (boosted : Bool)
  /-- Service drains of devices that host an application, and their ends (R458). -/
  | service (app : Nat) (on : Bool)
  | serviceStop (app : Nat)
  | jobEnded (job : Nat)
  /-- A buddy's answer for an object; a device's completion record; SNAPSHOT_COMPLETE; a part's copy to the network target
  (R255, R257). -/
  | snapAck (device app snapshot part : Nat) (refused : Bool)
  | snapRecord (r : SnapRec) (spent : Nat)
  | snapComplete (app number : Nat)
  | snapNet (app number part : Nat)
  /-- A restore: the edge at which an application stops; a device has restored; the resume edge (R262). -/
  | restoreStop (app edge : Nat)
  | restored (app : Nat)
  | resumeEdge (app edge : Nat)
  /-- A base replacement: its order, a device's staged parts, the start of MAP, the outcome of a check as a CAUSE code, the switch
  edge, the end ABANDONED, SWITCH complete, RETIRE (R320 to R336). -/
  | baseOrder (opId newGen : Nat) (order : BitVec 1024)
  | baseVerified (app : Nat) (ok : Bool)
  | baseMap (app : Nat)
  | baseCheck (app variant cause : Nat) (means : Word × Word × Word × Word)
  | baseSwitch (app edge : Nat)
  | baseAbandon (app : Nat)
  | baseRetire (app : Nat)
  /-- An operation has ended ABANDONED for a shape (true) or a hash that does not agree (R322, R323); the journal that a device
  reports after a warm reset (R338). -/
  | baseRefused (app : Nat) (shape : Bool)
  | journal (app : Nat) (l : List (BitVec 128))
  | treeOut (stamp : Nat) (t : TreeIn)
  | treeReport (l : List TreeName)
  /-- A message to another device (R277): the port, and the data bytes of its flits as they cross the link (R372). -/
  | message (port : Nat) (flits : List (List Byte))
  /-- A flit of a port that carries no message: FKIND, ACK, and a credit return (R273). -/
  | flit (port kind ack cvc credits : Nat)
  /-- A port replays its flits from a SEQ on (R274). -/
  | replay (port seq : Nat)
  /-- A HELLO flit of a port in training (R273): device number or none, port, epoch, initial credits, with the device's identity. -/
  | hello (device : Option Nat) (port epoch : Nat) (credits : List Nat)
  /-- A TSYNC answer with the times it was received and answered (R14). -/
  | tsync (port : Nat)
  /-- From the manager: a device's tables (R297), a placement (R480), and to the standby each change of system state (R292). -/
  | tables (device : Nat) (t : Tables)
  /-- What this device's admitted work needs, to the manager (R20, R22). -/
  | load (l : List (Nat × Nat))
  | placement (device app : Nat) (p : Placement)
  /-- Shares that the manager writes to a chain's devices (R193, R224). -/
  | shares (device index sub first : Nat) (values : List Nat)
  /-- A die-to-die link runs with one module fewer (R267); slots of a ring that did not arrive (R288); an application stays stopped
  for want of a device (R318). -/
  | linkReduced (link : Nat)
  | slotReport (cluster ring missing : Nat)
  | chainLost (app : Nat)
  /-- A key command's answer; forwarded to the manager; a key record sent to a device, wrapped (R355, R358). -/
  | keyAnswer (tenant : Nat) (a : KeyAnswer)
  | keyForward (c : KeyCmd) (op : KeyOp)
  | keyRecord (tenant : Nat) (wrapped : List Byte)
  | swk (device : Nat)
  | keyRetire (tenant : Nat)
  | keyRevoke (tenant : Nat)
  /-- An SPDM answer and a TDISP answer (R350, R374). -/
  | spdm (transport : Nat) (r : SpdmResp)
  | tdisp (vf : Nat) (r : TdispResp)
  /-- Edges at which an application halts, and at which it runs on, for k frames or for good (R381). -/
  | haltAt (app edge : Nat)
  | runAt (app edge : Nat) (steps : Option Nat)
  /-- A copybook is loaded, or refused CAPACITY_EXCEEDED (R3); a device's Capacity Table for the manager (R294). -/
  | loaded (app : Nat) (ok : Bool)
  | capacity (l : List (Nat × Nat))
  /-- From the manager: a device's buddy (R255); the mailbox's MSI-X vector (R401). -/
  | buddy (device n : Nat)
  | mailbox
  /-- From the standby: it holds the change of system state that the manager sent (R292). -/
  | standbyAck
  /-- A migration of an exported frame, to the application's other devices; an importer's answer (R129). -/
  | migration (app src dst phase : Nat)
  | migrationAck (device src phase : Nat)
  | standby (map : WireMap) (joined : List (Nat × Nat)) (sets : List AppSet)
  | standbyState (x : SysState)
  deriving DecidableEq, Repr

/-- The device: one field a chapter, the scalar dictionary entries, what left it, and the count of free values used. -/
structure Dev where
  frame : FrameS
  ev : EvS
  ash : AshS
  epell : EpellS
  pow : PowS
  hearth : HearthS
  num : NumS
  mem : MemS
  ink : InkS
  gen : GenS
  train : TrainS
  snap : SnapS
  /-- Base replacements by application; the highest generation held of each BASE_ID; the next OP_ID (R321). -/
  base : Table BaseS
  baseGens : Table Nat
  nextOp : Nat
  lig : LigS
  /-- Key slots 0 to 4,095 (R359). -/
  keys : Table KeySlot
  sec : SecS
  /-- Every dictionary entry that holds one number, under `entry index sub`; absent: its default. -/
  regs : Table Nat
  /-- Writes accepted for a later edge (R397). -/
  waiting : List PendingWrite
  out : List Out
  /-- On a manager with a standby: messages of changes that wait for its acknowledgements, in order; `true`: a topology (R292). -/
  held : List (Bool × List Out)
  /-- Free values drawn so far (the model's own: log entry 4). -/
  fresh : Nat
  deriving DecidableEq, Repr

/-- The machine: what outlives a start, the device, and the commands that wait, first in first out. -/
structure State where
  nv : Nv
  dev : Dev
  pending : List Instr
  deriving DecidableEq, Repr

/-! ## The machine before its first power-good (log entry 7) -/

def gaspEmpty : Gasp := { valid := false, startCount := 0, entries := [] }

def FrameS.reset : FrameS :=
  { no := 0, off := 0, base := 0, tick := .locked, holdRun := 0, timer := false, error := 0, guardAdj := 0, announced := none, announcedNext := none,
    adopted := false, cut := false, guard := false, next := none, tasks := [], streams := [], tiles := [], numStreams := [],
    carried := [], again := [], carry := [], retry := [], batches := [], slipped := [], recals := [], inc := [], overrun := [], pps := none,
    tickIn := false, tickInNext := false }

def EvS.reset : EvS :=
  { sources := [], handlers := [], delivered := [], lost := [], reports := [], nextReport := 0, rings := [], ringAge := [],
    ringRaised := [], ringData := [], scrubPlace := 0, scrubWait := 0 }

def AshS.reset : AshS :=
  { main := [], next := 0, firstFault := [], start := [], startCount := 0, gaspA := gaspEmpty, gaspB := gaspEmpty,
    perFrame := 0, suppressed := 0, stopCause := 0 }

def EpellS.reset : EpellS := { sessions := [], openings := [], nextId := 1, locks := [], notify := [], notifyLost := [] }

def PowS.reset : PowS :=
  { stage := .off, dev := .kindling, warm := false, candidate := false, svn := 0, gasp := [], sysclk := true, inputSwitch := true, powerGood := false,
    overTemp := false, coldRst := false, perst := false, prs := [], tickOut := 0, domains := [], temps := [],
    power := 0, mhz := 850, mhzNext := none, mhzLate := none, floor := 850, coolRaise := 0, coolResume := 0, hold := false, holdNext := false,
    calib := [], map := [], up := [], bad := [], outHearths := [], spares := [], degraded := [], degrading := [], lostParts := [],
    epochs := [], epochRise := [], resets := [], refill := [], kindle := [], svc := .none, svcStart := 0, svcPress := false, fatal := false,
    retraining := [], retrainWaits := [], banks := [], telemetry := [] }

def HearthS.reset : HearthS :=
  { nextSeq := 0, arrays := [], tiles := [], ductus := [], vregs := [], tally := [], latch := [] }

def NumS.reset : NumS :=
  { records := [], retained := [], steps := [], eras := [], tallyMap := [], trace := [], rate := some 12, rateNext := some 12, pins := [], pinsNext := [], kept := [],
    limits := [] }

def MemS.reset : MemS :=
  { well := [], ink := [], ddr := [], frameOwner := [], granOwner := [], dataLost := [], pageVersion := [], groupVersion := [], bad := [], treeBad := [],
    level1 := [], ptes := [], pteNext := [], tlb := [], invals := [], migrations := [], importing := [], exports := [], sysApp := [], sems := [],
    poison := [], brings := [], stamps := [], te := [], carriedX := [], resume := [], remote := [], nextTag := 0,
    inSlots := [], lines := [], resident := [], control := [], dimm := [], usable := [], recal := [], corrWindow := [],
    appOf := [], peat := [], peatUsed := [] }

def InkS.reset : InkS :=
  { slots := [], reserve := [], fills := [], served := [], binds := [], bound := [], refused := [], answer := .none,
    failed := [], unpins := [], windows := [], halves := [], fillDone := [], retries := 2, parkLimit := 2000, recs := [], heldRegs := [] }

def GenS.reset : GenS :=
  { apps := [], reqs := [], tokenShare := [], prefillShare := [], kvQuota := [], kvFree := [],
    resps := [], filters := [], reasm := [], ready := [], opened := [], asks := [], sent := [], serviced := [], ended := [], admitted := 0 }

def TrainS.reset : TrainS := { jobs := [], evals := [], notes := [], share := [], scribe := [], reduces := [], late := [], lpRecs := [], treeSent := [] }

def SnapS.reset : SnapS := { apps := [], store := [], records := [], completeNos := [], served := 0 }

def LigS.reset : LigS :=
  { ports := [], tables := none, routes := [], tablesNext := none, topoWaits := false, turn := [], slotPorts := [], reqPorts := [], sent := [],
    map := ⟨[], []⟩, joined := [], portsDown := [], sets := [], sys := none, unreach := [], images := [], modules := [], moduleFails := [], lastTick := 0,
    manager := 0xFFFFFFFF, takeover := false, caps := [], loads := [], lost := [] }

def SecS.reset : SecS :=
  { idOk := true, swk := none, tenants := [], halts := [], spdm := [], nextSpdm := 0, ide := [], policyNext := none, view := [],
    timing := [] }

def Nv.reset : Nv :=
  { rom := [], identity := 0, counter0 := 0, counter1 := 0, counter2 := 0, active := ⟨0, 0, true, []⟩, candidate := none, candidateFails := 0,
    keyList := [], defects := [], cal := [], serviceDefects := [], installerLabel := true, operatorPw := none,
    installerPw := [], operatorKeys := [], installerKeys := [], savedChannels := [], serialSum := 0 }

def Dev.reset : Dev :=
  { frame := .reset, ev := .reset, ash := .reset, epell := .reset, pow := .reset, hearth := .reset, num := .reset,
    mem := .reset, ink := .reset, gen := .reset, train := .reset, snap := .reset, base := [], baseGens := [], nextOp := 1, lig := .reset, keys := [], sec := .reset, regs := [], waiting := [], out := [], held := [], fresh := 0 }

/-- The machine right after reset: nothing powered, nothing learnt, no command waiting. -/
def State.reset : State := { nv := .reset, dev := .reset, pending := [] }

end Sys2Proof.Machine
end

