-- ==== Sys2Proof/Machine/Entries.lean ====
section
/-!
DEFINITION. The Epell object dictionary as the manual's entry tables give it (R36, R71, R96, R153, R182, R211, R238, R265,
R299, R319, R340, R384, R408 to R411, R433, R460): each entry's type, access, roles, default and stated range.
-/
namespace Sys2Proof.Machine
open Sys2Proof

/-- One row of an entry table: the subindexes `lo` to `hi` of an index (R385). -/
structure Entry where
  index : Nat
  lo : Nat
  hi : Nat
  typ : EType
  acc : Access
  mgr : MgrRule
  /-- Roles with the full access of the row, and roles marked (R). -/
  roles : List Role
  readers : List Role
  dflt : Nat
  /-- The range the row states, if it states one. -/
  range : Option (Nat × Nat)
  /-- The DEBUG_POLICY bit whose view the entry belongs to; 0: none (R380, R388). -/
  view : Nat
  /-- Marked Secret in its row (R406). -/
  secret : Bool
  deriving DecidableEq, Repr

/-- A row written in the tables' order. -/
def row (index lo hi : Nat) (typ : EType) (acc : Access) (mgr : MgrRule) (roles readers : List Role) (dflt : Nat)
    (range : Option (Nat × Nat)) (view : Nat) (secret : Bool) : Entry :=
  { index, lo, hi, typ, acc, mgr, roles, readers, dflt, range, view, secret }

/-- Role lists of the tables: operator, installer, maker. -/
def rNone : List Role := []
def rO : List Role := [.operator]
def rI : List Role := [.installer]
def rM : List Role := [.maker]
def rOI : List Role := [.operator, .installer]
def rOIM : List Role := [.operator, .installer, .maker]

/-- Entry rows, part 0. -/
def dictRows0 : List Entry :=
  [row 0x0000 0x00 0x00 .u16 .ro .any rOIM rNone 0x0100 none 0 false, -- EPELL_VERSION
   row 0x0001 0x00 0x00 .str .ro .any rOIM rNone 0 none 0 false, -- VENDOR
   row 0x0001 0x01 0x01 .str .ro .any rOIM rNone 0 none 0 false, -- PRODUCT
   row 0x0002 0x00 0x00 .str .ro .any rOIM rNone 0 none 0 false, -- SERIAL
   row 0x0003 0x00 0x00 .u8 .ro .any rOIM rNone 0 none 0 false, -- STEPPING
   row 0x0004 0x00 0x00 .u32 .ro .any rOIM rNone 0 none 0 false, -- FW_VERSION
   row 0x0005 0x00 0x00 .u8 .ro .any rOIM rNone 0 none 0 false, -- DEVICE_STATE
   row 0x0006 0x00 0x00 .u64 .ro .any rOI rNone 0 none 0 false, -- UPTIME_FRAMES
   row 0x0100 0x01 0x01 .u8 .ro .any rOIM rNone 0 none 0 false, -- CAPACITY
   row 0x0100 0x02 0x02 .u32 .ro .any rOIM rNone 0 none 0 false, -- CAPACITY
   row 0x0100 0x03 0x03 .u16 .ro .any rOIM rNone 0 none 0 false, -- CAPACITY
   row 0x0100 0x04 0x04 .u32 .ro .any rOIM rNone 0 none 0 false, -- CAPACITY
   row 0x0100 0x05 0x05 .u32 .ro .any rOIM rNone 0 none 0 false, -- CAPACITY
   row 0x0100 0x06 0x06 .u32 .ro .any rOIM rNone 0 none 0 false, -- CAPACITY
   row 0x0100 0x07 0x07 .u64 .ro .any rOIM rNone 0 none 0 false, -- CAPACITY
   row 0x0100 0x08 0x08 .u16 .ro .any rOIM rNone 0 none 0 false, -- CAPACITY
   row 0x0100 0x09 0x09 .u64 .ro .any rOIM rNone 0 none 0 false, -- CAPACITY
   row 0x0100 0x0A 0x0A .u64 .ro .any rOIM rNone 0 none 0 false, -- CAPACITY
   row 0x0100 0x0B 0x0B .u32 .ro .any rOIM rNone 0 none 0 false, -- CAPACITY
   row 0x0100 0x0C 0x0C .u32 .ro .any rOIM rNone 0 none 0 false, -- CAPACITY
   row 0x0100 0x0D 0x0D .u32 .ro .any rOIM rNone 0 none 0 false, -- CAPACITY
   row 0x0100 0x0E 0x0E .u32 .ro .any rOIM rNone 0 none 0 false, -- CAPACITY
   row 0x0100 0x0F 0x0F .u32 .ro .any rOIM rNone 0 none 0 false, -- CAPACITY
   row 0x0100 0x10 0x10 .u16 .ro .any rOIM rNone 0 none 0 false, -- CAPACITY
   row 0x0100 0x11 0x11 .u32 .ro .any rOIM rNone 0 none 0 false, -- CAPACITY
   row 0x0100 0x12 0x12 .u32 .ro .any rOIM rNone 0 none 0 false, -- CAPACITY
   row 0x0100 0x13 0x13 .u32 .ro .any rOIM rNone 0 none 0 false, -- CAPACITY
   row 0x0100 0x14 0x14 .u32 .ro .any rOIM rNone 0 none 0 false, -- CAPACITY
   row 0x0100 0x15 0x15 .u32 .ro .any rOIM rNone 0 none 0 false, -- CAPACITY
   row 0x0100 0x16 0x16 .u16 .ro .any rOIM rNone 0 none 0 false, -- CAPACITY
   row 0x0100 0x17 0x17 .u64 .ro .any rOIM rNone 0 none 0 false, -- CAPACITY
   row 0x0100 0x18 0x18 .u8 .ro .any rOIM rNone 0 none 0 false, -- CAPACITY
   row 0x0100 0x19 0x19 .u64 .ro .any rOIM rNone 0 none 0 false, -- CAPACITY
   row 0x0101 0x01 0x01 .u8 .ro .any rOIM rNone 0 none 0 false, -- CAPACITY_DEVICE
   row 0x0101 0x02 0x02 .u32 .ro .any rOIM rNone 0 none 0 false, -- CAPACITY_DEVICE
   row 0x0101 0x03 0x03 .u16 .ro .any rOIM rNone 0 none 0 false, -- CAPACITY_DEVICE
   row 0x0101 0x04 0x04 .u32 .ro .any rOIM rNone 0 none 0 false, -- CAPACITY_DEVICE
   row 0x0101 0x05 0x05 .u32 .ro .any rOIM rNone 0 none 0 false, -- CAPACITY_DEVICE
   row 0x0101 0x06 0x06 .u32 .ro .any rOIM rNone 0 none 0 false, -- CAPACITY_DEVICE
   row 0x0101 0x07 0x07 .u64 .ro .any rOIM rNone 0 none 0 false] -- CAPACITY_DEVICE

/-- Entry rows, part 1. -/
def dictRows1 : List Entry :=
  [row 0x0101 0x08 0x08 .u16 .ro .any rOIM rNone 0 none 0 false, -- CAPACITY_DEVICE
   row 0x0101 0x09 0x09 .u64 .ro .any rOIM rNone 0 none 0 false, -- CAPACITY_DEVICE
   row 0x0101 0x0A 0x0A .u64 .ro .any rOIM rNone 0 none 0 false, -- CAPACITY_DEVICE
   row 0x0101 0x0B 0x0B .u32 .ro .any rOIM rNone 0 none 0 false, -- CAPACITY_DEVICE
   row 0x0101 0x0C 0x0C .u32 .ro .any rOIM rNone 0 none 0 false, -- CAPACITY_DEVICE
   row 0x0101 0x0D 0x0D .u32 .ro .any rOIM rNone 0 none 0 false, -- CAPACITY_DEVICE
   row 0x0101 0x0E 0x0E .u32 .ro .any rOIM rNone 0 none 0 false, -- CAPACITY_DEVICE
   row 0x0101 0x0F 0x0F .u32 .ro .any rOIM rNone 0 none 0 false, -- CAPACITY_DEVICE
   row 0x0101 0x10 0x10 .u16 .ro .any rOIM rNone 0 none 0 false, -- CAPACITY_DEVICE
   row 0x0101 0x11 0x11 .u32 .ro .any rOIM rNone 0 none 0 false, -- CAPACITY_DEVICE
   row 0x0101 0x12 0x12 .u32 .ro .any rOIM rNone 0 none 0 false, -- CAPACITY_DEVICE
   row 0x0101 0x13 0x13 .u32 .ro .any rOIM rNone 0 none 0 false, -- CAPACITY_DEVICE
   row 0x0101 0x14 0x14 .u32 .ro .any rOIM rNone 0 none 0 false, -- CAPACITY_DEVICE
   row 0x0101 0x15 0x15 .u32 .ro .any rOIM rNone 0 none 0 false, -- CAPACITY_DEVICE
   row 0x0101 0x16 0x16 .u16 .ro .any rOIM rNone 0 none 0 false, -- CAPACITY_DEVICE
   row 0x0101 0x17 0x17 .u64 .ro .any rOIM rNone 0 none 0 false, -- CAPACITY_DEVICE
   row 0x0101 0x18 0x18 .u8 .ro .any rOIM rNone 0 none 0 false, -- CAPACITY_DEVICE
   row 0x0101 0x19 0x19 .u64 .ro .any rOIM rNone 0 none 0 false, -- CAPACITY_DEVICE
   row 0x1000 0x00 0x00 .u64 .ro .any rOIM rNone 0 none 0 false, -- FRAME_NO
   row 0x1002 0x00 0x00 .u8 .ro .any rOIM rNone 0 none 0 false, -- TICK_STATE
   row 0x1010 0x00 0x00 .u32 .rw .roOnWorker rI rNone 500 (some (100, 50000)) 0 false, -- FRAME_PERIOD
   row 0x1010 0x01 0x01 .u64 .ro .any rOI rNone 0 none 0 false, -- PERIOD_AT
   row 0x1011 0x01 0x01 .u16 .rw .any rI rNone 450 none 0 false, -- DECODE_FRACTION
   row 0x1011 0x02 0x02 .u16 .rw .any rI rNone 450 none 0 false, -- TRAINING_FRACTION
   row 0x1011 0x03 0x03 .u16 .rw .any rI rNone 60 none 0 false, -- HOUSEKEEPING_FRACTION
   row 0x1011 0x04 0x04 .u16 .rw .any rI rNone 40 none 0 false, -- GUARD_FRACTION
   row 0x1014 0x00 0x00 .u16 .rw .any rO rNone 64 none 0 false, -- REPEAT_RESERVE
   row 0x1020 0x00 0x00 .u8 .rw .any rI rNone 1 (some (0, 2)) 0 false, -- TICK_SOURCE
   row 0x1021 0x00 0x00 .u32 .rw .any rI rNone 2000 none 0 false, -- HOLDOVER_LIMIT
   row 0x1022 0x00 0x00 .i32 .ro .any rOI rNone 0 none 0 false, -- TICK_ERROR
   row 0x1023 0x00 0x00 .u32 .ro .any rI rNone 0 none 0 false, -- UPSTREAM_DELAY
   row 0x1030 0x00 0x00 .bool .rw .any rI rNone 0 none 0 false, -- PPS_ENABLE
   row 0x1031 0x00 0x00 .u64 .ro .any rOI rNone 0 none 0 false, -- WALL_TIME
   row 0x1040 0x01 0x08 .u64 .ro .any rO rNone 0 none 1 false, -- LATE_DECODE
   row 0x1041 0x01 0x08 .u64 .ro .any rO rNone 0 none 1 false, -- LATE_TRAINING
   row 0x1042 0x01 0x08 .u64 .ro .any rO rNone 0 none 1 false, -- HK_CARRY
   row 0x1043 0x01 0x08 .u64 .ro .any rO rNone 0 none 1 false, -- WINDOW_OVERRUN
   row 0x1044 0x01 0x08 .u64 .ro .any rO rNone 0 none 1 false, -- ABSENT_INPUT
   row 0x1048 0x01 0x01 .u64 .ro .any rO rNone 0 none 1 false, -- GUARD_BREACH
   row 0x1048 0x02 0x02 .u64 .ro .any rO rNone 0 none 1 false] -- PLAN_MISSED

/-- Entry rows, part 2. -/
def dictRows2 : List Entry :=
  [row 0x1048 0x03 0x03 .u64 .ro .any rO rNone 0 none 1 false, -- HOLDOVER_FRAMES
   row 0x104F 0x00 0x00 .u32 .w1c .any rO rNone 0 none 0 false, -- COUNTER_CLEAR
   row 0x1100 0x00 0x00 .u16 .ro .any rOI rNone 0 none 0 false, -- DDR_RATE
   row 0x1101 0x01 0x20 .u8 .ro .any rOI rNone 0 none 0 false, -- CHANNEL_STATE
   row 0x1102 0x00 0x00 .u8 .rw .any rI rNone 0 (some (0, 1)) 0 false, -- DDR_TRAIN_MODE
   row 0x1103 0x00 0x00 .u64 .ro .any rOI rNone 0 none 0 false, -- DDR_USABLE
   row 0x1104 0x00 0x00 .u16 .rw .any rI rNone 850 (some (500, 900)) 0 false, -- DDR_PLAN_LIMIT
   row 0x1105 0x01 0x20 .u64 .ro .any rO rNone 0 none 1 false, -- DDR_CORRECTED
   row 0x1106 0x01 0x20 .u64 .ro .any rO rNone 0 none 1 false, -- DDR_UNCORRECTED
   row 0x2040 0x01 0x08 .u64 .ro .any rO rNone 0 none 1 false, -- TILE_REPEAT1
   row 0x2041 0x01 0x08 .u64 .ro .any rO rNone 0 none 1 false, -- TILE_REPEAT2
   row 0x2042 0x01 0x08 .u64 .ro .any rO rNone 0 none 1 false, -- TILE_WIDE
   row 0x2043 0x01 0x08 .u64 .ro .any rO rNone 0 none 1 false, -- ACC_CONFLICT
   row 0x2044 0x01 0x08 .u64 .ro .any rO rNone 0 none 1 false, -- ACC_UNOWNED
   row 0x2045 0x01 0x08 .u64 .ro .any rO rNone 0 none 1 false, -- ACC_UNDRAINED
   row 0x2046 0x01 0x08 .u64 .ro .any rO rNone 0 none 1 false, -- DESC_INVALID
   row 0x204F 0x00 0x00 .u32 .w1c .any rO rNone 0 none 0 false, -- ARRAY_COUNTER_CLEAR
   row 0x2050 0x01 0x08 .u64 .ro .any rO rNone 0 none 1 false, -- XFER_FAULT
   row 0x2051 0x01 0x08 .u64 .ro .any rO rNone 0 none 1 false, -- XFER_SHORT
   row 0x2052 0x01 0x08 .u64 .ro .any rO rNone 0 none 1 false, -- XFER_CUT
   row 0x2053 0x01 0x08 .u64 .ro .any rO rNone 0 none 1 false, -- RING_DROP
   row 0x2054 0x01 0x08 .u64 .ro .any rO rNone 0 none 1 false, -- SEM_OVERFLOW
   row 0x2055 0x01 0x08 .u64 .ro .any rO rNone 0 none 1 false, -- RING_OVERRUN
   row 0x2056 0x01 0x08 .u64 .ro .any rO rNone 0 none 1 false, -- RESUME_IGNORED
   row 0x205F 0x00 0x00 .u32 .w1c .any rO rNone 0 none 0 false, -- XFER_COUNTER_CLEAR
   row 0x2100 0x00 0x00 (.bytes 128) .wo .managerOnly rO rNone 0 none 0 false, -- BASE_ORDER
   row 0x2100 0x01 0x01 .u16 .wo .managerOnly rO rNone 0 none 0 false, -- BASE_ABORT
   row 0x2100 0x02 0x02 .u16 .wo .managerOnly rO rNone 0 none 0 false, -- BASE_RETIRE
   row 0x2101 0x01 0x08 .u8 .ro .any rO rNone 0 none 0 false, -- BASE_PHASE
   row 0x2102 0x01 0x08 .u64 .ro .any rO rNone 0 none 0 false, -- BASE_LIVE
   row 0x2103 0x01 0x08 .u64 .ro .any rO rNone 0 none 0 false, -- BASE_SWITCH_AT
   row 0x2104 0x00 0x00 .array .ro .any rO rNone 0 none 0 false, -- BASE_JOURNAL
   row 0x2105 0x00 0x00 .u16 .rw .any rO rNone 512 (some (64, 2048)) 0 false, -- STAGE_RATE
   row 0x2105 0x01 0x01 .u32 .rw .any rO rNone 120000 none 0 false, -- QUIESCE_FRAMES
   row 0x2105 0x02 0x02 .u16 .rw .any rO rNone 2048 none 0 false, -- CHECK_ROWS
   row 0x2105 0x03 0x03 .u32 .rw .any rO rNone 200000 none 0 false, -- CHECK_FRAMES
   row 0x2105 0x04 0x04 .u16 .rw .any rO rNone 200 (some (1, 2000)) 0 false, -- SWITCH_FENCE
   row 0x2106 0x00 0x00 .f32 .rw .any rO rNone 0x3D4CCCCD none 0 false, -- CHECK_TOL_LP
   row 0x2106 0x01 0x01 .f32 .rw .any rO rNone 0x3CA3D70A none 0 false, -- CHECK_TOL_MATCH
   row 0x2106 0x02 0x02 .u8 .rw .any rO rNone 0 (some (0, 1)) 0 false] -- NO_CHECK_SET

/-- Entry rows, part 3. -/
def dictRows3 : List Entry :=
  [row 0x2110 0x00 0x00 .u64 .ro .any rO rNone 0 none 1 false, -- BASE_SWITCHES
   row 0x2110 0x01 0x01 .u64 .ro .any rO rNone 0 none 1 false, -- BASE_ABANDONED
   row 0x2110 0x02 0x02 .u64 .ro .any rO rNone 0 none 1 false, -- VARIANTS_CARRIED
   row 0x2110 0x03 0x03 .u64 .ro .any rO rNone 0 none 1 false, -- VARIANTS_KEPT
   row 0x2110 0x04 0x04 .u64 .ro .any rO rNone 0 none 1 false, -- REQUESTS_SWITCHED
   row 0x211F 0x00 0x00 .u32 .w1c .any rO rNone 0 none 0 false, -- BASE_COUNTER_CLEAR
   row 0x3001 0x00 0x00 .u16 .rw .any rI rNone 41558 none 0 false, -- INTAKE_UDP_PORT
   row 0x3002 0x01 0x02 (.bytes 4) .rw .any rI rNone 0 none 0 false, -- IPV4_ADDR
   row 0x3003 0x01 0x02 (.bytes 16) .rw .any rI rNone 0 none 0 false, -- IPV6_ADDR
   row 0x3004 0x00 0x00 .u32 .rw .any rO rNone 20000 (some (100, 2000000)) 0 false, -- REPLAY_HORIZON
   row 0x3004 0x01 0x01 .u16 .rw .any rO rNone 4096 none 0 false, -- REPLAY_ENTRIES
   row 0x3004 0x02 0x02 .u32 .rw .any rO rNone 64 (some (8, 65536)) 0 false, -- INTAKE_RING_ENTRIES
   row 0x3005 0x00 0x00 .u16 .rw .any rO rNone 200 none 0 false, -- REASSEMBLY_FRAMES
   row 0x3006 0x00 0x00 .u32 .rw .any rO rNone 200 none 0 false, -- ADMIT_WAIT
   row 0x3007 0x00 0x00 .u16 .rw .any rO rNone 256 (some (16, 512)) 0 false, -- PREFILL_CHUNK
   row 0x3008 0x00 0x00 .u16 .rw .any rO rNone 8 none 0 false, -- SLIP_SLOTS
   row 0x3009 0x00 0x00 .u8 .ro .any rO rNone 0 none 0 false, -- KV_FORMAT
   row 0x3020 0x01 0x08 .array .rw .any rO rNone 0 none 0 false, -- TOKEN_SHARE
   row 0x3021 0x01 0x08 .array .rw .any rO rNone 0 none 0 false, -- PREFILL_SHARE
   row 0x3022 0x01 0x08 .array .rw .any rO rNone 0 none 0 false, -- KV_QUOTA
   row 0x3030 0x00 0x00 .u64 .ro .any rO rNone 0 none 1 false, -- ENVELOPES_ACCEPTED
   row 0x3030 0x01 0x01 .u64 .ro .any rO rNone 0 none 1 false, -- ENVELOPES_DROPPED
   row 0x3030 0x02 0x02 .u64 .ro .any rO rNone 0 none 1 false, -- AUTH_FAILED
   row 0x3030 0x03 0x03 .u64 .ro .any rO rNone 0 none 1 false, -- NOTICES
   row 0x3030 0x04 0x04 .u64 .ro .any rO rNone 0 none 1 false, -- ADMITTED
   row 0x3030 0x05 0x05 .u64 .ro .any rO rNone 0 none 1 false, -- REFUSED
   row 0x3030 0x06 0x06 .u64 .ro .any rO rNone 0 none 1 false, -- TOKENS_GENERATED
   row 0x3030 0x07 0x07 .u32 .ro .any rO rNone 0 none 0 false, -- SEQUENCES_ACTIVE
   row 0x3030 0x08 0x08 .u64 .ro .any rO rNone 0 none 1 false, -- SLIPPED
   row 0x3030 0x09 0x09 .u64 .ro .any rO rNone 0 none 1 false, -- KV_SAT
   row 0x3030 0x0A 0x0A .u64 .ro .any rO rNone 0 none 1 false, -- POOL_WAIT
   row 0x303F 0x00 0x00 .u32 .w1c .any rO rNone 0 none 0 false, -- GEN_COUNTER_CLEAR
   row 0x3100 0x00 0x00 .u16 .ro .any rOI rNone 4096 none 0 false, -- INKWELL_SLOTS
   row 0x3100 0x01 0x01 .u16 .ro .any rO rNone 0 none 0 false, -- SLOTS_FREE
   row 0x3101 0x01 0x08 .u32 .ro .any rO rNone 0 none 0 false, -- INKWELL_BASE
   row 0x3102 0x00 0x00 .array .ro .any rO rNone 0 none 4 false, -- SLOT_TABLE
   row 0x3103 0x00 0x00 .u16 .rw .any rO rNone 32 (some (1, 64)) 0 false, -- FILL_PER_FRAME
   row 0x3104 0x00 0x00 .u32 .rw .any rO rNone 2000 none 0 false, -- PARK_LIMIT
   row 0x3105 0x00 0x00 .u8 .rw .any rO rNone 2 (some (0, 6)) 0 false, -- FILL_RETRIES
   row 0x3110 0x00 0x00 .u32 .ro .any rO rNone 0 none 0 false] -- VARIANTS_REGISTERED

/-- Entry rows, part 4. -/
def dictRows4 : List Entry :=
  [row 0x3111 0x00 0x00 .u32 .wo .any rO rNone 0 none 0 false, -- WITHDRAW_VARIANT
   row 0x3112 0x00 0x00 .u16 .wo .any rO rNone 0 none 0 false, -- WITHDRAW_TENANT
   row 0x3120 0x01 0x08 .array .rw .any rO rNone 0 none 0 false, -- SLOT_RESERVE
   row 0x3130 0x00 0x00 .u64 .ro .any rO rNone 0 none 1 false, -- SLOT_CLAIMS
   row 0x3130 0x01 0x01 .u64 .ro .any rO rNone 0 none 1 false, -- SLOT_LOST
   row 0x3130 0x02 0x02 .u64 .ro .any rO rNone 0 none 1 false, -- EVICTIONS
   row 0x3130 0x03 0x03 .u64 .ro .any rO rNone 0 none 1 false, -- FILLS
   row 0x3130 0x04 0x04 .u64 .ro .any rO rNone 0 none 1 false, -- FILL_FAILED
   row 0x3130 0x05 0x05 .u64 .ro .any rO rNone 0 none 1 false, -- PARKED_FRAMES
   row 0x3130 0x06 0x06 .u64 .ro .any rO rNone 0 none 1 false, -- WITHDRAWN_REQUESTS
   row 0x3130 0x07 0x07 .u64 .ro .any rO rNone 0 none 1 false, -- UNAVAILABLE_REQUESTS
   row 0x3130 0x08 0x08 .u64 .ro .any rO rNone 0 none 1 false, -- RESERVE_REFUSALS
   row 0x3130 0x09 0x09 .u64 .ro .any rO rNone 0 none 1 false, -- UNPIN_IGNORED
   row 0x313F 0x00 0x00 .u32 .w1c .any rO rNone 0 none 0 false, -- VARIANT_COUNTER_CLEAR
   row 0x4000 0x00 0x00 .u8 .rw .any rI rNone 0 (some (0, 1)) 0 false, -- ROLE
   row 0x4000 0x01 0x01 .u8 .ro .any rOI rNone 0 none 0 false, -- ROLE_ACTIVE
   row 0x4001 0x00 0x00 .u32 .ro .any rOI rNone 0xFFFFFFFF none 0 false, -- DEVICE_NUMBER
   row 0x4001 0x01 0x01 .u8 .ro .any rOI rNone 0 none 0 false, -- DEVICE_EPOCH
   row 0x4002 0x00 0x00 .u32 .ro .any rOI rNone 0 none 0 false, -- MGR_TERM
   row 0x4002 0x01 0x01 .u32 .rw .managerOnly rI rNone 0xFFFFFFFF none 0 false, -- STANDBY
   row 0x4002 0x02 0x02 .u32 .rw .any rI rNone 200 none 0 false, -- MANAGER_TIMEOUT
   row 0x4003 0x00 0x00 .array .rw .managerOnly rI rNone 0 none 0 false, -- WIRING_MAP
   row 0x4003 0x01 0x01 .u8 .ro .any rI rNone 0 none 0 false, -- WIRING_STATE
   row 0x4004 0x00 0x00 .u32 .ro .any rOI rNone 0 none 0 false, -- RELAY_PARENT
   row 0x4004 0x01 0x01 .u8 .ro .any rOI rNone 0 none 0 false, -- RELAY_DEPTH
   row 0x4005 0x00 0x00 .array .ro .any rOI rNone 0 none 0 false, -- ROUTE_TABLE
   row 0x4005 0x01 0x01 .array .ro .any rO rNone 0 none 0 false, -- EXPORT_TABLE
   row 0x4006 0x00 0x00 .u64 .ro .any rOI rNone 0 none 0 false, -- TOPOLOGY_AT
   row 0x4007 0x00 0x00 .u32 .ro .any rI rNone 0 none 0 false, -- ISOLATED_DEVICES
   row 0x4008 0x01 0x08 (.bytes 32) .ro .any rOI rNone 0 none 0 false, -- APP_PLACEMENT
   row 0x4010 0x01 0x10 .u8 .rw .any rI rNone 1 (some (0, 2)) 0 false, -- PORT_MODE
   row 0x4011 0x01 0x10 .u8 .ro .any rOI rNone 0 none 0 false, -- PORT_STATE
   row 0x4012 0x01 0x10 .u8 .ro .any rI rNone 0 none 0 false, -- PORT_MEDIUM
   row 0x4013 0x01 0x10 .u32 .ro .any rOI rNone 0 none 0 false, -- PORT_PEER
   row 0x4014 0x01 0x10 .u32 .ro .any rOI rNone 0 none 0 false, -- LINK_DELAY
   row 0x4015 0x01 0x10 .u8 .wo .any rOI rNone 0 (some (1, 3)) 0 false, -- PORT_RETRAIN
   row 0x4016 0x00 0x00 .u8 .rw .any rI rNone 3 none 0 false, -- RETRAIN_LIMIT
   row 0x4016 0x01 0x01 .u32 .rw .any rI rNone 2000 none 0 false, -- PORT_RETRY_FRAMES
   row 0x4016 0x02 0x02 .u32 .rw .any rI rNone 16 none 0 false, -- FEC_RETRAIN_THRESHOLD
   row 0x4017 0x00 0x00 .u32 .rw .any rO rNone 85000 none 0 false] -- REMOTE_TIMEOUT

/-- Entry rows, part 5. -/
def dictRows5 : List Entry :=
  [row 0x4017 0x01 0x01 .u8 .rw .any rO rNone 3 none 0 false, -- HANDOFF_RETRIES
   row 0x4018 0x01 0x02 (.bytes 6) .ro .any rI rNone 0 none 0 false, -- MAC_ADDR
   row 0x4020 0x01 0x10 .u64 .ro .any rO rNone 0 none 1 false, -- FEC_CORRECTED
   row 0x4021 0x01 0x10 .u64 .ro .any rO rNone 0 none 1 false, -- FEC_UNCORRECTED
   row 0x4022 0x01 0x10 .u64 .ro .any rO rNone 0 none 1 false, -- REPLAYS
   row 0x4023 0x01 0x10 .u64 .ro .any rO rNone 0 none 1 false, -- RETRAINS
   row 0x4024 0x01 0x10 .u64 .ro .any rO rNone 0 none 1 false, -- PORT_DROP
   row 0x4025 0x00 0x00 .u64 .ro .any rO rNone 0 none 1 false, -- HOP_EXPIRED
   row 0x4025 0x01 0x01 .u64 .ro .any rO rNone 0 none 1 false, -- EPOCH_DROP
   row 0x4025 0x02 0x02 .u64 .ro .any rO rNone 0 none 1 false, -- BAD_MKIND
   row 0x402F 0x00 0x00 .u32 .w1c .any rO rNone 0 none 0 false, -- LIG_COUNTER_CLEAR
   row 0x5010 0x00 0x00 .u8 .rw .any rO rNone 2 (some (0, 6)) 0 false, -- HEADROOM_DEFAULT
   row 0x5010 0x01 0x01 .u8 .rw .any rO rNone 6 (some (2, 6)) 0 false, -- HEADROOM_MAX
   row 0x5011 0x00 0x00 .u16 .rw .any rO rNone 64 (some (1, 1024)) 0 false, -- BUMP_STEPS
   row 0x5012 0x00 0x00 .u8 .rw .any rO rNone 16 (some (1, 31)) 0 false, -- COLD_STEPS
   row 0x5012 0x01 0x01 .u8 .rw .any rO rNone 3 (some (2, 6)) 0 false, -- COLD_HEADROOM
   row 0x5013 0x00 0x00 .u16 .rw .any rO rNone 256 (some (16, 511)) 0 false, -- SPREAD_DECAY
   row 0x5014 0x00 0x00 .bool .rw .any rO rNone 1 none 0 false, -- ADAPT_DECODE
   row 0x5014 0x01 0x01 .bool .rw .any rO rNone 1 none 0 false, -- ADAPT_TRAINING
   row 0x5016 0x00 0x00 .u32 .rw .any rO rNone 0 none 0 false, -- NUM_SEED
   row 0x5018 0x00 0x00 .u16 .wo .any rO rNone 0 none 0 false, -- DAMPER_RESET
   row 0x5020 0x01 0x08 .array .ro .any rO rNone 0 none 0 false, -- STREAM_RECORDS
   row 0x5030 0x01 0x08 .u64 .ro .any rO rNone 0 none 1 false, -- SAT_COUNT
   row 0x5031 0x01 0x08 .u64 .ro .any rO rNone 0 none 1 false, -- NUM_NAN
   row 0x5032 0x01 0x08 .u64 .ro .any rO rNone 0 none 1 false, -- HR_CEILING
   row 0x5033 0x01 0x08 .u64 .ro .any rO rNone 0 none 1 false, -- COLD_STEPS_RUN
   row 0x5040 0x00 0x00 .bool .rw .any rO rNone 1 none 0 false, -- TRACER_ENABLE
   row 0x5040 0x01 0x01 .u8 .rw .any rO rNone 12 (some (8, 16)) 0 false, -- TRACER_RATE_LOG
   row 0x5040 0x02 0x02 .u8 .rw .any rO rNone 7 (some (1, 31)) 0 false, -- TRACER_BOUND
   row 0x5041 0x01 0x08 .u64 .ro .any rO rNone 0 none 1 false, -- TRACER_SAMPLED
   row 0x5042 0x01 0x08 .u64 .ro .any rO rNone 0 none 1 false, -- TRACER_DISAGREE
   row 0x504F 0x00 0x00 .u32 .w1c .any rO rNone 0 none 0 false, -- NUM_COUNTER_CLEAR
   row 0x6000 0x00 0x00 .u16 .ro .any rO rNone 0 none 0 false, -- TRAIN_JOBS
   row 0x6001 0x00 0x00 .u16 .ro .any rO rNone 0 none 0 false, -- TRAIN_CHUNK
   row 0x6002 0x00 0x00 .u8 .ro .any rO rNone 0 none 0 false, -- KEEP_LAYERS
   row 0x6003 0x00 0x00 .u8 .ro .any rO rNone 0 none 0 false, -- BACKWARD_MODE
   row 0x6008 0x01 0x08 .array .rw .any rO rNone 0 none 0 false, -- TRAIN_SHARE
   row 0x6009 0x00 0x00 .u16 .rw .any rO rNone 512 none 0 false, -- TRAIN_SLIP_ROWS
   row 0x600A 0x00 0x00 .u32 .rw .any rO rNone 20000 none 0 false, -- REWARD_WAIT
   row 0x600B 0x00 0x00 .u32 .rw .any rO rNone 65536 none 0 false] -- LEDGER_ENTRIES

/-- Entry rows, part 6. -/
def dictRows6 : List Entry :=
  [row 0x600C 0x00 0x00 .u32 .rw .any rO rNone 20000 none 0 false, -- EVAL_FRAMES
   row 0x6010 0x00 0x00 .u64 .ro .any rO rNone 0 none 1 false, -- STEPS_DONE
   row 0x6010 0x01 0x01 .u64 .ro .any rO rNone 0 none 1 false, -- STEPS_EMPTY
   row 0x6010 0x02 0x02 .u64 .ro .any rO rNone 0 none 1 false, -- STEPS_ABANDONED
   row 0x6010 0x03 0x03 .u64 .ro .any rO rNone 0 none 1 false, -- GROUPS_DROPPED
   row 0x6010 0x04 0x04 .u64 .ro .any rO rNone 0 none 1 false, -- TRAIN_SLIPPED
   row 0x6010 0x05 0x05 .u64 .ro .any rO rNone 0 none 1 false, -- EVALS_DONE
   row 0x601F 0x00 0x00 .u32 .w1c .any rO rNone 0 none 0 false, -- TRAIN_COUNTER_CLEAR
   row 0x6020 0x00 0x00 .u8 .rw .roOnWorker rO rNone 1 (some (0, 2)) 0 false, -- SNAP_POLICY
   row 0x6020 0x01 0x01 .u32 .rw .any rO rNone 120000 none 0 false, -- SNAP_FIXED_FRAMES
   row 0x6020 0x02 0x02 .u32 .rw .any rO rNone 2000 none 0 false, -- SNAP_MIN_FRAMES
   row 0x6020 0x03 0x03 .u32 .rw .any rO rNone 1200000 none 0 false, -- SNAP_MAX_FRAMES
   row 0x6020 0x04 0x04 .u16 .rw .any rO rNone 64 (some (4, 4096)) 0 false, -- UNSECURED_LIMIT
   row 0x6020 0x05 0x05 .u16 .rw .any rO rNone 512 (some (64, 2048)) 0 false, -- SNAP_RATE
   row 0x6020 0x06 0x06 .u16 .rw .any rO rNone 100 (some (0, 300)) 0 false, -- SNAP_BOOST
   row 0x6020 0x07 0x07 .u32 .rw .any rO rNone 20000 none 0 false, -- SNAP_TIMEOUT
   row 0x6021 0x00 0x00 .u32 .rw .any rI rNone 25000 none 0 false, -- LAMBDA_DEFAULT
   row 0x6021 0x01 0x01 .u32 .rw .any rI rNone 100000 none 0 false, -- LAMBDA_PRIOR_HOURS
   row 0x6021 0x02 0x02 .u32 .rw .any rI rNone 8760 none 0 false, -- LAMBDA_WINDOW
   row 0x6022 0x00 0x00 .f32 .ro .any rO rNone 0 none 0 false, -- SNAP_COST
   row 0x6022 0x01 0x01 .f32 .ro .any rO rNone 0 none 0 false, -- SNAP_LAMBDA
   row 0x6022 0x02 0x02 .u32 .ro .any rO rNone 0 none 0 false, -- SNAP_INTERVAL
   row 0x6023 0x00 0x00 .u32 .ro .any rOI rNone 0 none 0 false, -- BUDDY
   row 0x6023 0x01 0x01 .bool .rw .any rI rNone 0 none 0 false, -- NET_TARGET_ENABLE
   row 0x6023 0x02 0x02 (.bytes 18) .rw .any rI rNone 0 none 0 false, -- NET_TARGET
   row 0x6024 0x00 0x00 .u8 .ro .any rO rNone 0 none 0 false, -- SNAP_STATE
   row 0x6024 0x01 0x01 .u64 .ro .any rO rNone 0 none 0 false, -- LAST_COMPLETE
   row 0x6025 0x00 0x00 .bool .wo .any rO rNone 0 none 0 false, -- SNAP_NOW
   row 0x6025 0x01 0x01 .bool .wo .any rO rNone 0 none 0 false, -- RESTORE_NOW
   row 0x6030 0x00 0x00 .u8 .rw .any rO rNone 1 (some (1, 3)) 0 false, -- CLIP_MODE_DEFAULT
   row 0x6030 0x01 0x01 .f32 .rw .any rO rNone 0x3F800000 none 0 false, -- CLIP_NORM_DEFAULT
   row 0x6040 0x00 0x00 .u8 .rw .any rO rNone 2 (some (0, 8)) 0 false, -- LATE_AGE
   row 0x6040 0x01 0x01 .u16 .rw .any rO rNone 4 (some (1, 1000)) 0 false, -- LATE_GRACE
   row 0x6040 0x02 0x02 .u32 .rw .roOnWorker rI rNone 20 none 0 false, -- LOSS_FRAMES
   row 0x6041 0x00 0x00 .array .ro .any rO rNone 0 none 0 false, -- LATE_MANIFEST
   row 0x6042 0x01 0x08 .u8 .ro .any rO rNone 0 none 0 false, -- REDUCE_DEPTH
   row 0x6048 0x00 0x00 .u64 .ro .any rO rNone 0 none 1 false, -- LATE_MISSING
   row 0x6048 0x01 0x01 .u64 .ro .any rO rNone 0 none 1 false, -- LATE_FOLDED
   row 0x6048 0x02 0x02 .u64 .ro .any rO rNone 0 none 1 false, -- LATE_DROPPED_AGE
   row 0x6048 0x03 0x03 .u64 .ro .any rO rNone 0 none 1 false] -- LATE_DROPPED_SWITCH

/-- Entry rows, part 7. -/
def dictRows7 : List Entry :=
  [row 0x6048 0x04 0x04 .u64 .ro .any rO rNone 0 none 1 false, -- LATE_LOST
   row 0x6048 0x05 0x05 .u64 .ro .any rO rNone 0 none 1 false, -- NORM_MISSING
   row 0x6048 0x06 0x06 .u64 .ro .any rO rNone 0 none 1 false, -- LATE_DISCARDED
   row 0x6048 0x07 0x07 .u64 .ro .any rOI rNone 0 none 1 false, -- DEVICES_LOST
   row 0x604F 0x00 0x00 .u32 .w1c .any rO rNone 0 none 0 false, -- LATE_COUNTER_CLEAR
   row 0x6050 0x00 0x00 .u64 .ro .any rO rNone 0 none 1 false, -- UPDATES_DONE
   row 0x6050 0x01 0x01 .u64 .ro .any rO rNone 0 none 1 false, -- FLIPS
   row 0x6050 0x02 0x02 .u64 .ro .any rO rNone 0 none 1 false, -- FLIPS_DROPPED
   row 0x6050 0x03 0x03 .u64 .ro .any rO rNone 0 none 1 false, -- UPDATE_NUMERIC
   row 0x6050 0x04 0x04 .u64 .ro .any rO rNone 0 none 1 false, -- SCRIBE_HELD
   row 0x6050 0x05 0x05 .u64 .ro .any rO rNone 0 none 1 false, -- SCRIBE_LIMIT_WAIT
   row 0x6050 0x06 0x06 .u64 .ro .any rO rNone 0 none 1 false, -- SNAPS_COMPLETE
   row 0x6050 0x07 0x07 .u64 .ro .any rO rNone 0 none 1 false, -- SNAPS_INTERRUPTED
   row 0x6050 0x08 0x08 .u64 .ro .any rO rNone 0 none 1 false, -- RESTORES
   row 0x605F 0x00 0x00 .u32 .w1c .any rO rNone 0 none 0 false, -- SCRIBE_COUNTER_CLEAR
   row 0x7000 0x00 0x00 .u16 .ro .any rOIM rNone 2048 none 0 false, -- EVENT_SOURCES
   row 0x7001 0x00 0x00 .array .rw .any rO rNone 0 none 1 false, -- SOURCE_REG
   row 0x7002 0x00 0x00 .array .ro .any rO rNone 0 none 1 false, -- SOURCE_STATE
   row 0x7003 0x01 0x08 .u8 .rw .any rO rNone 2 (some (0, 14)) 0 false, -- CP_THRESHOLD
   row 0x7004 0x00 0x00 .u64 .ro .any rO rNone 0 none 1 false, -- EVENTS_RAISED
   row 0x7004 0x01 0x01 .u64 .ro .any rO rNone 0 none 1 false, -- EVENTS_COALESCED
   row 0x7004 0x02 0x02 .u64 .ro .any rO rNone 0 none 1 false, -- EVENTS_LOST
   row 0x7004 0x03 0x03 .u64 .ro .any rO rNone 0 none 1 false, -- ESCALATIONS
   row 0x7004 0x04 0x04 .u64 .ro .any rO rNone 0 none 1 false, -- DOORBELL_BAD
   row 0x7004 0x05 0x05 .u64 .ro .any rO rNone 0 none 1 false, -- RING_TENANT_DROP
   row 0x700F 0x00 0x00 .u32 .w1c .any rO rNone 0 none 0 false, -- EVENT_COUNTER_CLEAR
   row 0x7010 0x00 0x00 .u32 .ro .any rOIM rNone 32768 none 0 false, -- RINGS
   row 0x7011 0x00 0x00 .array .ro .any rO rNone 0 none 4 false, -- RING_CONTEXT
   row 0x7020 0x00 0x00 .u16 .rw .any rO rNone 8 none 0 false, -- SCRUB_AGE
   row 0x7040 0x00 0x00 .array .ro .any rO rNone 0 none 1 false, -- REPORTS
   row 0x8000 0x00 0x00 .u16 .ro .any rO rNone 0 none 0 false, -- KEY_SLOTS_USED
   row 0x8001 0x00 0x00 .array .ro .any rO rNone 0 none 0 false, -- KEY_SLOT_STATUS
   row 0x8002 0x00 0x00 (.bytes 6) .wo .managerOnly rO rNone 0 none 0 false, -- TENANT_ADD
   row 0x8002 0x01 0x01 .u16 .wo .managerOnly rO rNone 0 none 0 false, -- TENANT_REMOVE
   row 0x8003 0x00 0x00 .u32 .rw .any rO rNone 20000 none 0 false, -- KEY_ROTATE_FRAMES
   row 0x8004 0x00 0x00 .u32 .ro .any rOIM rNone 0 none 0 false, -- SVN_FLOOR
   row 0x8004 0x01 0x01 .u32 .ro .any rOIM rNone 0 none 0 false, -- FW_SVN
   row 0x8004 0x02 0x02 .u32 .rw .managerOnly rI rNone 0 none 0 false, -- SYSTEM_MIN_SVN
   row 0x8005 0x00 0x00 (.bytes 4096) .ro .any rOIM rNone 0 none 0 false, -- IDENTITY_CERT
   row 0x8010 0x01 0x08 .u8 .ro .any rO rNone 0 none 0 false] -- TDI_STATE

/-- Entry rows, part 8. -/
def dictRows8 : List Entry :=
  [row 0x8100 0x00 0x00 .u32 .rw .any rO rNone 0x1F none 0 false, -- DEBUG_POLICY
   row 0x8100 0x01 0x01 .u8 .wo .managerOnly rO rNone 0 none 0 false, -- DEBUG_HALT
   row 0x8100 0x02 0x02 .u32 .wo .managerOnly rO rNone 0 none 0 false, -- DEBUG_STEP
   row 0x8100 0x03 0x03 .u8 .wo .managerOnly rO rNone 0 none 0 false, -- DEBUG_RESUME
   row 0x8101 0x01 0x08 .u64 .ro .any rO rNone 0 none 0 false, -- HALTED_TOTAL
   row 0x8110 0x00 0x00 (.bytes 16) .wo .any rO rNone 0 none 0 false, -- VIEW_REQUEST
   row 0x8110 0x01 0x01 (.bytes 288) .ro .any rO rNone 0 none 0 false, -- VIEW_RESULT
   row 0x8120 0x00 0x00 .array .ro .any rO rNone 0 none 2 false, -- TENANT_TIMING
   row 0x8150 0x00 0x00 .u16 .rw .any rO rNone 256 (some (64, 1024)) 0 false, -- SCRUB_RATE
   row 0x8160 0x00 0x00 .u64 .ro .any rO rNone 0 none 1 false, -- FRAMES_SCRUBBED
   row 0x8160 0x01 0x01 .u64 .ro .any rO rNone 0 none 1 false, -- KEY_CMD_REFUSED
   row 0x8160 0x02 0x02 .u64 .ro .any rO rNone 0 none 1 false, -- VERSION_TREE_FAULT
   row 0x8160 0x03 0x03 .u64 .ro .any rO rNone 0 none 1 false, -- TDI_DISCARDS
   row 0x816F 0x00 0x00 .u32 .w1c .any rO rNone 0 none 0 false, -- SEC_COUNTER_CLEAR
   row 0x8200 0x00 0x00 .array .ro .any rOIM rNone 0 none 0 false, -- SESSIONS
   row 0x8201 0x00 0x00 .u8 .rw .any rI rNone 16 (some (1, 16)) 0 false, -- SESSION_MAX
   row 0x8201 0x01 0x01 .u32 .rw .any rI rNone 120000 (some (2000, 20000000)) 0 false, -- SESSION_IDLE
   row 0x8202 0x01 0x01 (.bytes 96) .wo .any rOI rNone 0 none 0 true, -- PASSWORD_SET
   row 0x8202 0x02 0x02 (.bytes 96) .wo .any rI rNone 0 none 0 true, -- PASSWORD_SET
   row 0x8203 0x01 0x01 .array .rw .any rOI rNone 0 none 0 false, -- ROLE_KEYS
   row 0x8203 0x02 0x02 .array .rw .any rI rNone 0 none 0 false, -- ROLE_KEYS
   row 0x8204 0x00 0x00 .u8 .rw .any rI rNone 5 (some (3, 16)) 0 false, -- AUTH_LIMIT
   row 0x8204 0x01 0x01 .u32 .rw .any rI rNone 120000 none 0 false, -- AUTH_BACKOFF
   row 0x8205 0x00 0x00 .u32 .wo .any rI rNone 0 none 0 false, -- SESSION_CLOSE
   row 0x8210 0x01 0x02 .bool .rw .any rI rNone 1 none 0 false, -- T1S_ENABLE
   row 0x8211 0x01 0x02 .u8 .rw .any rI rNone 1 (some (0, 31)) 0 false, -- T1S_NODE
   row 0x8212 0x00 0x00 .u16 .rw .any rI rNone 41570 none 0 false, -- MGMT_UDP_PORT
   row 0x8213 0x01 0x02 (.bytes 16) .rw .any rI rNone 0 none 0 false, -- MGMT_IPV6
   row 0x8214 0x00 0x00 .bool .rw .any rI rNone 1 none 0 false, -- MAILBOX_ENABLE
   row 0x8220 0x00 0x00 .u64 .ro .any rOI rNone 0 none 1 false, -- AUTH_FAILURES
   row 0x8220 0x01 0x01 .u64 .ro .any rOI rNone 0 none 1 false, -- SESSIONS_OPENED
   row 0x8220 0x02 0x02 .u64 .ro .any rOI rNone 0 none 1 false, -- RECORDS_DROPPED
   row 0x822F 0x00 0x00 .u32 .w1c .any rOI rNone 0 none 0 false, -- SESSION_COUNTER_CLEAR
   row 0x9000 0x00 0x00 .u32 .ro .any rOI rNone 0 none 0 false, -- INPUT_VOLTAGE
   row 0x9000 0x01 0x01 .u32 .ro .any rOI rNone 0 none 0 false, -- INPUT_POWER
   row 0x9001 0x00 0x00 .u32 .rw .any rI rNone 3800 (some (1500, 3800)) 0 false, -- POWER_LIMIT
   row 0x9001 0x01 0x01 .u32 .ro .any rOI rNone 850000 none 0 false, -- HCLK_NOW
   row 0x9001 0x02 0x02 .u32 .ro .any rOI rNone 850000 none 0 false, -- HCLK_FLOOR
   row 0x9002 0x01 0x60 .u8 .ro .any rOI rNone 0 none 0 false, -- DOMAIN_STATE
   row 0x9003 0x01 0x60 .u32 .ro .any rOI rNone 0 none 0 false] -- DOMAIN_POWER

/-- Entry rows, part 9. -/
def dictRows9 : List Entry :=
  [row 0x9004 0x01 0x21 .i32 .ro .any rOI rNone 0 none 0 false, -- SENSOR_TEMP
   row 0x9005 0x01 0x02 .i32 .ro .any rOI rNone 0 none 0 false, -- COLD_PLATE_TEMP
   row 0x9006 0x00 0x00 .i32 .rw .any rI rNone 100000 (some (70000, 105000)) 0 false, -- TJ_THROTTLE
   row 0x9006 0x01 0x01 .i32 .ro .any rOI rNone 115000 none 0 false, -- TJ_TRIP
   row 0x9007 0x00 0x00 .u64 .ro .any rO rNone 0 none 1 false, -- THROTTLE_STEPS
   row 0x9007 0x01 0x01 .u64 .ro .any rO rNone 0 none 1 false, -- THROTTLED_FRAMES
   row 0x9008 0x00 0x00 .array .ro .any rOIM rNone 0 none 0 false, -- KINDLE_TIMES
   row 0x9009 0x00 0x00 (.bytes 4) .wo .any rOI rNone 0 none 0 false, -- RESET_ORDER
   row 0x9009 0x01 0x01 .u64 .ro .any rO rNone 0 none 1 false, -- RESETS_IGNORED
   row 0x900A 0x00 0x00 .array .ro .any rOIM rNone 0 none 0 false, -- SPARES_LEFT
   row 0x900A 0x01 0x01 .u32 .ro .any rOIM rNone 0 none 0 false, -- DEGRADED_CLUSTERS
   row 0x900A 0x02 0x02 .array .ro .any rOIM rNone 0 none 0 false, -- SERVICE_DEFECTS
   row 0x900B 0x00 0x00 .u64 .ro .any rO rNone 0 none 1 false, -- UNIT_EPOCH_DROP
   row 0x900C 0x00 0x00 .u8 .ro .any rOI rNone 0 none 0 false, -- SERVICE_STATE
   row 0x900C 0x01 0x01 .u32 .rw .any rO rNone 20000 none 0 false, -- SERVICE_DRAIN_FRAMES
   row 0x900D 0x00 0x00 .u8 .wo .any rOI rNone 0 (some (0, 31)) 0 false, -- RETRAIN_CHANNEL
   row 0x900D 0x01 0x01 .u32 .rw .any rI rNone 256 none 0 false, -- CHANNEL_RETRAIN_THRESHOLD
   row 0x900D 0x02 0x02 .u16 .rw .any rO rNone 512 (some (64, 2048)) 0 false, -- MIGRATE_RATE
   row 0x900F 0x00 0x00 .u32 .w1c .any rO rNone 0 none 0 false, -- POWER_COUNTER_CLEAR
   row 0xA001 0x00 0x00 .array .ro .any rOI rM 0 none 0 false, -- ASH_READ
   row 0xA002 0x00 0x00 .u64 .ro .any rOI rNone 0 none 0 false, -- ASH_NEXT
   row 0xA003 0x00 0x00 .u16 .rw .any rI rNone 64 (some (8, 1024)) 0 false, -- ASH_RATE
   row 0xA004 0x00 0x00 .u64 .ro .any rOI rNone 0 none 1 false, -- ASH_SUPPRESSED
   row 0xA005 0x00 0x00 .u16 .ro .any rOI rNone 0 none 0 false, -- FIRST_FAULT_COUNT
   row 0xA006 0x00 0x00 .u32 .w1c .any rI rNone 0 none 0 false, -- ASH_CLEAR
   row 0xA007 0x00 0x00 .u8 .ro .any rOI rNone 0 none 0 false, -- GASP_STATE
   row 0xA008 0x00 0x00 .u32 .ro .any rOIM rNone 0 none 0 false, -- START_COUNT
   row 0xF000 0x00 0x00 (.bytes 16384) .rw .any rM rOI 0 none 0 false, -- ACCEPT_KEYS
   row 0xF001 0x00 0x00 .array .rw .any rM rOI 0 none 0 false, -- DEFECT_RECORD
   row 0xF002 0x00 0x00 .array .rw .any rM rI 0 none 0 false, -- FACTORY_CAL
   row 0xF003 0x00 0x00 .u32 .wo .any rM rNone 0 none 0 true, -- MAKER_UNLOCK
   row 0xF004 0x00 0x00 .bool .wo .any rM rNone 0 none 0 false] -- INSTALLER_RESET

/-- Every entry row of the dictionary. -/
def dictRows : List Entry :=
  dictRows0 ++ dictRows1 ++ dictRows2 ++ dictRows3 ++ dictRows4 ++ dictRows5 ++ dictRows6 ++ dictRows7 ++ dictRows8 ++ dictRows9

/-- Entry 0xIIII.SS as one number (R385). -/
def entry (index sub : Nat) : Nat := 256 * index + sub

/-- The row that holds an entry. -/
def entryRow (index sub : Nat) : Option Entry :=
  dictRows.find? (fun e => e.index == index && e.lo ≤ sub && sub ≤ e.hi)

/-- The default value of an entry that holds one number (the Default column; where it gives none, 0: log entry 5) (DEDUCED: log entry 118). -/
def regDefault (key : Nat) : Nat :=
  match entryRow (key / 256) (key % 256) with
  | some e => e.dflt
  | none => 0

end Sys2Proof.Machine
end

