-- ==== Sys2Proof/Machine/Ops.lean ====
section
/-!
DEFINITION. The shared operations: bit fields and byte order, sparse tables, the scalar dictionary entries and counters,
the ash record, firing an event source, and the numbering of units.
-/
namespace Sys2Proof

/-! ## Sparse tables -/

/-- What a table holds under a key; `d` where it lists nothing. -/
def Table.get {α : Type} (t : Table α) (d : α) (k : Nat) : α :=
  match t with
  | [] => d
  | x :: rest => if k = x.1 then x.2 else Table.get rest d k

/-- A table without a key. -/
def Table.erase {α : Type} (t : Table α) (k : Nat) : Table α := t.filter (fun x => decide (x.1 ≠ k))

/-- A table with a key's value put in its place. -/
def Table.put {α : Type} (t : Table α) (k : Nat) (v : α) : Table α :=
  match t with
  | [] => [(k, v)]
  | x :: rest =>
    if x.1 < k then x :: Table.put rest k v
    else (k, v) :: (if x.1 = k then rest else x :: rest)

/-- Writing a table keeps its canonical form: writing what an unlisted key reads as removes the entry. -/
def Table.set {α : Type} [DecidableEq α] (t : Table α) (d : α) (k : Nat) (v : α) : Table α :=
  if v = d then t.erase k else t.put k v

/-- Apply a function to one entry. -/
def Table.modify {α : Type} [DecidableEq α] (t : Table α) (d : α) (k : Nat) (f : α → α) : Table α :=
  t.set d k (f (t.get d k))

/-- A function applied to every listed value. -/
def Table.mapVals {α : Type} [DecidableEq α] (t : Table α) (d : α) (f : α → α) : Table α :=
  t.foldl (fun (r : Table α) x => r.set d x.1 (f x.2)) []

/-- Keys strictly rising from `lo` on, and no entry equal to its default. -/
def Table.wfFrom {α : Type} [DecidableEq α] (d : Nat → α) : Option Nat → Table α → Bool
  | _, [] => true
  | lo, x :: rest => lo.all (fun l => decide (l < x.1)) && decide (x.2 ≠ d x.1) && Table.wfFrom d (some x.1) rest

/-- The canonical form of a table (log entry 2). -/
def Table.wf {α : Type} [DecidableEq α] (d : Nat → α) (t : Table α) : Bool := Table.wfFrom d none t

end Sys2Proof

namespace Sys2Proof.Machine
open Sys2Proof

/-! ## Bits and bytes (R10) -/

/-- Bits [lo + len − 1 : lo] of a word, as a number. -/
def field {n : Nat} (v : BitVec n) (lo len : Nat) : Nat := (v.toNat >>> lo) % 2 ^ len

/-- A word with bits [lo + len − 1 : lo] replaced. -/
def setField {n : Nat} (v : BitVec n) (lo len x : Nat) : BitVec n :=
  BitVec.ofNat n (v.toNat - (field v lo len) <<< lo + (x % 2 ^ len) <<< lo)

/-- The number made of (position, width, value) fields. -/
def packBits : List (Nat × Nat × Nat) → Nat
  | [] => 0
  | (lo, len, x) :: r => (x % 2 ^ len) <<< lo + packBits r

/-- The `n` low bytes of a number, least significant first. -/
def leBytes : Nat → Nat → List Byte
  | 0, _ => []
  | n + 1, v => BitVec.ofNat 8 v :: leBytes n (v / 256)

/-- The number that bytes hold, least significant first. -/
def leNat : List Byte → Nat
  | [] => 0
  | b :: r => b.toNat + 256 * leNat r

/-- A bit of a number. -/
def bit (v k : Nat) : Bool := v.testBit k

/-- 1 for true, 0 for false. -/
def b2n (b : Bool) : Nat := if b then 1 else 0

/-- Two's complement: the integer a `w`-bit number stands for. -/
def toSigned (w v : Nat) : Int := if v % 2 ^ w < 2 ^ (w - 1) then (v % 2 ^ w : Nat) else (v % 2 ^ w : Nat) - (2 ^ w : Nat)

/-- Two's complement: the `w`-bit number of an integer. -/
def ofSigned (w : Nat) (x : Int) : Nat := (x % (2 ^ w : Nat)).toNat

/-- `n` consecutive bytes of a byte memory (DESIGN CHOICE: log entry 9). -/
def readBytes (t : Table Byte) : Nat → Nat → List Byte
  | _, 0 => []
  | a, n + 1 => t.get 0 a :: readBytes t (a + 1) n

/-- Bytes written at consecutive addresses. -/
def writeBytes (t : Table Byte) (a : Nat) : List Byte → Table Byte
  | [] => t
  | b :: r => writeBytes (t.set 0 a b) (a + 1) r

/-! ## The scalar dictionary entries -/

/-- The value of a scalar entry. -/
def reg (d : Dev) (index sub : Nat) : Nat := d.regs.get (regDefault (entry index sub)) (entry index sub)

/-- Set a scalar entry. -/
def setReg (d : Dev) (index sub v : Nat) : Dev :=
  { d with regs := d.regs.set (regDefault (entry index sub)) (entry index sub) v }

/-- Add to a counter (a 64-bit counter's wrap is not dealt with: log entry 6). -/
def bump (d : Dev) (index sub n : Nat) : Dev := setReg d index sub (reg d index sub + n)

/-- Add to the counter of partition `p` (subindexes 0x01 to 0x08). -/
def bumpPart (d : Dev) (index p n : Nat) : Dev := bump d index (p + 1) n

/-- Clear the subindexes `lo` to `lo + n − 1` of an entry. -/
def clearSubs (d : Dev) (index lo : Nat) : Nat → Dev
  | 0 => d
  | n + 1 => clearSubs (setReg d index lo 0) index (lo + 1) n

/-- W1C (R387): for each (bit, index, first sub, count) clear the named counters where the bit is written 1. -/
def clearCounters (d : Dev) (v : Nat) : List (Nat × Nat × Nat × Nat) → Dev
  | [] => d
  | (k, ix, lo, n) :: r => clearCounters (if bit v k then clearSubs d ix lo n else d) v r

/-! ## Frame, role and output -/

/-- hclk since the clock started. -/
def now (d : Dev) : Nat := d.frame.base + d.frame.off

/-- The device is the manager (ROLE_ACTIVE, R293). -/
def isManager (d : Dev) : Bool := reg d 0x4000 0x01 = 1

/-- Time moves on to an hclk offset of the frame; it never moves back (DESIGN CHOICE: log entry 11). -/
def atOff (d : Dev) (off : Nat) : Dev := { d with frame := { d.frame with off := max d.frame.off off } }

/-- Something leaves the device (DESIGN CHOICE: log entry 129). -/
def emit (d : Dev) (x : Out) : Dev := { d with out := x :: d.out }

/-- The length of the frame in hclk (R19). -/
def periodHclk (d : Dev) : Nat := d.pow.mhz * reg d 0x1010 0x00

/-- A slice's length: floor(period × fraction / 1,000) (R21). -/
def sliceLen (period fraction : Nat) : Nat := period * fraction / 1000

/-- Offsets at which the training slice, the housekeeping slice and the guard band begin (R21). -/
def trainStart (d : Dev) : Nat := sliceLen (periodHclk d) (reg d 0x1011 0x01)
def hkStart (d : Dev) : Nat := trainStart d + sliceLen (periodHclk d) (reg d 0x1011 0x02)
def guardStart (d : Dev) : Nat := hkStart d + sliceLen (periodHclk d) (reg d 0x1011 0x03)

/-- A cost raised by REPEAT_RESERVE (R28), to whole hclk. -/
def withReserve (reserve c : Nat) : Nat := (c * (1024 + reserve) + 1023) / 1024

/-- The application of a partition (its lowest partition). -/
def appOfPart (d : Dev) (p : Nat) : Option Nat :=
  match d.mem.appOf.get 0 p with
  | 0 => none
  | a + 1 => some a

/-- The device is READY and may run tasks and take requests. -/
def running (d : Dev) : Bool := d.pow.stage = .ready

/-! ## The ash record (R427 to R430) -/

/-- An ash entry of a kind with the frame in its header and further fields (R428). -/
def ashEntry (d : Dev) (kind : Nat) (rest : List (Nat × Nat × Nat)) : BitVec 512 :=
  BitVec.ofNat 512 (packBits ((0, 8, kind) :: (64, 64, d.frame.no) :: rest))

/-- Append an entry to MAIN, circular over 516,096 entries; MAIN writes stop when a gasp begins (R431). -/
def ashMain (d : Dev) (e : BitVec 512) : Dev :=
  if d.pow.stage = .gasp then d
  else { d with ash := { d.ash with main := d.ash.main.set 0 (d.ash.next % 516096) e, next := d.ash.next + 1 } }

/-- A DEVICE_LOSS entry (R428, R429): device number and STOP_CAUSE, 0 while it is not known. -/
def isLoss (e : BitVec 512) : Bool := field e 0 8 = 0x20
def lossDevice (e : BitVec 512) : Nat := field e 128 32
def lossCause (e : BitVec 512) : Nat := field e 160 8
def ashLoss (d : Dev) (dev cause : Nat) : Dev := ashMain d (ashEntry d 0x20 [(128, 32, dev), (160, 8, cause), (192, 64, d.frame.no)])

/-- The STOP_CAUSE of a lost device becomes known (R429): its entries still at 0 take it. -/
def ashLossCause (d : Dev) (dev cause : Nat) : Dev :=
  { d with ash := { d.ash with main := d.ash.main.mapVals 0 (fun e =>
      if isLoss e && lossDevice e == dev && lossCause e == 0 then setField e 160 8 cause else e) } }

/-- A FAULT entry: MAIN, and FIRST_FAULT while there is room (R427). Source, CODE, unit, address and status as R428 lists. -/
def ashFault (d : Dev) (src code unit addr status : Nat) : Dev :=
  let e := ashEntry d 0x02 [(128, 16, src), (144, 8, code), (152, 32, unit), (192, 64, addr), (256, 32, status)]
  let d := ashMain d e
  if d.ash.firstFault.length < 1024 then
    { d with ash := { d.ash with firstFault := d.ash.firstFault ++ [e] } }
  else d

/-- An EVENT or THROTTLE entry, at most ASH_RATE of them a frame (R430). -/
def ashLimited (d : Dev) (e : BitVec 512) : Dev :=
  if d.ash.perFrame < reg d 0xA003 0x00 then
    ashMain { d with ash := { d.ash with perFrame := d.ash.perFrame + 1 } } e
  else { d with ash := { d.ash with suppressed := d.ash.suppressed + 1 } }

/-! ## Event sources (R412 to R415) -/

/-- The classes of R412. -/
inductive SrcClass where
  | firmware | report | ring
  deriving DecidableEq, Repr

/-- Level and class of a defined source (R412). -/
def srcInfo (n : Nat) : Option (Nat × SrcClass) :=
  if n < 64 then
    match n with
    | 0 => some (15, .firmware) | 1 => some (12, .firmware) | 2 => some (13, .firmware)
    | 3 => some (11, .report) | 4 => some (11, .report) | 5 => some (12, .report) | 6 => some (12, .report)
    | 7 => some (6, .report) | 8 => some (4, .report) | 9 => some (5, .report) | 10 => some (8, .firmware)
    | _ => none
  else if n < 1088 then
    match (n - 64) % 128 with
    | 0 => some (5, .report) | 1 => some (5, .report) | 2 => some (5, .report) | 3 => some (5, .report)
    | 4 => some (5, .report) | 5 => some (4, .report) | 6 => some (5, .report) | 7 => some (5, .report)
    | 8 => some (9, .firmware) | 9 => some (9, .firmware) | 10 => some (9, .firmware) | 11 => some (9, .firmware)
    | 12 => some (6, .report) | 13 => some (6, .report) | 14 => some (6, .report) | 15 => some (6, .report)
    | 16 => some (3, .firmware) | 17 => some (3, .firmware) | 18 => some (4, .report) | 19 => some (10, .firmware)
    | _ => none
  else if n < 1152 then
    match (n - 1088) % 4 with
    | 0 => some (5, .firmware) | 1 => some (5, .report) | 2 => some (6, .report) | _ => none
  else if n < 1184 then some (6, .report)
  else if n = 1184 then some (7, .firmware)
  else if n = 1185 then some (4, .report)
  else if n = 1186 then some (8, .report)
  else if 1280 ≤ n ∧ n < 2048 then some (0, .ring)
  else none

/-- The partition of a source, or 0 (R419); a port's and a channel's are those of their die (log entry 12). -/
def srcPart (n : Nat) : Nat :=
  if 64 ≤ n ∧ n < 1088 then (n - 64) / 128
  else if 1088 ≤ n ∧ n < 1152 then (n - 1088) / 8
  else if 1152 ≤ n ∧ n < 1184 then (n - 1152) / 4
  else 0

/-- The reset value of a source register (R413): LEVEL [3:0], TKIND [5:4], TARGET [11:6], LOG [12], TO_MANAGER [13],
AGE_LIMIT [31:18]. -/
def srcReset (n : Nat) : BitVec 32 :=
  match srcInfo n with
  | none => 0
  | some (lvl, c) =>
    let toMgr := n ≤ 6 ∨ (1088 ≤ n ∧ n < 1152 ∧ ((n - 1088) % 4 = 0 ∨ (n - 1088) % 4 = 2))
    BitVec.ofNat 32 (packBits
      [(0, 4, lvl), (4, 2, if c = .firmware then 0 else 2), (6, 6, if c = .firmware then srcPart n else 0),
       (12, 1, b2n (9 ≤ lvl)), (13, 1, b2n (decide toMgr)), (18, 14, 4)])

/-- A source that nothing has fired yet. -/
def srcIdle (n : Nat) : Source :=
  { reg := srcReset n, next := none, due := false, st := .inactive, coalesced := 0, frame := 0, offset := 0, code := 0,
    arg := 0, since := 0, raised := 0, slot := none }

/-- A source as it stands, and writing it back. -/
def source (d : Dev) (n : Nat) : Source := d.ev.sources.get (srcIdle n) n
def setSource (d : Dev) (n : Nat) (s : Source) : Dev :=
  { d with ev := { d.ev with sources := d.ev.sources.set (srcIdle n) n s } }

/-- The fields of a source register (R413). -/
def Source.level (s : Source) : Nat := field s.reg 0 4
def Source.kind (s : Source) : Nat := field s.reg 4 2
def Source.target (s : Source) : Nat := field s.reg 6 6
def Source.log (s : Source) : Bool := field s.reg 12 1 = 1
def Source.toManager (s : Source) : Bool := field s.reg 13 1 = 1
def Source.ageLimit (s : Source) : Nat := field s.reg 18 14

/-- LEVEL raised by one for each full AGE_LIMIT × 1,024 hclk waited, up to 14; never for LEVEL 0 or 15 (R416). -/
def agedLevel (level limit waited : Nat) : Nat :=
  if level = 0 ∨ level = 15 ∨ limit = 0 then level
  else if 14 ≤ level then level
  else min 14 (level + waited / (limit * 1024))

/-- The effective level of a source (R416): aged only while it is PENDING. -/
def effLevel (d : Dev) (s : Source) : Nat :=
  if s.st = .pending then agedLevel s.level s.ageLimit (now d - s.since) else s.level

/-- The event record of a source about to be taken (R419). -/
def eventRecord (d : Dev) (n : Nat) (s : Source) (lost : Bool) : BitVec 128 :=
  BitVec.ofNat 128 (packBits
    [(0, 11, n), (11, 4, effLevel d s), (15, 1, b2n lost), (16, 8, s.code), (24, 3, srcPart n),
     (27, 5, min 31 s.coalesced), (32, 32, s.frame), (64, 26, s.offset), (96, 32, s.arg)])

/-! ## Ring contexts (R422) -/

/-- A ring context as it reads before firmware writes it: zero, but SHARED is 1. -/
def ringReset : BitVec 256 := BitVec.ofNat 256 (1 <<< 92)

def ring (d : Dev) (n : Nat) : BitVec 256 := d.ev.rings.get ringReset n
def setRing (d : Dev) (n : Nat) (c : BitVec 256) : Dev :=
  { d with ev := { d.ev with rings := d.ev.rings.set ringReset n c } }

/-- Entries of a ring: 2^(SIZE_CODE + 3). -/
def ringSize (c : BitVec 256) : Nat := 2 ^ (field c 68 4 + 3)
def ringLoc (c : BitVec 256) : Nat := field c 64 3
def ringKind (c : BitVec 256) : Nat := field c 72 3
def ringPool (c : BitVec 256) : Bool := field c 75 1 = 1
def ringOwner (c : BitVec 256) : Nat := field c 76 4
def ringTenant (c : BitVec 256) : Nat := field c 80 12
def ringShared (c : BitVec 256) : Bool := field c 92 1 = 1
def ringHead (c : BitVec 256) : Nat := field c 96 17
def ringTail (c : BitVec 256) : Nat := field c 113 17
def ringEnabled (c : BitVec 256) : Bool := field c 130 1 = 1
def ringDbEvent (c : BitVec 256) : Bool := field c 131 1 = 1
def ringSource (c : BitVec 256) : Nat := field c 132 11
def ringPrio (c : BitVec 256) : Nat := field c 144 4
def ringAgeLimit (c : BitVec 256) : Nat := field c 148 12
def ringSlotNo (c : BitVec 256) : Nat := field c 160 16
def ringVf (c : BitVec 256) : Nat := field c 176 4

/-- b − a modulo twice the size: how far index b lies ahead of a. -/
def ringAhead (c : BitVec 256) (a b : Nat) : Nat := (b + 2 * ringSize c - a % (2 * ringSize c)) % (2 * ringSize c)

/-- Entries in the ring: TAIL − HEAD modulo twice the size; empty at 0, full at the size (R422). -/
def ringFill (c : BitVec 256) : Nat := ringAhead c (ringHead c) (ringTail c)
def ringFull (c : BitVec 256) : Bool := ringFill c = ringSize c

/-- The next index. -/
def ringNext (c : BitVec 256) (k : Nat) : Nat := (k + 1) % (2 * ringSize c)

/-- The lowest-numbered ring whose context satisfies a test. -/
def findRing (d : Dev) (p : BitVec 256 → Bool) : Option Nat := (d.ev.rings.find? (fun x => p x.2)).map (·.1)

/-- Doorbells publish or serve entries: the ages kept with them (R425). -/
def ageServe : List (Nat × Nat) → Nat → List (Nat × Nat)
  | [], _ => []
  | (n, t) :: r, k => if k < n then (n - k, t) :: r else ageServe r (k - n)

/-- Write one entry at a ring's TAIL and advance it. -/
def ringPush (d : Dev) (n : Nat) (bytes : List Byte) : Dev :=
  let c := ring d n
  let t := ringTail c
  let d := { d with ev := { d.ev with
    ringData := d.ev.ringData.set [] (n * 131072 + t % ringSize c) bytes
    ringAge := d.ev.ringAge.modify [] n (· ++ [(1, now d)]) } }
  setRing d n (setField c 113 17 (ringNext c t))

/-- The event ring of a target: the lowest-numbered ENABLED ring of kind EVENT that is owned by the processor's partition in
management-die memory, or that lies on the vector's PCIe function with the vector as DB_INDEX (log entry 14). -/
def targetRing (d : Dev) : EventTarget → Option Nat
  | .cp k => findRing d (fun c => ringEnabled c && ringKind c == 4 && ringLoc c == 3 && ringOwner c == k)
  | .vector v =>
    let vf := if v < 8 then 0 else (v - 1) / 7
    findRing d (fun c => ringEnabled c && ringKind c == 4 && ringLoc c == 2 && ringVf c == vf && ringSlotNo c == v)
  | .epell => none

/-- The target's event ring has room (R419); the Epell channel always takes a record. -/
def targetRoom (d : Dev) (t : EventTarget) : Bool :=
  match targetRing d t with
  | some n => !ringFull (ring d n)
  | none => true

/-! ## Firing (R415, R421) -/

/-- A source with a firing merged into an earlier one (R415): a PENDING source stays, an ACTIVE one becomes ACTIVE_PENDING and so stays, each with
COALESCED one up. A merged firing keeps the first one's CODE and ARG (log entry 13). -/
def merged (d : Dev) (s : Source) (code arg : Nat) : Source :=
  match s.st with
  | .active => { s with
      st := .activePending, frame := d.frame.no, offset := d.frame.off, code := code, arg := arg, coalesced := s.coalesced + 1 }
  | _ => { s with coalesced := s.coalesced + 1 }

/-- It is counted. -/
def coalesce (d : Dev) (n code arg : Nat) : Dev :=
  setSource (bump d 0x7004 0x01 1) n (merged d (source d n) code arg)

/-- FATAL fires (R421): a FAULT entry, the EVENT message to the manager, CP0 at level 15 with the record in its event ring and, where LOG
is set, an EVENT entry, and nothing released or admitted from the next edge. The STOP_CAUSE to come is 3 or 4 (R429). A firing
that merges with an earlier one goes with that one's next delivery (DESIGN CHOICE: log entry 138). -/
def fatal (d : Dev) (code : Nat) : Dev :=
  let d := ashFault (bump d 0x7004 0x00 1) 0 code 0 0 0
  let d := { d with
    ash := { d.ash with stopCause := if code = 2 then 4 else 3 }
    pow := { d.pow with fatal := true } }
  if (source d 0).st ≠ .inactive then coalesce d 0 code 0
  else
    let s := { source d 0 with
      st := .active, frame := d.frame.no, offset := d.frame.off, code := code, arg := 0, coalesced := 0, since := now d }
    let r := eventRecord d 0 s false
    let d := emit (setSource d 0 s) (.eventMsg r)
    let d := if s.log then ashLimited d (ashEntry d 0x01 [(128, 128, r.toNat)]) else d
    let d := match targetRing d (.cp 0) with
      | some n => if ringFull (ring d n) then d else ringPush d n (leBytes 16 r.toNat)
      | none => d
    { d with ev := { d.ev with
        handlers := d.ev.handlers.modify [] 0 ((0, 15) :: ·)
        delivered := (r :: d.ev.delivered).take 256 } }

/-- A source fires (R415): counted always; at LEVEL 0 nothing more; INACTIVE becomes PENDING; else the firing merges. -/
def raise (d : Dev) (n code arg : Nat) : Dev :=
  if srcInfo n = none then d
  else if n = 0 then fatal d code
  else
    let d := bump d 0x7004 0x00 1
    let s := source d n
    if s.level = 0 then d
    else
      match s.st with
      | .inactive => setSource d n { s with
          st := .pending, frame := d.frame.no, offset := d.frame.off, code := code, arg := arg, coalesced := 0, since := now d, raised := 0 }
      | _ => coalesce d n code arg

/-- The source k of partition p's block, and of port k (R412). -/
def partSrc (p k : Nat) : Nat := 64 + 128 * p + k
def portSrc (l j : Nat) : Nat := 1088 + 4 * l + j

/-- Write a report into the report store and answer its number (R420). -/
def report (d : Dev) (payload : BitVec 512) : Dev × Nat :=
  ({ d with ev := { d.ev with
      reports := d.ev.reports.set 0 (d.ev.nextReport % 4096) payload, nextReport := d.ev.nextReport + 1 } },
   d.ev.nextReport)

/-- Fire a source whose payload is a report (R420): the report number is its ARG. -/
def raiseReport (d : Dev) (n code : Nat) (payload : BitVec 512) : Dev :=
  let (d, r) := report d payload
  raise d n code (r % 2 ^ 32)

/-! ## Halts (R381) and TENANT_TIMING (R380) -/

def haltIdle : Halt := { at_ := none, resume := none, steps := none, key := none }
def haltOf (d : Dev) (a : Nat) : Halt := d.sec.halts.get haltIdle a
def setHalt (d : Dev) (a : Nat) (h : Halt) : Dev := { d with sec := { d.sec with halts := d.sec.halts.set haltIdle a h } }
/-- HALTED_TOTAL of an application. -/
def haltTotal (d : Dev) (a : Nat) : Nat := reg d 0x8101 (a + 1)
/-- The application is halted in the frame that the next edge begins: no plan of it is released. -/
def haltedNext (d : Dev) (a : Nat) : Bool :=
  let h := haltOf d a
  h.at_ == some (d.frame.no + 1) || (h.key.isSome && h.resume != some (d.frame.no + 1))

/-- Count for a key slot (R380): 0 tokens, 1 prompt tokens, 2 parked frames, 3 slips, 4 late tokens, 5 and 6 envelope bytes in and
out, 7 training rows, 16 + c refusals with code c. -/
def timing (d : Dev) (slot item n : Nat) : Dev :=
  { d with sec := { d.sec with timing := d.sec.timing.modify 0 (64 * slot + item) (· + n) } }

/-! ## Free values and units -/

/-- The next `n` free words (values the manual leaves undefined), and the device with them drawn. -/
def drawWords (d : Dev) (n : Nat) : List Word × Dev :=
  ((List.range n).map (fun k => Config.freeWord (d.fresh + k)), { d with fresh := d.fresh + n })

/-- The next `n` free bytes. -/
def drawBytes (d : Dev) (n : Nat) : List Byte × Dev :=
  ((List.range n).map (fun k => Config.freeByte (d.fresh + k)), { d with fresh := d.fresh + n })

/-- The next free number. -/
def drawNat (d : Dev) : Nat × Dev := (Config.freeNat d.fresh, { d with fresh := d.fresh + 1 })

/-- Cluster and partition of logical Hearth h; partition of cluster c (R2: 8 Hearths a cluster, 4 clusters a partition). -/
def clusterOf (h : Nat) : Nat := h / 8
def partOfHearth (h : Nat) : Nat := h / 32
def partOfCluster (c : Nat) : Nat := c / 4
/-- Cluster of a stream: 4h+q of a Hearth, 1,024+c of a cluster sequencer (R48). -/
def clusterOfStream (s : Nat) : Nat := if s < 1024 then s / 32 else s - 1024

/-- A meaning that acts on the device alone: the queue and what outlives a start stay as they are. -/
def onDev (s : State) (f : Dev → Dev) : Host.Outcome State Fault Refusal := .next { s with dev := f s.dev }

/-- A meaning that acts on the device and on what outlives a start; the queue stays as it is. -/
def onBoth (s : State) (f : Nv → Dev → Nv × Dev) : Host.Outcome State Fault Refusal :=
  let (n, d) := f s.nv s.dev
  .next { s with nv := n, dev := d }

/-- A meaning that first checks the unit numbers a command names. -/
def onDevIf (ok : Bool) (s : State) (f : Dev → Dev) : Host.Outcome State Fault Refusal :=
  if ok then onDev s f else .fault .noSuchUnit

/-- Apply a function to each element in turn. -/
def forEach {α β : Type} (l : List α) (d : β) (f : β → α → β) : β := l.foldl f d

/-- In ascending order of a number; equal ones keep their order. -/
def sortBy {α : Type} (rank : α → Nat) (l : List α) : List α :=
  l.foldr (fun x done => done.takeWhile (fun y => decide (rank y < rank x)) ++ x :: done.dropWhile (fun y => decide (rank y < rank x))) []

end Sys2Proof.Machine
end

