-- ==== Sys2Proof/Machine/Formats.lean ====
section
/-!
DEFINITION. Number formats and exact arithmetic (R42, R72 to R78): codes to exact values, rounding to nearest even, the
FP32 operations of the arrays and the Ductus, and the correctly rounded functions of R105.
-/
namespace Sys2Proof.Machine
open Sys2Proof

/-- An exact value: NaN, an infinity, or (−1)^neg × m × 2^e; m = 0 is a signed zero. -/
inductive Num where
  | nan
  | inf (neg : Bool)
  | fin (neg : Bool) (m : Nat) (e : Int)
  deriving DecidableEq, Repr

/-- The exact value of an integer times 2^e; 0 is +0. -/
def Num.ofInt (x : Int) (e : Int) : Num := .fin (decide (x < 0)) x.natAbs e

def Num.isZero : Num → Bool
  | .fin _ 0 _ => true
  | _ => false

def Num.isFin : Num → Bool
  | .fin _ _ _ => true
  | _ => false

/-- Exact product; 0 × ∞ is NaN. -/
def Num.mul (a b : Num) : Num :=
  match a, b with
  | .nan, _ => .nan
  | _, .nan => .nan
  | .inf s, .inf t => .inf (s != t)
  | .inf s, .fin t m _ => if m = 0 then .nan else .inf (s != t)
  | .fin s m _, .inf t => if m = 0 then .nan else .inf (s != t)
  | .fin s m e, .fin t n f => .fin (s != t) (m * n) (e + f)

def Num.neg : Num → Num
  | .nan => .nan
  | .inf s => .inf (!s)
  | .fin s m e => .fin (!s) m e

def Num.abs : Num → Num
  | .nan => .nan
  | .inf _ => .inf false
  | .fin _ m e => .fin false m e

/-- The signed mantissa of a finite value at exponent `f`, where f ≤ e. -/
def Num.atExp (neg : Bool) (m : Nat) (e f : Int) : Int :=
  let v : Int := (m <<< (e - f).toNat : Nat)
  if neg then -v else v

/-- Exact sum; opposite infinities make NaN, and a zero sum is +0 unless both are −0 (R74). -/
def Num.add (a b : Num) : Num :=
  match a, b with
  | .nan, _ => .nan
  | _, .nan => .nan
  | .inf s, .inf t => if s = t then .inf s else .nan
  | .inf s, .fin _ _ _ => .inf s
  | .fin _ _ _, .inf t => .inf t
  | .fin s m e, .fin t n f =>
    if m = 0 ∧ n = 0 then .fin (s && t) 0 0
    else
      let g := min e f
      .ofInt (Num.atExp s m e g + Num.atExp t n f g) g

/-- Order of exact finite values and infinities by value; −0 and +0 are equal. -/
def Num.lt (a b : Num) : Bool :=
  match a, b with
  | .nan, _ => false
  | _, .nan => false
  | .inf s, .inf t => s && !t
  | .inf s, .fin _ _ _ => s
  | .fin _ _ _, .inf t => !t
  | .fin s m e, .fin t n f =>
    let g := min e f
    decide (Num.atExp s m e g < Num.atExp t n f g)

def Num.le (a b : Num) : Bool :=
  match a, b with
  | .nan, _ => false
  | _, .nan => false
  | a, b => !(Num.lt b a)

/-- m / 2^k rounded to the nearest integer, ties to even. -/
def rneShift (m k : Nat) : Nat :=
  let q := m >>> k
  let r := m % 2 ^ k
  if k = 0 then m
  else if 2 ^ (k - 1) < r ∨ (r = 2 ^ (k - 1) ∧ q % 2 = 1) then q + 1 else q

/-- m × 2^e rounded to the nearest integer, ties to even. -/
def rneInt (m : Nat) (e : Int) : Nat := if 0 ≤ e then m <<< e.toNat else rneShift m (-e).toNat

/-- Rounded to mb + 1 significant bits with least exponent step qmin: mantissa and exponent (R74, R75). -/
def roundBits (mb : Nat) (qmin : Int) (m : Nat) (e : Int) : Nat × Int :=
  if m = 0 then (0, qmin)
  else
    let t : Int := max ((Nat.log2 m : Nat) + e - (mb : Nat)) qmin
    let r := if t ≤ e then m <<< (e - t).toNat else rneShift m (t - e).toNat
    if r = 2 ^ (mb + 1) then (2 ^ mb, t + 1) else (r, t)

/-- A floating format: exponent bits, mantissa bits, bias. -/
structure FpFmt where
  eb : Nat
  mb : Nat
  bias : Nat
  deriving DecidableEq, Repr

def fp32 : FpFmt := ⟨8, 23, 127⟩
def bf16 : FpFmt := ⟨8, 7, 127⟩
def fp16 : FpFmt := ⟨5, 10, 15⟩
def e4m3 : FpFmt := ⟨4, 3, 7⟩
def e5m2 : FpFmt := ⟨5, 2, 15⟩
def e3m2 : FpFmt := ⟨3, 2, 3⟩
def e2m3 : FpFmt := ⟨2, 3, 1⟩
def e2m1 : FpFmt := ⟨2, 1, 1⟩

def FpFmt.qmin (f : FpFmt) : Int := 1 - (f.bias : Nat) - (f.mb : Nat)

/-- The finite value of a code, its top exponent field read as any other (R72). -/
def FpFmt.finite (f : FpFmt) (c : Nat) : Num :=
  let man := c % 2 ^ f.mb
  let ex := (c >>> f.mb) % 2 ^ f.eb
  let s := c.testBit (f.eb + f.mb)
  if ex = 0 then .fin s man f.qmin
  else .fin s (2 ^ f.mb + man) ((ex : Nat) - (f.bias : Nat) - (f.mb : Nat))

/-- An IEEE 754 code: top exponent field for ∞ and NaN (R72, R74). -/
def FpFmt.ieee (f : FpFmt) (c : Nat) : Num :=
  if (c >>> f.mb) % 2 ^ f.eb = 2 ^ f.eb - 1 then
    if c % 2 ^ f.mb = 0 then .inf (c.testBit (f.eb + f.mb)) else .nan
  else f.finite c

/-- The code of a rounded magnitude. -/
def FpFmt.code (f : FpFmt) (neg : Bool) (m : Nat) (t : Int) : Nat :=
  let s := b2n neg <<< (f.eb + f.mb)
  if m < 2 ^ f.mb then s + m
  else s + ((t + (f.mb : Nat) + (f.bias : Nat)).toNat <<< f.mb) + (m - 2 ^ f.mb)

/-- Round to an IEEE format: overflow goes to ∞, NaN to the canonical quiet NaN (R74). -/
def FpFmt.round (f : FpFmt) : Num → Nat
  | .nan => ((2 ^ f.eb - 1) <<< f.mb) + 2 ^ (f.mb - 1)
  | .inf s => (b2n s <<< (f.eb + f.mb)) + ((2 ^ f.eb - 1) <<< f.mb)
  | .fin s m e =>
    let (r, t) := roundBits f.mb f.qmin m e
    if (2 ^ f.eb - 1 : Nat) ≤ t + (f.mb : Nat) + (f.bias : Nat) ∧ 2 ^ f.mb ≤ r then
      (b2n s <<< (f.eb + f.mb)) + ((2 ^ f.eb - 1) <<< f.mb)
    else f.code s r t

/-! ## FP32 -/

def toNum (w : Word) : Num := fp32.ieee w.toNat
def ofNum (x : Num) : Word := BitVec.ofNat 32 (fp32.round x)

/-- The canonical quiet NaN (R74). -/
def qnan : Word := 0x7FC00000#32

def fadd (a b : Word) : Word := ofNum ((toNum a).add (toNum b))
def fsub (a b : Word) : Word := ofNum ((toNum a).add (toNum b).neg)
def fmul (a b : Word) : Word := ofNum ((toNum a).mul (toNum b))
/-- a × b + c with one rounding. -/
def ffma (a b c : Word) : Word := ofNum (((toNum a).mul (toNum b)).add (toNum c))
/-- c − a × b with one rounding. -/
def ffnma (a b c : Word) : Word := ofNum (((toNum a).mul (toNum b)).neg.add (toNum c))

def isNan (w : Word) : Bool := toNum w == .nan
def isFinite (w : Word) : Bool := (toNum w).isFin

/-- A number's place in the order of S4's MIN and MAX: −0 below +0 (R103). -/
def orderKey (w : Word) : Int :=
  if w.toNat.testBit 31 then -((w.toNat % 2 ^ 31 : Nat) : Int) - 1 else (w.toNat % 2 ^ 31 : Nat)

def fmin (a b : Word) : Word := if isNan a || isNan b then qnan else if orderKey a ≤ orderKey b then a else b
def fmax (a b : Word) : Word := if isNan a || isNan b then qnan else if orderKey a ≤ orderKey b then b else a
def fabs (a : Word) : Word := BitVec.ofNat 32 (a.toNat % 2 ^ 31)
def fneg (a : Word) : Word := a ^^^ 0x80000000#32

/-- Quotient of finite magnitudes with a sticky last bit: (m × 2^k / n) at exponent e − f − k. -/
def divMag (m : Nat) (e : Int) (n : Nat) (f : Int) : Nat × Int :=
  let q := (m <<< 80) / n
  (2 * q + (if (m <<< 80) % n = 0 then 0 else 1), e - f - 81)

def fdiv (a b : Word) : Word :=
  match toNum a, toNum b with
  | .nan, _ => qnan
  | _, .nan => qnan
  | .inf _, .inf _ => qnan
  | .inf s, .fin t _ _ => ofNum (.inf (s != t))
  | .fin s _ _, .inf t => ofNum (.fin (s != t) 0 0)
  | .fin s m e, .fin t n f =>
    if n = 0 then (if m = 0 then qnan else ofNum (.inf (s != t)))
    else let (q, x) := divMag m e n f; ofNum (.fin (s != t) q x)

/-- 1/x, correctly rounded (R105). -/
def frecip (a : Word) : Word := fdiv 0x3F800000#32 a

/-- Integer square root by bits, from bit k − 1 down: the largest r with r² ≤ n among those found so far. -/
def isqrtGo (n : Nat) : Nat → Nat → Nat
  | 0, r => r
  | k + 1, r => let r' := r + 2 ^ k; isqrtGo n k (if r' * r' ≤ n then r' else r)

def isqrt (n : Nat) : Nat := isqrtGo n (Nat.log2 n / 2 + 1) 0

/-- √x, correctly rounded. -/
def fsqrt (a : Word) : Word :=
  match toNum a with
  | .nan => qnan
  | .inf s => if s then qnan else a
  | .fin s m e =>
    if m = 0 then a
    else if s then qnan
    else
      let m' := if e % 2 = 0 then m else 2 * m
      let e' := if e % 2 = 0 then e else e - 1
      let y := isqrt (m' <<< 120)
      ofNum (.fin false (2 * y + (if y * y = m' <<< 120 then 0 else 1)) (e' / 2 - 61))

/-- 1/√x, correctly rounded (R105). -/
def frsqrt (a : Word) : Word :=
  match toNum a with
  | .nan => qnan
  | .inf s => if s then qnan else 0
  | .fin s m e =>
    if m = 0 then ofNum (.inf false)
    else if s then qnan
    else
      let m' := if e % 2 = 0 then m else 2 * m
      let e' := if e % 2 = 0 then e else e - 1
      let y := isqrt (2 ^ 160 / m')
      ofNum (.fin false (2 * y + (if y * y * m' = 2 ^ 160 then 0 else 1)) (-(e' / 2) - 81))

/-- Fixed-point working precision of EXP2 and LOG2, in bits (log entry 15). -/
def fixP : Nat := 288

/-- ln 2 in fixed point: the sum of 1/(k × 2^k). -/
def fixLn2 : Nat := (List.range fixP).foldl (fun acc k => acc + 2 ^ fixP / ((k + 1) * 2 ^ (k + 1))) 0

/-- e^t in fixed point for 0 ≤ t < 1: the sum of t^k / k!. -/
def fixExp (t : Nat) : Nat :=
  ((List.range 80).foldl (fun (acc : Nat × Nat) k => (acc.1 + acc.2, acc.2 * t / 2 ^ fixP / (k + 1))) (0, 2 ^ fixP)).1

/-- 2^x, correctly rounded (R105). -/
def fexp2 (a : Word) : Word :=
  match toNum a with
  | .nan => qnan
  | .inf s => if s then 0 else a
  | .fin s m e =>
    if m = 0 then 0x3F800000#32
    else if (Num.fin false (if s then 151 else 129) 0).le (.fin false m e) then (if s then 0 else ofNum (.inf false))
    else
      -- x as an integer at 2^−149
      let x : Int := Num.atExp s m e (-149)
      let n := x / (2 ^ 149 : Nat)
      let f := (x % (2 ^ 149 : Nat)).toNat
      if f = 0 then ofNum (.fin false 1 n)
      else
        let t := f * 2 ^ (fixP - 149) * fixLn2 / 2 ^ fixP
        ofNum (.fin false (2 * fixExp t + 1) (n - (fixP : Nat) - 1))

/-- ln of q/2^24 for 1 ≤ q/2^24 < 2, in fixed point: 2 × atanh((v − 1)/(v + 1)). -/
def fixLn (q one : Nat) : Nat :=
  let z := (q - one) * 2 ^ fixP / (q + one)
  let z2 := z * z / 2 ^ fixP
  2 * ((List.range 100).foldl
    (fun (acc : Nat × Nat) k => (acc.1 + acc.2 / (2 * k + 1), acc.2 * z2 / 2 ^ fixP)) (0, z)).1

/-- log2 of an exact value, correctly rounded (R105, R207). -/
def log2Num (x : Num) : Word :=
  match x with
  | .nan => qnan
  | .inf s => if s then qnan else ofNum (.inf false)
  | .fin s m e =>
    if m = 0 then ofNum (.inf true)
    else if s then qnan
    else
      let k := Nat.log2 m
      let n : Int := e + (k : Nat)
      if m = 2 ^ k then ofNum (.ofInt n 0)
      else
        let frac := fixLn m (2 ^ k) * 2 ^ fixP / fixLn2
        let v : Int := n * (2 ^ fixP : Nat) + (frac : Nat)
        ofNum (.fin (decide (v < 0)) (2 * v.natAbs + 1) (-(fixP : Nat) - 1))

/-- log2 x of an FP32 value (R105). -/
def flog2 (a : Word) : Word := log2Num (toNum a)

/-- I32 to FP32, rounded; FP32 to I32, to nearest even and saturated, NaN to 0 (R103). -/
def fromI32 (w : Word) : Word := ofNum (.ofInt (toSigned 32 w.toNat) 0)
def toI32 (w : Word) : Word :=
  match toNum w with
  | .nan => 0
  | .inf s => if s then 0x80000000#32 else 0x7FFFFFFF#32
  | .fin s m e =>
    let v := rneInt m e
    if s then (if 2 ^ 31 ≤ v then 0x80000000#32 else BitVec.ofNat 32 (2 ^ 32 - v))
    else (if 2 ^ 31 ≤ v then 0x7FFFFFFF#32 else BitVec.ofNat 32 v)

/-- ceil(log2 m) of a finite positive value. -/
def ceilLog2 (m : Nat) (e : Int) : Int :=
  let k := Nat.log2 m
  if m = 2 ^ k then e + (k : Nat) else e + (k : Nat) + 1

/-- ceil(log2) and floor(log2) of a finite non-zero FP32 magnitude. -/
def clog (w : Word) : Int :=
  match toNum w with
  | .fin _ m e => if m = 0 then 0 else ceilLog2 m e
  | _ => 0
def flog (w : Word) : Int :=
  match toNum w with
  | .fin _ m e => if m = 0 then 0 else e + (Nat.log2 m : Nat)
  | _ => 0

/-- 2^E as FP32, for E in [−149, 127]. -/
def pow2 (e : Int) : Word := ofNum (.fin false 1 e)

/-! ## Format codes (R42, R72) -/

/-- Bits of an element as stored (R73). -/
def fmtBits (f : Nat) : Nat :=
  match f with
  | 0 => 32 | 1 => 16 | 2 => 16 | 3 => 8 | 4 => 8 | 5 => 6 | 6 => 6 | 7 => 4 | 8 => 8 | 9 => 4
  | 10 => 8 | 11 => 6 | 12 => 4 | 13 => 8 | 14 => 4 | _ => 8

/-- The sixteen entries of T: FP32 nearest to 2^(j/16) (R78); U is every fourth (R77). -/
def lqTable (j : Nat) : Num := toNum (fexp2 (ofNum (.fin false j (-4))))

/-- An LQ8 code without its row scale (R78). -/
def lqValue (c : Nat) : Num :=
  if c = 0 then .fin false 0 0
  else (lqTable (((c : Int) - 128) % 16).toNat).mul (.fin false 1 (((c : Int) - 128) / 16))

/-- An LB4 block scale code (R77). -/
def lbScale (k : Nat) : Num :=
  if k = 0 then .fin false 0 0
  else if k = 255 then .nan
  else (lqTable (4 * (((k : Int) - 128) % 4).toNat)).mul (.fin false 1 (((k : Int) - 128) / 4))

/-- An E8M0 scale code (R73). -/
def e8m0 (c : Nat) : Num := if c = 255 then .nan else .fin false 1 ((c : Int) - 127)

/-- The exact value of an element code, without its scales (R72). -/
def elemValue (f c : Nat) : Num :=
  match f with
  | 0 => fp32.ieee c
  | 1 => bf16.ieee c
  | 2 => fp16.ieee c
  | 3 => if c % 128 = 127 then .nan else e4m3.finite c
  | 4 => e5m2.ieee c
  | 5 => e3m2.finite c
  | 6 => e2m3.finite c
  | 7 => e2m1.finite c
  | 8 => .ofInt (toSigned 8 c) 0
  | 9 => .ofInt (toSigned 4 c) 0
  | 10 => if c % 128 = 127 then .nan else e4m3.finite c
  | 11 => e2m3.finite c
  | 12 => e2m1.finite c
  | 13 => .ofInt (toSigned 8 c) (-6)
  | 14 => e2m1.finite c
  | _ => lqValue c

/-- Array operand formats: all but FP32 and LQ8 (R42). -/
def isArrayFmt (f : Nat) : Bool := f != 0 && f != 15
def isIntFmt (f : Nat) : Bool := f == 8 || f == 9 || f == 13
/-- Class W16 and class N4 (R42). -/
def isW16 (f : Nat) : Bool := f == 1 || f == 2
def isN4 (f : Nat) : Bool := fmtBits f ≤ 6
def isMx (f : Nat) : Bool := f == 10 || f == 11 || f == 12 || f == 13
def isLb4 (f : Nat) : Bool := f == 14

/-- e and q of the element type (R42). -/
def fmtE (f : Nat) : Int :=
  match f with
  | 3 => 8 | 10 => 8 | 4 => 15 | 5 => 4 | 6 => 2 | 11 => 2 | 7 => 2 | 12 => 2 | 14 => 2 | 8 => 7 | 9 => 3 | 13 => 1 | _ => 0
def fmtQ (f : Nat) : Int :=
  match f with
  | 3 => -9 | 10 => -9 | 4 => -16 | 5 => -4 | 6 => -3 | 11 => -3 | 7 => -1 | 12 => -1 | 14 => -1 | 8 => 0 | 9 => 0
  | 13 => -6 | _ => 0

/-- Group sizes permitted for a pair (R44). -/
def groupOk (fa fb g : Nat) : Bool :=
  if isLb4 fa || isLb4 fb then g == 16
  else if isMx fa || isMx fb then g == 32
  else g == 32 || g == 64 || g == 128

/-- A pair is valid (R43). -/
def pairOk (fa fb : Nat) : Bool :=
  isArrayFmt fa && isArrayFmt fb && (isIntFmt fa == isIntFmt fb) && (isW16 fa == isW16 fb)

/-- Largest finite magnitude of a narrow element code space, as its code without sign (R72, R75). -/
def maxCode (f : Nat) : Nat :=
  match f with
  | 3 => 0x7E | 10 => 0x7E | 4 => 0x7B | 5 => 0x1F | 6 => 0x1F | 11 => 0x1F | 7 => 7 | 12 => 7 | 14 => 7
  | 8 => 127 | 13 => 127 | 9 => 7 | _ => 255

/-- The floating layout of a narrow format. -/
def fmtFp (f : Nat) : Option FpFmt :=
  match f with
  | 3 => some e4m3 | 10 => some e4m3 | 4 => some e5m2 | 5 => some e3m2 | 6 => some e2m3 | 11 => some e2m3
  | 7 => some e2m1 | 12 => some e2m1 | 14 => some e2m1 | _ => none

/-- What S7 makes of one scaled value in a narrow format (R75): the code, whether it saturated, and whether the enclosing
scale must become NaN. -/
structure Narrow where
  code : Nat
  sat : Bool
  scaleNan : Bool
  deriving DecidableEq, Repr

/-- R75 for a value already divided by its scales. -/
def narrow (f : Nat) (x : Num) : Narrow :=
  match fmtFp f with
  | some p =>
    match x with
    | .nan => if f = 3 ∨ f = 10 then ⟨0x7F, false, false⟩ else if f = 4 then ⟨0x7E, false, false⟩ else ⟨0, false, true⟩
    | .inf s =>
      if f = 4 then ⟨(b2n s <<< 7) + 0x7C, false, false⟩
      else if f = 3 ∨ f = 10 then ⟨0x7F, false, false⟩
      else ⟨0, false, true⟩
    | .fin s m e =>
      let (r, t) := roundBits p.mb p.qmin m e
      let c := p.code false r t
      if maxCode f < c then ⟨(b2n s <<< (p.eb + p.mb)) + maxCode f, true, false⟩
      else ⟨(b2n s <<< (p.eb + p.mb)) + c, false, false⟩
  | none =>
    -- INT8, INT4, MXINT8 (units of 2^−6)
    match x with
    | .fin s m e =>
      let v := rneInt m (if f = 13 then e + 6 else e)
      let w := if f = 9 then 4 else 8
      let v' := min v (maxCode f)
      ⟨if s then (2 ^ w - v') % 2 ^ w else v', maxCode f < v, false⟩
    | _ => ⟨0, false, true⟩

/-- The exact quotient of two values, with a sticky last bit; `x` where the divisor leaves none stated (zero or ∞). -/
def Num.quot (a b x : Num) : Num :=
  match a, b with
  | .nan, _ => .nan
  | _, .nan => .nan
  | .inf s, .fin t n _ => if n = 0 then x else .inf (s != t)
  | .fin s m e, .fin t n f =>
    if n = 0 then x else if m = 0 then .fin (s != t) 0 0
    else let (q, k) := divMag m e n f; .fin (s != t) q k
  | _, .inf _ => x

end Sys2Proof.Machine
end

