-- ==== Sys2Proof/Machine/Draws.lean ====
section
/-!
DEFINITION. The counter-based generator of every random stream (R205, R206).
-/
namespace Sys2Proof.Machine
open Sys2Proof

/-- One Philox round on the counter with key (k0, k1). -/
def philoxRound (k0 k1 : Nat) (c : Nat × Nat × Nat × Nat) : Nat × Nat × Nat × Nat :=
  let p0 := 0xD2511F53 * c.1
  let p1 := 0xCD9E8D57 * c.2.2.1
  ((p1 / 2 ^ 32) ^^^ c.2.1 ^^^ k0, p1 % 2 ^ 32, (p0 / 2 ^ 32) ^^^ c.2.2.2 ^^^ k1, p0 % 2 ^ 32)

/-- n rounds, the key raised between them. -/
def philoxRounds : Nat → Nat → Nat → Nat × Nat × Nat × Nat → Nat × Nat × Nat × Nat
  | 0, _, _, c => c
  | n + 1, k0, k1, c =>
    philoxRounds n ((k0 + 0x9E3779B9) % 2 ^ 32) ((k1 + 0xBB67AE85) % 2 ^ 32) (philoxRound k0 k1 c)

/-- The output words w0 to w3 of Philox-4×32-10 (R205). -/
def philox (k0 k1 c0 c1 c2 c3 : Nat) : Nat × Nat × Nat × Nat := philoxRounds 10 k0 k1 (c0, c1, c2, c3)

/-- A 64-bit draw: w1 × 2^32 + w0. -/
def draw64 (k0 k1 c0 c1 c2 : Nat) : Nat :=
  let w := philox k0 k1 c0 c1 c2 0
  w.2.1 * 2 ^ 32 + w.1

/-- The Tracer's draw for tile step i of stream step s of a stream (R93): domain 2. `st` is 1,024·partition + ID. -/
def tracerDraw (seed st s i : Nat) : Nat :=
  let ctr := s * 2 ^ 24 + i
  draw64 seed (st / 1024 * 65536 + st % 1024) (ctr % 2 ^ 32) (ctr / 2 ^ 32 % 2 ^ 32) 2

/-- The tile step is sampled: the low `rate` bits of the draw are all zero (R93). -/
def tracerSelects (seed st s i rate : Nat) : Bool := tracerDraw seed st s i % 2 ^ rate = 0

end Sys2Proof.Machine
end

