-- ==== Sys2Proof/Machine/Events.lean ====
section
/-!
DEFINITION. The Event Router, the hardware rings and their doorbells (R412 to R426).
-/
namespace Sys2Proof.Machine
open Sys2Proof

/-! ## Taking a source (R415 to R419) -/

/-- A source's target as its register names it (R413). -/
def Source.to (s : Source) : EventTarget :=
  match s.kind with
  | 0 => .cp s.target
  | 1 => .vector s.target
  | _ => .epell

/-- A source is better served than another: higher effective level, then earlier firing, then lower number (R417). -/
def better (a b : Nat × Nat × Nat) : Bool :=
  b.1 < a.1 || (a.1 == b.1 && (a.2.1 < b.2.1 || (a.2.1 == b.2.1 && a.2.2 < b.2.2)))

/-- The best of a list of (level, age, number). -/
def best : List (Nat × Nat × Nat) → Option (Nat × Nat × Nat)
  | [] => none
  | x :: r => match best r with
    | none => some x
    | some y => if better y x then some y else some x

/-- The pending source that a target is offered (R417). -/
def offered (d : Dev) (t : EventTarget) : Option (Nat × Nat × Nat) :=
  best ((d.ev.sources.filter (fun x => x.2.st == .pending && x.2.to == t)).map
    (fun x => (effLevel d x.2, x.2.since, x.1)))

/-- The level a processor runs at, 0 when idle (R417). -/
def cpLevel (d : Dev) (k : Nat) : Nat :=
  match d.ev.handlers.get [] k with
  | [] => 0
  | (_, l) :: _ => l

/-- The header of a record (R394), and a record sealed under a key, its header the additional data. -/
def recordHeader (rtype ses seq : Nat) : BitVec 128 :=
  BitVec.ofNat 128 (packBits [(0, 16, 0x4E5B), (16, 8, 1), (24, 8, rtype), (32, 32, ses), (64, 64, seq)])
def sealedRec (rtype ses seq : Nat) (key body : List Byte) : SentRec :=
  { hdr := recordHeader rtype ses seq, key := key, nonce := leBytes 4 ses ++ leBytes 8 seq, body := body }

def sessionOf (d : Dev) (id : Nat) : Option Session := d.epell.sessions.find? (fun s => s.id == id)
/-- A record leaves on a session: the device's SEQ rises (R394). -/
def sendRecord (d : Dev) (id rtype : Nat) (body : List Byte) : Dev :=
  match sessionOf d id with
  | none => d
  | some s =>
    emit { d with epell := { d.epell with
      sessions := d.epell.sessions.map (fun x => if x.id = id then { x with seqOut := x.seqOut + 1 } else x) } }
      (.record s.transport (sealedRec rtype id (s.seqOut + 1) s.keyOut body))

/-- A NOTIFY for every subscribed session (R404): sent behind the session's pending records, or kept if it is blocked; the
store holds 1,024 and drops its oldest (DEDUCED: log entry 86). -/
def notifyAll (d : Dev) (rec : BitVec 128) (blocked : List Nat) : Dev :=
  forEach (d.epell.sessions.filter (·.subscribed)) d (fun d s =>
    let q := d.epell.notify.get [] s.id ++ [rec]
    if blocked.contains s.id then
      if 1024 < q.length then
        bump { d with epell := { d.epell with
          notify := d.epell.notify.set [] s.id q.tail
          notifyLost := s.id :: d.epell.notifyLost.filter (· ≠ s.id) } } 0x7004 0x02 1
      else { d with epell := { d.epell with notify := d.epell.notify.set [] s.id q } }
    else
      let lost := d.epell.notifyLost.contains s.id
      let d := { d with epell := { d.epell with
        notify := d.epell.notify.set [] s.id [], notifyLost := d.epell.notifyLost.filter (· ≠ s.id) } }
      match q with
      | [] => d
      | r :: rest => forEach ((if lost then setField r 15 1 1 else r) :: rest) d (fun d r =>
          sendRecord d s.id 7 (leBytes 16 r.toNat)))

/-- A source returns to INACTIVE: a register change that waited for it takes effect (R413). -/
def quiet (s : Source) : Source :=
  if s.due then
    { s with st := .inactive, coalesced := 0, slot := none, due := false, next := none, reg := s.next.getD s.reg }
  else { s with st := .inactive, coalesced := 0, slot := none }

/-- Deliver a source's record to its target (R415, R419): the record, its ash EVENT entry (LOG), its EVENT message
(TO_MANAGER), and the source ACTIVE; the Epell channel completes it at once. -/
def deliver (d : Dev) (n : Nat) (blocked : List Nat) : Dev :=
  let s := source d n
  let t := s.to
  let rec' := eventRecord d n s false
  let d := { d with ev := { d.ev with delivered := (rec' :: d.ev.delivered).take 256 } }
  let d := if s.log then ashLimited d (ashEntry d 0x01 [(128, 128, rec'.toNat)]) else d
  let d := if s.toManager then emit d (.eventMsg rec') else d
  let d := if n = 1184 then emit d (.msix 0) else d
  let lvl := effLevel d s
  match t with
  | .epell => notifyAll (setSource d n (quiet s)) rec' blocked
  | .cp k =>
    let d := match targetRing d t with
      | some r => ringPush d r (leBytes 16 rec'.toNat)
      | none => d
    let d := { d with ev := { d.ev with handlers := d.ev.handlers.modify [] k ((n, lvl) :: ·) } }
    setSource d n { s with st := .active, coalesced := 0 }
  | .vector v =>
    let slot := (targetRing d t).map (fun r => (r, ringTail (ring d r)))
    let d := match targetRing d t with
      | some r => ringPush d r (leBytes 16 rec'.toNat)
      | none => d
    setSource (emit d (.msix v)) n { s with st := .active, coalesced := 0, slot := slot }

/-- The router serves a target (R417, R418): a processor takes the offered source if its effective level exceeds both the
threshold and the current level and fewer than 15 handlers nest; the other targets take it whenever there is room. -/
def takeEvent (d : Dev) (t : EventTarget) (blocked : List Nat) : Dev :=
  match offered d t with
  | none => d
  | some (lvl, _, n) =>
    if !targetRoom d t || d.pow.stage == .gasp then d
    else match t with
      | .cp k =>
        if reg d 0x7003 (k + 1) < lvl ∧ cpLevel d k < lvl ∧ (d.ev.handlers.get [] k).length < 15 then deliver d n blocked
        else d
      | _ => deliver d n blocked

/-- A source completes (R415, R418): ACTIVE becomes INACTIVE; ACTIVE_PENDING is taken again at once, or waits PENDING where
its ring is full (R419). -/
def complete (d : Dev) (n : Nat) : Dev :=
  let s := source d n
  match s.st with
  | .active => setSource d n (quiet s)
  | .activePending =>
    if targetRoom d s.to then deliver d n []
    else setSource d n { s with st := .pending, since := now d, raised := 0, slot := none }
  | _ => d

/-- A handler writes its source number to its processor's EOI register: the processor returns to the level of the handler it
preempted, and the source completes. A number that is not the running handler's changes nothing (log entry 1). -/
def eoi (d : Dev) (cp n : Nat) : Dev :=
  match d.ev.handlers.get [] cp with
  | (m, _) :: rest =>
    if m = n then complete { d with ev := { d.ev with handlers := d.ev.handlers.set [] cp rest } } n else d
  | [] => d

/-- Register writes take effect at the edge: at once for an INACTIVE source; else LEVEL, TKIND and TARGET wait (R413). -/
def sourceEdge (s : Source) : Source :=
  match s.next with
  | none => s
  | some v =>
    if s.st = .inactive then { s with reg := v, next := none, due := false }
    else { s with reg := BitVec.ofNat 32 ((v.toNat >>> 12) <<< 12 + s.reg.toNat % 4096), due := true }

def sourcesEdge (d : Dev) : Dev :=
  forEach (d.ev.sources.filter (fun x => x.2.next.isSome)) d (fun d x => setSource d x.1 (sourceEdge x.2))

/-! ## Doorbells (R423) -/

/-- The ring that a doorbell slot belongs to. -/
def doorbellRing (d : Dev) (pcie : Bool) (owner slot : Nat) : Option Nat :=
  findRing d (fun c =>
    ringSlotNo c == slot && (if pcie then ringLoc c == 2 && ringVf c == owner else ringLoc c != 2 && ringOwner c == owner))

/-- A refused doorbell (R423): counted and reported with the ring number. -/
def doorbellBad (d : Dev) (n : Nat) : Dev := raise (bump d 0x7004 0x04 1) 7 0 n

/-- A producer's doorbell: TAIL does not move backwards and leaves at most a full ring. -/
def doorbellTail (d : Dev) (n idx : Nat) : Dev :=
  let c := ring d n
  if idx < 2 * ringSize c ∧ ringFill c ≤ ringAhead c (ringHead c) idx ∧ ringAhead c (ringHead c) idx ≤ ringSize c then
    let added := ringAhead c (ringTail c) idx
    let d := setRing d n (setField c 113 17 idx)
    let d := if added = 0 then d
      else { d with ev := { d.ev with ringAge := d.ev.ringAge.modify [] n (· ++ [(added, now d)]) } }
    if ringDbEvent c then raise d (ringSource c) 0 n else d
  else doorbellBad d n

/-- Sources whose record on an event ring the consumer's HEAD has passed (R415). -/
def passed (d : Dev) (n oldHead count : Nat) : List Nat :=
  let c := ring d n
  (d.ev.sources.filter (fun x =>
    match x.2.slot with
    | some (r, i) => r == n && ringAhead c oldHead i < count
    | none => false)).map (·.1)

/-- A consumer's doorbell: HEAD moves forward and does not pass TAIL. -/
def doorbellHead (d : Dev) (n idx : Nat) : Dev :=
  let c := ring d n
  if idx < 2 * ringSize c ∧ ringAhead c (ringHead c) idx ≤ ringFill c then
    let served := ringAhead c (ringHead c) idx
    let gone := passed d n (ringHead c) served
    let d := setRing d n (setField c 96 17 idx)
    let d := { d with ev := { d.ev with
      ringAge := d.ev.ringAge.modify [] n (ageServe · served), ringRaised := d.ev.ringRaised.set 0 n 0 } }
    forEach gone d complete
  else doorbellBad d n

/-- A ring's effective level (R425): PRIO raised with the age of its oldest unserved entry. -/
def ringLevel (d : Dev) (n : Nat) (c : BitVec 256) : Nat :=
  match d.ev.ringAge.get [] n with
  | (_, t) :: _ => agedLevel (ringPrio c) (ringAgeLimit c) (now d - t)
  | [] => ringPrio c

/-- Publication time of a ring's oldest unserved entry. -/
def ringSince (d : Dev) (n : Nat) : Nat :=
  match d.ev.ringAge.get [] n with
  | (_, t) :: _ => t
  | [] => 0

/-- The ring firmware serves next (R425): ENABLED, kind INTAKE, COMPLETION or EVENT, on the management die, not empty. The entries of a
front-end's rings are served by the commands of their envelopes and responses. -/
def servedRing (d : Dev) : Option Nat :=
  (best ((d.ev.rings.filter (fun x =>
      ringEnabled x.2 && (ringKind x.2 == 0 || ringKind x.2 == 1 || ringKind x.2 == 4) && ringOwner x.2 == 8 && ringLoc x.2 != 2 &&
        ringFill x.2 != 0)).map
    (fun x => (ringLevel d x.1 x.2, ringSince d x.1, x.1)))).map (·.2.2)

/-- The oldest request of a key slot whose entry still lies on its intake ring is taken off it. -/
def takeFirst (slot : Nat) : List GenReq → List GenReq
  | [] => []
  | q :: r => if q.slot = slot ∧ q.onRing then { q with onRing := false } :: r else q :: takeFirst slot r

/-- Firmware serves one entry of the next ring; an entry of another tenant on a ring with SHARED 0 is dropped and counted
(R422). -/
def serveRing (d : Dev) (tenant : Nat) : Dev :=
  match servedRing d with
  | none => d
  | some n =>
    let c := ring d n
    let d := if !ringShared c && ringTenant c != tenant then bump d 0x7004 0x05 1 else d
    let d := if ringKind c = 0 ∧ !ringShared c then
        { d with gen := { d.gen with reqs := takeFirst (ringTenant c) d.gen.reqs } } else d
    doorbellHead d n (ringNext c (ringHead c))

/-- A level raise of a source or a ring is counted once for each level (R416, R433). -/
def escalate (d : Dev) : EscTarget → Dev
  | .source n =>
    let s := source d n
    if s.st = .pending ∧ s.level + s.raised < effLevel d s then
      bump (setSource d n { s with raised := s.raised + 1 }) 0x7004 0x03 1
    else d
  | .ring n =>
    let c := ring d n
    let r := d.ev.ringRaised.get 0 n
    if ringEnabled c ∧ ringPrio c + r < ringLevel d n c then
      bump { d with ev := { d.ev with ringRaised := d.ev.ringRaised.set 0 n (r + 1) } } 0x7004 0x03 1
    else d

/-- The scrub moves one place earlier for each SCRUB_AGE frames a reservation has waited, but never ahead of the fill windows:
past the staging and the drain, two places (R426). -/
def scrubEscalate (d : Dev) : Dev :=
  if d.ev.scrubPlace < 2 ∧ 0 < reg d 0x7020 0x00 ∧ (d.ev.scrubPlace + 1) * reg d 0x7020 0x00 ≤ d.ev.scrubWait then
    { d with ev := { d.ev with scrubPlace := d.ev.scrubPlace + 1 } }
  else d

/-- A write of a source register is checked (R412 to R414): a defined source; FIRMWARE: LOG alone changes; level 15 belongs to
E0000 alone; REPORT: a PF0 vector or Epell; RING: any vector of its VF, a processor or Epell. The value accepted keeps the
read-only fields. -/
def sourceWrite (d : Dev) (n : Nat) (v : BitVec 32) : Option (BitVec 32) :=
  match srcInfo n with
  | none => none
  | some (_, cls) =>
    let old := (source d n).reg
    let kind := field v 4 2
    let target := field v 6 6
    let keep := fun (x : BitVec 32) => setField (setField x 13 1 (field old 13 1)) 14 4 0
    match cls with
    | .firmware => some (setField old 12 1 (field v 12 1))
    | .report =>
      if field v 0 4 = 15 ∨ kind = 0 ∨ kind = 3 ∨ (kind = 1 ∧ 8 ≤ target) then none else some (keep v)
    | .ring =>
      let vf := if target < 8 then 0 else (target - 1) / 7
      let mine := d.ev.rings.all (fun x =>
        !(ringSource x.2 == n) || vf == 0 || (ringLoc x.2 == 2 && ringVf x.2 == vf) ||
          (ringLoc x.2 != 2 && appOfPart d (ringOwner x.2) == some (vf - 1)))
      if field v 0 4 = 15 ∨ kind = 3 ∨ (kind = 0 ∧ 8 ≤ target) ∨ (kind = 1 ∧ mine = false) then none else some (keep v)

/-! ## The commands -/

def execEventFire (op : FireOp) (s : State) : Host.Outcome State Fault Refusal :=
  onDevIf (op.src < 2048) s (fun d => raise (atOff d op.off) op.src op.code op.arg)

def execEventTake (op : TakeOp) (s : State) : Host.Outcome State Fault Refusal :=
  onDevIf (match op.target with | .cp k => k < 8 | .vector v => v < 64 | .epell => true) s
    (fun d => takeEvent (atOff d op.off) op.target op.blocked)

def execEoi (op : EoiOp) (s : State) : Host.Outcome State Fault Refusal :=
  onDevIf (op.cp < 8 && op.src < 2048) s (fun d => eoi (atOff d op.off) op.cp op.src)

def execEventEscalate (op : EscalateOp) (s : State) : Host.Outcome State Fault Refusal :=
  onDevIf (match op.target with | .source n => n < 2048 | .ring n => n < 32768) s
    (fun d => escalate (atOff d op.off) op.target)

/-- Only CODE 1 and CODE 2 are defined (R421). -/
def execFatal (op : FatalOp) (s : State) : Host.Outcome State Fault Refusal :=
  onDev s (fun d => if op.code = 1 ∨ op.code = 2 then raise (atOff d op.off) 0 op.code 0 else d)

def execRingService (op : RingServiceOp) (s : State) : Host.Outcome State Fault Refusal :=
  onDev s (fun d => serveRing (atOff d op.off) op.tenant)

def execScrubEscalate (op : AtOp) (s : State) : Host.Outcome State Fault Refusal :=
  onDev s (fun d => scrubEscalate (atOff d op.off))

end Sys2Proof.Machine
end

