-- ==== Sys2Proof/Machine/Operands.lean ====
section
/-!
DEFINITION. Operands: the Hearth operand space (R39), elements as they are packed (R46, R73), and the fields of the matrix,
Ductus, transfer and semaphore descriptors (R45, R100, R131, R138).
-/
namespace Sys2Proof.Machine
open Sys2Proof

/-! ## The operand space (R39) -/

/-- Sizes of a Well and an Inkstone, and where the Inkstone begins in the operand space. -/
def wellSize : Nat := 0x400000
def inkSize : Nat := 0x2000000
def inkBase : Nat := 0x2000000

/-- One byte of the operand space of logical Hearth h. -/
def opByte (d : Dev) (h a : Nat) : Byte :=
  if a < wellSize then d.mem.well.get 0 (h * wellSize + a)
  else if inkBase ≤ a ∧ a < inkBase + inkSize then d.mem.ink.get 0 (clusterOf h * inkSize + (a - inkBase))
  else 0

/-- Write one byte of the operand space of logical Hearth h. -/
def opPut (d : Dev) (h a : Nat) (b : Byte) : Dev :=
  if a < wellSize then { d with mem := { d.mem with well := d.mem.well.set 0 (h * wellSize + a) b } }
  else if inkBase ≤ a ∧ a < inkBase + inkSize then
    { d with mem := { d.mem with ink := d.mem.ink.set 0 (clusterOf h * inkSize + (a - inkBase)) b } }
  else d

/-- A run of bytes lies inside the Well or inside the Inkstone. -/
def runOk (a n : Nat) : Bool :=
  (a + n ≤ wellSize) || (inkBase ≤ a && a + n ≤ inkBase + inkSize)

/-- A run of bytes lies inside the Well. -/
def runInWell (a n : Nat) : Bool := a + n ≤ wellSize

/-- A run of bytes of the operand space of logical Hearth h reaches a CONTROL line (R371). -/
def hitsControl (d : Dev) (h a n : Nat) : Bool :=
  d.mem.control.any (fun r =>
    if a < wellSize then r.well && r.unit == h && a < r.hi && r.lo < a + n
    else !r.well && r.unit == clusterOf h && inkBase ≤ a && a - inkBase < r.hi && r.lo < a - inkBase + n)

def opBytes (d : Dev) (h : Nat) : Nat → Nat → List Byte
  | _, 0 => []
  | a, n + 1 => opByte d h a :: opBytes d h (a + 1) n

def opPutAll (d : Dev) (h a : Nat) (bs : List Byte) : Dev :=
  match bs with
  | [] => d
  | b :: r => opPutAll (opPut d h a b) h (a + 1) r

/-- A little-endian number of n bytes in the operand space; an FP32 there. -/
def opNat (d : Dev) (h a n : Nat) : Nat := leNat (opBytes d h a n)
def opWord (d : Dev) (h a : Nat) : Word := BitVec.ofNat 32 (opNat d h a 4)

/-- The code of element k of a run of packed elements that begins at byte `base` (R73): bits [bits·k + bits − 1 : bits·k]. -/
def opElem (d : Dev) (h base fmt k : Nat) : Nat :=
  let w := fmtBits fmt
  let p := w * k
  (opNat d h (base + p / 8) ((p % 8 + w + 7) / 8) >>> (p % 8)) % 2 ^ w

/-- Bytes that n packed elements take. -/
def packedLen (fmt n : Nat) : Nat := (fmtBits fmt * n + 7) / 8

/-- Bytes of packed elements, from their codes. -/
def packElems (fmt : Nat) (codes : List Nat) : List Byte :=
  leBytes (packedLen fmt codes.length) (codes.foldr (fun c acc => c % 2 ^ fmtBits fmt + acc * 2 ^ fmtBits fmt) 0)

/-- A Well address and a transfer's operand-space address (R139): [25:0] with [28:26] the Hearth of the cluster. -/
def xferHearth (c a : Nat) : Nat := 8 * c + (a >>> 26) % 8
def xferOff (a : Nat) : Nat := a % 2 ^ 26

/-! ## The matrix descriptor (R45) -/

abbrev MatDesc := BitVec 256

def MatDesc.opcode (v : MatDesc) : Nat := field v 0 8
def MatDesc.array (v : MatDesc) : Nat := field v 8 2
def MatDesc.tile (v : MatDesc) : Nat := field v 10 3
def MatDesc.mode (v : MatDesc) : Nat := field v 13 2
def MatDesc.fmtA (v : MatDesc) : Nat := field v 16 4
def MatDesc.fmtB (v : MatDesc) : Nat := field v 20 4
/-- G: 16, 32, 64 or 128. -/
def MatDesc.g (v : MatDesc) : Nat := 16 * 2 ^ field v 24 2
def MatDesc.ta (v : MatDesc) : Bool := field v 26 1 = 1
def MatDesc.tb (v : MatDesc) : Bool := field v 27 1 = 1
def MatDesc.aHeld (v : MatDesc) : Bool := field v 28 1 = 1
def MatDesc.bHeld (v : MatDesc) : Bool := field v 29 1 = 1
def MatDesc.hold (v : MatDesc) : Nat := field v 30 2
def MatDesc.waitEn (v : MatDesc) : Bool := field v 32 1 = 1
def MatDesc.waitSem (v : MatDesc) : Nat := field v 33 10
def MatDesc.sigEn (v : MatDesc) : Bool := field v 43 1 = 1
def MatDesc.sigSem (v : MatDesc) : Nat := field v 44 10
def MatDesc.ntag (v : MatDesc) : Nat := field v 54 8
def MatDesc.m (v : MatDesc) : Nat := field v 64 8 + 1
def MatDesc.n (v : MatDesc) : Nat := field v 72 8 + 1
def MatDesc.k (v : MatDesc) : Nat := 16 * field v 80 16
def MatDesc.aStride (v : MatDesc) : Nat := 16 * field v 96 16
def MatDesc.bStride (v : MatDesc) : Nat := 16 * field v 112 16
def MatDesc.aAddr (v : MatDesc) : Nat := 16 * field v 128 22
def MatDesc.bAddr (v : MatDesc) : Nat := 16 * field v 150 22
/-- A scale address; none where the field is 0xFFFFF. -/
def scaleAddr (x : Nat) : Option Nat := if x = 0xFFFFF then none else some (64 * x)
def MatDesc.rowScale (v : MatDesc) : Option Nat := scaleAddr (field v 172 20)
def MatDesc.colScale (v : MatDesc) : Option Nat := scaleAddr (field v 192 20)
def MatDesc.gsA (v : MatDesc) : Option Nat := scaleAddr (field v 212 20)
def MatDesc.gsB (v : MatDesc) : Option Nat := scaleAddr (field v 232 20)
/-- Steps of K / G groups (R41). -/
def MatDesc.steps (v : MatDesc) : Nat := v.k / v.g

/-! ## The Ductus descriptor (R100) -/

abbrev DuctDesc := BitVec 512

def DuctDesc.opcode (v : DuctDesc) : Nat := field v 0 8
def DuctDesc.isDrain (v : DuctDesc) : Bool := v.opcode = 0x21
def DuctDesc.chain (v : DuctDesc) : Nat := field v 8 2
def DuctDesc.tile (v : DuctDesc) : Nat := field v 10 3
def DuctDesc.tarray (v : DuctDesc) : Nat := field v 13 1
def DuctDesc.xKind (v : DuctDesc) : Nat := field v 14 1
def DuctDesc.runEn (v : DuctDesc) : Bool := field v 15 1 = 1
def DuctDesc.fmtX (v : DuctDesc) : Nat := field v 16 4
def DuctDesc.fmtD (v : DuctDesc) : Nat := field v 20 4
def DuctDesc.qg (v : DuctDesc) : Nat := field v 24 2
def DuctDesc.qmode (v : DuctDesc) : Nat := field v 26 2
def DuctDesc.lead (v : DuctDesc) : Bool := field v 28 1 = 1
def DuctDesc.opens (v : DuctDesc) : Bool := field v 29 1 = 1
def DuctDesc.closes (v : DuctDesc) : Bool := field v 30 1 = 1
def DuctDesc.tensor (v : DuctDesc) : Bool := field v 31 1 = 1
def DuctDesc.waitEn (v : DuctDesc) : Bool := field v 32 1 = 1
def DuctDesc.waitSem (v : DuctDesc) : Nat := field v 33 10
def DuctDesc.sigEn (v : DuctDesc) : Bool := field v 43 1 = 1
def DuctDesc.sigSem (v : DuctDesc) : Nat := field v 44 10
def DuctDesc.ntag (v : DuctDesc) : Nat := field v 54 8
def DuctDesc.dKind (v : DuctDesc) : Nat := field v 62 2
def DuctDesc.rows (v : DuctDesc) : Nat := field v 64 8 + 1
def DuctDesc.cols (v : DuctDesc) : Nat := field v 72 16 + 1
def DuctDesc.col0 (v : DuctDesc) : Nat := field v 88 16
def DuctDesc.fmtY (v : DuctDesc) : Nat := field v 104 4
def DuctDesc.qreg (v : DuctDesc) : Nat := field v 108 5
def DuctDesc.rvreg (v : DuctDesc) : Nat := field v 113 5
def DuctDesc.redReg (v : DuctDesc) : Nat := field v 118 5
def DuctDesc.redAcc (v : DuctDesc) : Bool := field v 123 1 = 1
def DuctDesc.s3c (v : DuctDesc) : Nat := field v 124 3
def DuctDesc.xAddrRaw (v : DuctDesc) : Nat := field v 128 22
def DuctDesc.xAddr (v : DuctDesc) : Nat := 16 * v.xAddrRaw
def DuctDesc.xStride (v : DuctDesc) : Nat := 16 * field v 150 16
def DuctDesc.xrs (v : DuctDesc) : Option Nat := scaleAddr (field v 166 20)
def DuctDesc.s4c (v : DuctDesc) : Nat := field v 186 3
def DuctDesc.hr (v : DuctDesc) : Nat := field v 189 3
def DuctDesc.yAddr (v : DuctDesc) : Nat := 16 * field v 192 22
def DuctDesc.yStride (v : DuctDesc) : Nat := 16 * field v 214 16
def DuctDesc.xgs (v : DuctDesc) : Option Nat := scaleAddr (field v 230 20)
def DuctDesc.spread (v : DuctDesc) : Nat := field v 250 6
def DuctDesc.dAddrRaw (v : DuctDesc) : Nat := field v 256 22
def DuctDesc.dAddr (v : DuctDesc) : Nat := 16 * v.dAddrRaw
def DuctDesc.dStride (v : DuctDesc) : Nat := 16 * field v 278 16
def DuctDesc.rs (v : DuctDesc) : Option Nat := scaleAddr (field v 294 20)
def DuctDesc.floor (v : DuctDesc) : Int := toSigned 8 (field v 314 8)
def DuctDesc.gs (v : DuctDesc) : Nat := 64 * field v 322 20
def DuctDesc.cvRaw (v : DuctDesc) : Nat := field v 342 20
def DuctDesc.cvKind (v : DuctDesc) : Nat := field v 362 1
def DuctDesc.runAddr (v : DuctDesc) : Nat := 64 * field v 364 20
def DuctDesc.imm0 (v : DuctDesc) : Word := BitVec.ofNat 32 (field v 384 32)
def DuctDesc.imm1 (v : DuctDesc) : Word := BitVec.ofNat 32 (field v 416 32)
/-- OP and BSEL of stage s (R101). -/
def DuctDesc.op (v : DuctDesc) (s : Nat) : Nat := field v (448 + 8 * s) 5
def DuctDesc.bsel (v : DuctDesc) (s : Nat) : Nat := field v (453 + 8 * s) 3
/-- Group size that QG names: 0 none. -/
def DuctDesc.qgSize (v : DuctDesc) : Nat := match v.qg with | 0 => 0 | 1 => 32 | 2 => 64 | _ => 128

/-! ## The transfer descriptor (R138) -/

abbrev XferDesc := BitVec 512

def XferDesc.opcode (v : XferDesc) : Nat := field v 0 8
def XferDesc.srcKind (v : XferDesc) : Nat := field v 8 2
def XferDesc.dstKind (v : XferDesc) : Nat := field v 10 2
def XferDesc.fmtSrc (v : XferDesc) : Nat := field v 12 4
def XferDesc.fmtDst (v : XferDesc) : Nat := field v 16 4
/-- n of R139: NDIM_MINUS1. -/
def XferDesc.n (v : XferDesc) : Nat := field v 20 3
def XferDesc.waitEn (v : XferDesc) : Bool := field v 32 1 = 1
def XferDesc.waitSem (v : XferDesc) : Nat := field v 33 10
def XferDesc.sigEn (v : XferDesc) : Bool := field v 43 1 = 1
def XferDesc.sigSem (v : XferDesc) : Nat := field v 44 10
def XferDesc.ring (v : XferDesc) : Nat := field v 54 6
def XferDesc.src (v : XferDesc) : Nat := field v 64 48
def XferDesc.dst (v : XferDesc) : Nat := field v 112 48
def XferDesc.size (v : XferDesc) (d : Nat) : Nat := field v (160 + 16 * d) 16 + 1
def XferDesc.strideRaw (v : XferDesc) (d : Nat) : Int := toSigned 40 (field v (240 + 40 * d) 40)
def XferDesc.pitchRaw (v : XferDesc) : Nat := field v 440 24
def XferDesc.tag (v : XferDesc) : Nat := field v 464 16
def XferDesc.skip (v : XferDesc) : Nat := field v 480 8

/-! ## Semaphore operations (R131) -/

abbrev SemDesc := BitVec 64

def SemDesc.opcode (v : SemDesc) : Nat := field v 0 8
def SemDesc.target (v : SemDesc) : Nat := field v 8 10
def SemDesc.value (v : SemDesc) : Nat := field v 32 16
/-- No reserved bit is set, VALUE is not 0, and a ring number is at most 63. -/
def SemDesc.ok (v : SemDesc) : Bool :=
  field v 18 14 == 0 && field v 48 16 == 0 && v.value != 0 && (v.opcode == 0x40 || v.opcode == 0x41 || v.target < 64)

/-! ## Buffer ring entries (R134) -/

abbrev BRing := BitVec 128

def BRing.base (v : BRing) : Nat := 64 * field v 0 20
def BRing.slotBytes (v : BRing) : Nat := 64 * field v 20 16
def BRing.slots (v : BRing) : Nat := field v 36 4 + 1
def BRing.head (v : BRing) : Nat := field v 40 4
def BRing.tail (v : BRing) : Nat := field v 44 4
def BRing.count (v : BRing) : Nat := field v 48 5
def BRing.full (v : BRing) : Nat := field v 53 10
def BRing.empty (v : BRing) : Nat := field v 63 10
def BRing.enabled (v : BRing) : Bool := field v 73 1 = 1
def BRing.poisoned (v : BRing) : Bool := field v 74 1 = 1
def BRing.carry (v : BRing) : Bool := field v 75 1 = 1
def BRing.wellHearth (v : BRing) : Nat := field v 76 3

def bring (d : Dev) (c r : Nat) : BRing := d.mem.brings.get 0 (64 * c + r)
def setBring (d : Dev) (c r : Nat) (v : BRing) : Dev :=
  { d with mem := { d.mem with brings := d.mem.brings.set 0 (64 * c + r) v } }

end Sys2Proof.Machine
end

