-- ==== Sys2Proof/Machine/Sequencer.lean ====
section
/-!
DEFINITION. What all engines share: semaphores and buffer rings (R130 to R136), frame tasks and their windows (R29, R49), how
a task becomes late or fails (R32, R33, R64), and the sequencers' own descriptors (R48, R131).
-/
namespace Sys2Proof.Machine
open Sys2Proof

/-! ## Semaphores (R130, R132) -/

def sem (d : Dev) (c n : Nat) : Nat := d.mem.sems.get 0 (1024 * c + n)
def setSem (d : Dev) (c n v : Nat) : Dev := { d with mem := { d.mem with sems := d.mem.sems.set 0 (1024 * c + n) v } }
def poisoned (d : Dev) (c n : Nat) : Bool := d.mem.poison.get 0 (1024 * c + n) = 1
def poisonSem (d : Dev) (c n : Nat) : Dev :=
  { d with mem := { d.mem with poison := d.mem.poison.set 0 (1024 * c + n) 1 } }

/-- An addition to a semaphore; none where it would pass 65,535 (R132). -/
def semAdd (d : Dev) (c n v : Nat) : Option Dev :=
  if sem d c n + v ≤ 65535 then some (setSem d c n (sem d c n + v)) else none

/-! ## Tasks -/

/-- The engines of R29 by number. -/
def engArray (h a : Nat) : Nat := 4 * h + a
def engDuctus (h : Nat) : Nat := 4 * h + 2
def engTe (c : Nat) : Nat := 1024 + c
def engTransfer (e : Nat) : Bool := 1024 ≤ e && e < 1056
/-- The sequencer itself, in a task's counts. -/
def engSeq : Nat := 4096

def task (d : Dev) (id : Nat) : Option Task := d.frame.tasks.get none id
def setTask (d : Dev) (id : Nat) (t : Task) : Dev :=
  { d with frame := { d.frame with tasks := d.frame.tasks.set none id (some t) } }

def streamIdle : Stream := { ring := 0, tasks := [], held := none, base := 0 }
def stream (d : Dev) (s : Nat) : Stream := d.frame.streams.get streamIdle s
def setStream (d : Dev) (s : Nat) (x : Stream) : Dev :=
  { d with frame := { d.frame with streams := d.frame.streams.set streamIdle s x } }

/-- The task a stream is at: the first of its planned tasks. -/
def streamTask (d : Dev) (s : Nat) : Option Nat := (stream d s).tasks.head?

/-- A window of a task on an engine is open at an offset (R29, R33). -/
def windowOpen (t : Task) (eng off : Nat) : Bool :=
  t.plan.windows.any (fun w => w.eng == eng && w.start ≤ off && off < w.stop) && !t.closed.contains eng

/-- An operation of a task may still end on an engine at an offset: its window has not closed (R33). -/
def inWindow (d : Dev) (id eng off : Nat) : Bool := (task d id).any (fun t => windowOpen t eng off)

/-- Some window of the task is open, on any engine (R49). -/
def anyWindowOpen (t : Task) (off : Nat) : Bool :=
  t.plan.windows.any (fun w => w.start ≤ off && off < w.stop && !t.closed.contains w.eng)

/-- Sequencers issue: the device runs, and neither the guard band nor a loss of input stops them (R32, R439). -/
def mayIssue (d : Dev) : Bool := running d && !d.frame.guard

/-! ## Tiles (R59 to R63, R66) -/

def tileIdle : TileS := { owner := none, task := 0, draining := false, held := false, acc := [] }
def tileKey (h a t : Nat) : Nat := 16 * h + 8 * a + t
def tile (d : Dev) (k : Nat) : TileS := d.hearth.tiles.get tileIdle k
def setTile (d : Dev) (k : Nat) (t : TileS) : Dev :=
  { d with hearth := { d.hearth with tiles := d.hearth.tiles.set tileIdle k t } }

def arrayIdle : ArrayS := { queue := [], held := none }
def arrayKey (h a : Nat) : Nat := 2 * h + a
def array (d : Dev) (k : Nat) : ArrayS := d.hearth.arrays.get arrayIdle k
def setArray (d : Dev) (k : Nat) (x : ArrayS) : Dev :=
  { d with hearth := { d.hearth with arrays := d.hearth.arrays.set arrayIdle k x } }

def ductus (d : Dev) (h : Nat) : List DuctOp := d.hearth.ductus.get [] h
def setDuctus (d : Dev) (h : Nat) (q : List DuctOp) : Dev :=
  { d with hearth := { d.hearth with ductus := d.hearth.ductus.set [] h q } }

def vreg (d : Dev) (h v : Nat) : Table Word := d.hearth.vregs.get [] (32 * h + v)
def setVreg (d : Dev) (h v : Nat) (t : Table Word) : Dev :=
  { d with hearth := { d.hearth with vregs := d.hearth.vregs.set [] (32 * h + v) t } }

/-- The accumulator tile status word (R66). -/
def tileStatus (d : Dev) (h a t : Nat) : BitVec 32 :=
  let x := tile d (tileKey h a t)
  let busy := (array d (arrayKey h a)).queue.head?.any (fun o => MatDesc.tile o.desc == t)
  BitVec.ofNat 32 (packBits [(0, 15, x.owner.getD 0), (15, 1, b2n x.owner.isSome), (16, 1, b2n busy),
    (17, 1, b2n x.draining), (18, 1, b2n x.held)])

/-- A tile whose contents are undefined: a free word in every element (R33) (DEDUCED: log entry 36). -/
def undefTile (d : Dev) (k : Nat) : Dev :=
  let (ws, d) := drawWords d 16384
  setTile d k { tile d k with acc := (ws.zipIdx).foldl (fun t x => t.set 0 x.2 x.1) [] }

/-- The first lanes of a vector register are undefined (R108). -/
def undefLanes (d : Dev) (h v lanes : Nat) : Dev :=
  let (ws, d) := drawWords d lanes
  setVreg d h v ((ws.zipIdx).foldl (fun t x => t.set 0 x.2 x.1) (vreg d h v))

/-- Bytes of the operand space that are undefined in their low bits: the address, and how many bits (R33, R97, R108). -/
def undefBytes (d : Dev) (h : Nat) (addrs : List (Nat × Nat)) : Dev :=
  let (bs, d) := drawBytes d addrs.length
  forEach (addrs.zip bs) d (fun d x =>
    opPut d h x.1.1 (BitVec.ofNat 8 (x.2.toNat % 2 ^ x.1.2 + (opByte d h x.1.1).toNat / 2 ^ x.1.2 * 2 ^ x.1.2)))

/-! ## What a Ductus descriptor writes (R100, R104, R110) -/

/-- A plain format: 0x3 to 0x9 (R42, R104). -/
def isPlain (f : Nat) : Bool := 3 ≤ f && f ≤ 9

/-- Group or block size that a descriptor's output format and QG name: 0 none (R110, R116). -/
def outGroup (v : DuctDesc) : Nat :=
  if isMx v.fmtD then 32 else if isLb4 v.fmtD then 16 else if isPlain v.fmtD then v.qgSize else 0

/-- Group or block size of the scale plane written; the short chain has no scale to compute and writes none (R110) (DESIGN
CHOICE: log entry 140). -/
def dGroup (v : DuctDesc) : Nat := if v.chain = 0 then 0 else outGroup v

/-- The format in which elements leave S7: SCAN writes the lanes as they are, FP32, to a staging region (R110). -/
def outFmt (v : DuctDesc) : Nat := if v.qmode = 2 then 0 else v.fmtD

/-- First byte of row r's scales in a plane: K / size bytes a row, with K the row pitch in elements (R46, R104). -/
def planeRow (base stride fmt size r : Nat) : Nat := base + r * (stride * 8 / fmtBits fmt / size)

/-- A descriptor computes row scales of its own and writes them to RS_ADDR (R110). -/
def ownScales (v : DuctDesc) : Bool := v.chain == 1 && v.lead && (v.qmode == 1 || v.qmode == 3) && v.rs.isSome && !isMx v.fmtD

/-- Bytes that a descriptor writes to operand space, and how many low bits of each (R97). -/
def outBytes (v : DuctDesc) : List (Nat × Nat) :=
  let full := fun (a n : Nat) => (List.range n).map (fun i => (a + i, 8))
  let bits := fmtBits (outFmt v) * v.cols
  let rows := (List.range v.rows).flatMap (fun r =>
    let a := v.dAddr + r * v.dStride
    full a (bits / 8) ++ (if bits % 8 = 0 then [] else [(a + bits / 8, bits % 8)]))
  let g := dGroup v
  (if v.dKind = 0 then rows else []) ++
  (match v.rs with
   | some a => if ownScales v then full a (4 * v.rows) else []
   | none => []) ++
  (if g = 0 ∨ v.qmode = 2 then [] else
    (List.range v.rows).flatMap (fun r => full (planeRow v.gs v.dStride v.fmtD g r + v.col0 / g) (v.cols / g)))

/-- The vector registers a descriptor writes, and how many lanes of each from lane 0 on (R102, R106, R111). -/
def ductLanes (v : DuctDesc) : List (Nat × Nat) :=
  (if v.dKind = 2 then [(v.dAddrRaw % 32, v.cols)] else []) ++
  (if v.op 6 = 0 then [] else if v.op 6 = 6 then [(v.redReg, v.rows), (v.redReg + 1, v.rows)] else [(v.redReg, v.rows)]) ++
  (if v.qmode = 0 ∧ !v.opens then [] else [(v.qreg, if v.tensor then 1 else v.rows), (v.qreg + 1, v.rows)])

/-- The registers a Ductus descriptor writes. -/
def ductRegs (v : DuctDesc) : List Nat := (ductLanes v).map (·.1)

/-! ## Stopping a task's operations (R33, R64, R108) -/

/-- The tag of a tile whose last element a DRAIN has read by now, before its window closed, is cleared (R33, R63, R107). A START
that was queued behind the DRAIN takes the tile again at its first promotion; an ACCUMULATE that is evaluated before that finds
the tile free (DESIGN CHOICE: log entry 141). -/
def enterOne (d : Dev) (h : Nat) (o : DuctOp) : Dev × DuctOp :=
  if o.started ∧ !o.entered ∧ o.last < d.frame.off ∧ inWindow d o.task (engDuctus h) o.last then
    let v : DuctDesc := o.desc
    let d := if v.isDrain then
        let k := tileKey h v.tarray v.tile
        setTile d k { tile d k with owner := none, task := 0, draining := false, held := false }
      else d
    (d, { o with entered := true })
  else (d, o)

def enterAll (d : Dev) (h : Nat) : List DuctOp → Dev × List DuctOp
  | [] => (d, [])
  | o :: r =>
    let (d, o) := enterOne d h o
    let (d, r) := enterAll d h r
    (d, o :: r)

/-- Every descriptor of a Hearth whose last beat has entered S0 by now is marked so. -/
def ductEnter (d : Dev) (h : Nat) : Dev :=
  let (d, q) := enterAll d h (ductus d h)
  setDuctus d h q

/-! ## The quantise tally (R58, R112) -/

def tallyIdle : Tally := { rep1 := 0, rep2 := 0, wide := 0, sat := 0, nan := 0, dmax := 0 }
def sat16 (n : Nat) : Nat := min 65535 n
def tallyAdd (d : Dev) (h ntag : Nat) (f : Tally → Tally) : Dev :=
  { d with hearth := { d.hearth with tally := d.hearth.tally.modify tallyIdle (256 * h + ntag) f } }

/-- Marks of a descriptor's beats go to its NTAG's entry: saturations, NaN events and the largest d (R112). -/
def tallyMarks (d : Dev) (h ntag : Nat) (l : List BeatMark) : Dev :=
  tallyAdd d h ntag (fun t => l.foldl (fun t m =>
    { t with sat := sat16 (t.sat + m.sat), nan := sat16 (t.nan + m.nan), dmax := max t.dmax m.dmax }) t)

/-- The segment width W of a row, the first beat of row r, and the beats of a descriptor (R97). -/
def segWidth (v : DuctDesc) : Nat := if v.cols ≤ 32 then 32 else if v.cols ≤ 64 then 64 else if v.cols ≤ 128 then 128 else 256
def rowBeat (v : DuctDesc) (r : Nat) : Nat := if v.cols ≤ 256 then r * segWidth v / 256 else r * ((v.cols + 255) / 256)
def beats (v : DuctDesc) : Nat := if v.cols ≤ 256 then (v.rows * segWidth v + 255) / 256 else v.rows * ((v.cols + 255) / 256)

/-- The beats of a started descriptor that have entered S0 by an offset: they are spread evenly over its hclk. -/
def beatsIn (o : DuctOp) (off : Nat) : Nat :=
  if off ≤ o.first then 0 else (off - o.first) * beats o.desc / (o.last + 1 - o.first)

/-- The scale latch of a Hearth after its LEAD writer stopped: undefined scales (R108, R113). -/
def undefLatch (d : Dev) (h : Nat) (v : DuctDesc) : Dev :=
  match d.hearth.latch.get none h, v.rs with
  | some (t, l), some a =>
    if ownScales v ∧ t = a then
      let (ws, d) := drawWords d l.length
      { d with hearth := { d.hearth with latch := d.hearth.latch.set none h (some (t, ws)) } }
    else d
  | _, _ => d

/-- A Ductus descriptor, started or staged, stops: its outputs, reductions and row state are undefined, and the beats that had
entered count in the tally; a DRAIN whose last beat had not entered keeps its tile's tag (R33, R108) (DEDUCED: log entry 132). -/
def stopDuct (d : Dev) (h : Nat) (o : DuctOp) : Dev :=
  let v : DuctDesc := o.desc
  let d := forEach (ductLanes v) d (fun d r => undefLanes d h r.1 r.2)
  let d := undefBytes d h (outBytes v)
  if !o.started then d
  else
    let d := undefLatch d h v
    let d := tallyMarks d h v.ntag (o.marks.filter (fun m => decide (m.beat < beatsIn o d.frame.off)))
    let k := tileKey h v.tarray v.tile
    if v.isDrain ∧ !o.entered then setTile d k { tile d k with draining := false } else d

/-- An array operation stops: its tile becomes undefined (R33). -/
def stopMat (d : Dev) (h a : Nat) (o : MatOp) : Dev := undefTile d (tileKey h a (MatDesc.tile o.desc))

/-- Operations of a task on the arrays of a Hearth. -/
def stopArrays (d : Dev) (id h a : Nat) : Dev :=
  let x := array d (arrayKey h a)
  let d := forEach (x.queue.filter (·.task == id)) d (fun d o => stopMat d h a o)
  setArray d (arrayKey h a) { x with queue := x.queue.filter (fun o => !(o.task == id)) }

/-- The transfers of a cluster's engine: the executing one and the staged one. -/
def teQueue (d : Dev) (c : Nat) : List Xfer := d.mem.te.get [] c
def setTe (d : Dev) (c : Nat) (q : List Xfer) : Dev := { d with mem := { d.mem with te := d.mem.te.set [] c q } }
def setTeHead (d : Dev) (c : Nat) (x : Xfer) : Dev := setTe d c (x :: (teQueue d c).tail)

def resumeIdle : ResumeRec := ⟨0, 0, 0, 0, 0⟩
/-- The stream's resume record says where its transfer stands (R144). -/
def recordXfer (d : Dev) (x : Xfer) : Dev :=
  { d with mem := { d.mem with
    resume := d.mem.resume.set resumeIdle x.stream ⟨x.cursor, x.st, x.cause, x.dva, XferDesc.tag x.desc⟩ } }

/-- HEAD of a stream's ring. -/
def streamHead (d : Dev) (s : Nat) : Nat := ringHead (ring d (stream d s).ring)
def setStreamHead (d : Dev) (s n : Nat) : Dev :=
  let r := (stream d s).ring
  if ringEnabled (ring d r) then setRing d r (setField (ring d r) 96 17 n) else d

/-- While a transfer is FAULTED its stream's HEAD lies at it (R146); when it goes on or ends, HEAD lies where the stream had come to. -/
def headBack (d : Dev) (x : Xfer) : Dev :=
  if x.st = 4 ∧ streamHead d x.stream = x.head then setStreamHead d x.stream x.ahead else d

/-- A remote write that the fabric has taken lands whatever becomes of its transfer: a transfer that stops has delivered what it
carried (R143) (DEDUCED: log entry 158). -/
def landed (x : Xfer) : Xfer :=
  let w := fmtBits (XferDesc.fmtDst x.desc)
  { x with cursor := x.cursor + x.run.length * 8 / max 1 w, run := [] }

/-- A transfer ends CUT (R149): the resume record says so, and it is counted. -/
def cutXfer (d : Dev) (x : Xfer) : Dev := recordXfer (bumpPart (headBack d x) 0x2052 x.part 1) { landed x with st := 7 }

/-- The transfers of a task end CUT. -/
def cutTask (d : Dev) (id c : Nat) : Dev :=
  let q := d.mem.te.get [] c
  let d := forEach (q.filter (·.task == id)) d cutXfer
  { d with mem := { d.mem with te := d.mem.te.set [] c (q.filter (fun x => !(x.task == id))) } }

/-- Engines a task has windows on. -/
def taskEngines (t : Task) : List Nat := (t.plan.windows.map (·.eng)).eraseDups

/-- Every operation of a task on one engine stops. -/
def stopEngine (d : Dev) (id eng : Nat) : Dev :=
  if eng < 1024 then
    let h := eng / 4
    if eng % 4 < 2 then stopArrays d id h (eng % 4)
    else
      let d := ductEnter d h
      let q := ductus d h
      let d := forEach (q.filter (·.task == id)) d (fun d o => stopDuct d h o)
      setDuctus d h (q.filter (fun o => !(o.task == id)))
  else if eng < 1056 then cutTask d id (eng - 1024)
  else d

/-- Every operation of a task stops (R64). -/
def stopTask (d : Dev) (id : Nat) : Dev :=
  match task d id with
  | none => d
  | some t => forEach (taskEngines t) d (fun d e => stopEngine d id e)

/-! ## Late and failed tasks (R32, R37, R64) -/

/-- Count in a partition's frame increments: 0 late decode, 1 late training, 2 carry-over, 3 window overrun (R37). -/
def addInc (d : Dev) (p k n : Nat) : Dev :=
  { d with frame := { d.frame with inc := d.frame.inc.set 0 (4 * p + k) (d.frame.inc.get 0 (4 * p + k) + n) } }

/-- A lateness for which OVERRUN is raised at the next edge (R37). -/
def markOverrun (d : Dev) (p : Nat) : Dev :=
  { d with frame := { d.frame with overrun := if d.frame.overrun.contains p then d.frame.overrun else p :: d.frame.overrun } }

/-- The HEAD of a stream's ring goes to the first descriptor of the task that the stream is at. -/
def seekStream (d : Dev) (s : Nat) : Dev :=
  let x := stream d s
  match x.tasks.head?.bind (task d) with
  | none => d
  | some t =>
    let c := ring d x.ring
    if ringEnabled c then setRing d x.ring (setField c 96 17 (t.start % (2 * ringSize c))) else d

/-- A stream's hold ends: its tile reads HELD only while another stream is held on it (R66). -/
def endHold (d : Dev) (s : Nat) : Dev :=
  match (stream d s).held with
  | none => d
  | some (k, _) =>
    if d.frame.streams.any (fun x => x.1 != s && x.2.held.any (·.1 == k)) then d
    else setTile d k { tile d k with held := false }

/-- The stream of a task moves at once to its next planned task (R32, R64). -/
def leaveStream (d : Dev) (id : Nat) (s : Nat) : Dev :=
  let x := stream d s
  if x.tasks.contains id then
    let d := if x.tasks.head? = some id then endHold d s else d
    let d := setStream d s { x with tasks := x.tasks.filter (· ≠ id), held := if x.tasks.head? = some id then none else x.held }
    if x.tasks.head? = some id then seekStream d s else d
  else d

/-- The training chunk of a task's rows, in this frame, with all its rows here. -/
def sentChunk (d : Dev) (t : TaskPlan) : Option (ChunkRef × Nat × Nat) :=
  match t.shape with
  | .rows b _ => ((d.frame.batches[b]?).bind (·.chunk)).map (fun c =>
      (c, d.frame.no, ((d.frame.batches.filter (·.chunk == some c)).flatMap (fun b => b.rows.map (·.n))).sum))
  | _ => none

/-- The chunk of a training task is planned again, later (R225). -/
def slipChunk (d : Dev) (t : Task) : Dev :=
  match sentChunk d t.plan with
  | some x => if d.frame.slipped.any (·.1 == x.1) then d else { d with frame := { d.frame with slipped := d.frame.slipped ++ [x] } }
  | none => d

/-- The parameters of a late decode task's tokens are kept for their next attempt (R88). -/
def keepPins (d : Dev) (t : Task) : Dev :=
  let slots := d.num.tallyMap.filter (fun x => x.2.2 == t.plan.id)
  let own := slots.flatMap (fun x => match d.num.pins.find? (·.1 == x.1) with
    | some y => t.plan.seqs.map (fun k => (k, x.2.1, y.2))
    | none => [])
  let fresh := own.filter (fun y => !d.num.kept.any (fun z => z.1 == y.1 && z.2.1 == y.2.1))
  { d with num := { d.num with kept := d.num.kept ++ fresh } }

/-- A late or failed decode or training task by its class (R32): a decode token is planned again; a training contribution
is absent until its re-run, and enters the late manifest at its reduction's close. -/
def lateClass (d : Dev) (t : Task) : Dev :=
  let p := t.plan.part
  match t.plan.cls with
  | .decode =>
    let d := addInc (bumpPart d 0x1040 p t.plan.tokens) p 0 t.plan.tokens
    let d := forEach t.plan.seqs d (fun d k => timing d (k / 2 ^ 192) 4 1)
    let d := keepPins d t
    { d with frame := { d.frame with retry := d.frame.retry ++ t.plan.seqs.filter (fun k => !d.frame.retry.contains k) } }
  | .training => slipChunk (addInc (bumpPart d 0x1041 p t.plan.contribs.length) p 1 t.plan.contribs.length) t
  | .housekeeping => d

/-- Failed housekeeping work is queued again from its start, but for a fill and a snapshot drain, whose own rules say what
follows (R64, R172, R256). -/
def failClass (d : Dev) (id : Nat) (t : Task) : Dev :=
  match t.plan.cls with
  | .housekeeping =>
    if t.plan.fill.isSome ∨ t.plan.drain.isSome then d
    else { d with frame := { d.frame with again := d.frame.again ++ [id] } }
  | _ => lateClass d t

/-- A task becomes late (R32). -/
def lateTask (d : Dev) (id : Nat) : Dev :=
  match task d id with
  | none => d
  | some t =>
    if t.status ≠ .live then d
    else
      let d := setTask d id { t with status := .late }
      let d := leaveStream (markOverrun d t.plan.part) id t.plan.stream
      match t.plan.cls with
      | .housekeeping =>
        let d := addInc (bumpPart d 0x1042 t.plan.part 1) t.plan.part 2 1
        { d with frame := { d.frame with carried := d.frame.carried ++ [id] } }
      | _ => lateClass d t

/-- Why a task fails, with its counter and its event source (R64, R71, R132, R136, R148, R449); `quiet`: the counter and the
event belong to what made it fail. -/
inductive FailKind where
  | descInvalid | accConflict | accUnowned | accUndrained | semOverflow | ringOverrun | xferShort (c : Nat) | quiet
  deriving DecidableEq, Repr

/-- The counter of a failure. -/
def failCount (d : Dev) (p : Nat) : FailKind → Dev
  | .descInvalid => bumpPart d 0x2046 p 1
  | .accConflict => bumpPart d 0x2043 p 1
  | .accUnowned => bumpPart d 0x2044 p 1
  | .accUndrained => bumpPart d 0x2045 p 1
  | .semOverflow => bumpPart d 0x2054 p 1
  | .ringOverrun => bumpPart d 0x2055 p 1
  | .xferShort _ => d
  | .quiet => d

/-- The event of a failure. -/
def failEvent (d : Dev) (p : Nat) : FailKind → Dev
  | .descInvalid => raise d (partSrc p 4) 0 0
  | .accConflict => raise d (partSrc p 1) 0 0
  | .accUnowned => raise d (partSrc p 2) 0 0
  | .accUndrained => raise d (partSrc p 3) 0 0
  | .semOverflow => raise d (partSrc p 6) 0 0
  | .ringOverrun => raise d (partSrc p 7) 0 0
  | .xferShort c => raise d (partSrc p (12 + c % 4)) 0 0
  | .quiet => d

/-- A task fails (R64): it issues nothing further, its operations stop and never complete, its transfers end CUT, its tiles
keep their tags; a decode or training task is handled as late; a housekeeping task is queued again; its stream moves on. -/
def failTask (d : Dev) (id : Nat) (k : FailKind) : Dev :=
  match task d id with
  | none => d
  | some t =>
    if t.status ≠ .live then d
    else
      let d := setTask d id { t with status := .failed }
      let d := stopTask d id
      let d := failEvent (failCount d t.plan.part k) t.plan.part k
      leaveStream (failClass d id t) id t.plan.stream

/-- A task owns a tile that has not been drained (R62). -/
def undrained (d : Dev) (id : Nat) : Bool := d.hearth.tiles.any (fun x => x.2.owner.isSome && x.2.task == id)

/-- A count by engine has reached the task's descriptors, on every engine and at the sequencer. -/
def allCounted (t : Task) (n : Table Nat) : Bool :=
  (taskEngines t).all (fun e => ((t.plan.windows.filter (·.eng == e)).map (·.count)).sum ≤ n.get 0 e) &&
  t.plan.controls ≤ n.get 0 engSeq

/-- Every descriptor of the task has completed; has issued. -/
def allComplete (t : Task) : Bool := allCounted t t.completed
def allIssued (t : Task) : Bool := allCounted t t.issued

/-- A descriptor of a task completes on an engine; the last one ends the task, which fails with ACC_UNDRAINED if it still
owns a tile (R62). -/
def completeOne (d : Dev) (id eng : Nat) : Dev :=
  match task d id with
  | none => d
  | some t =>
    let t := { t with completed := t.completed.set 0 eng (t.completed.get 0 eng + 1) }
    let d := setTask d id t
    if t.status = .live ∧ allComplete t then
      if undrained d id then failTask d id .accUndrained
      else leaveStream (setTask d id { t with status := .done }) id t.plan.stream
    else d

/-- The ring's HEAD moves past a descriptor that issues, and the stream's hold ends. -/
def passHead (d : Dev) (s : Nat) : Dev :=
  let x := stream d s
  let c := ring d x.ring
  let d := if ringEnabled c then setRing d x.ring (setField c 96 17 (ringNext c (ringHead c))) else d
  setStream d s { x with held := none }

/-- A descriptor of a task issues: it is counted, and noted with whether it stands alone (R32); the ring's HEAD moves past it, and
behind the task's last one the stream is at its next planned task (R49). -/
def issueOne (d : Dev) (id s eng : Nat) (alone : Bool) : Dev :=
  match task d id with
  | none => passHead d s
  | some t =>
    let t := { t with issued := t.issued.set 0 eng (t.issued.get 0 eng + 1), order := t.order ++ [(eng, alone)] }
    let d := passHead (setTask d id t) s
    if allIssued t then leaveStream d id s else d

/-- SIG_SEM at a descriptor's completion: an overflow fails the issuing task (R50, R132). -/
def signal (d : Dev) (c id : Nat) (en : Bool) (n : Nat) : Dev :=
  if !en then d
  else match semAdd d c n 1 with
    | some d => d
    | none => failTask d id .semOverflow

/-- What a wait on a semaphore finds (R50, R132). -/
inductive WaitResult where
  | go (d : Dev) | wait | poison

/-- WAIT_EN of R50: a poisoned semaphore fails the task; a zero one holds the descriptor; else one is taken at issue. -/
def waitOne (d : Dev) (c : Nat) (en : Bool) (n : Nat) : WaitResult :=
  if !en then .go d
  else if poisoned d c n then .poison
  else if sem d c n = 0 then .wait
  else .go (setSem d c n (sem d c n - 1))

/-- A faulted transfer stays at its stream's head: no later descriptor of the stream issues (R146). -/
def streamFaulted (d : Dev) (s : Nat) : Bool :=
  (d.mem.te.get [] (clusterOfStream s)).any (fun x => x.stream == s && x.st == 4)

/-- The descriptor at a stream's head and its live task, if the sequencers issue at all. -/
def atHead (d : Dev) (s : Nat) : Option (Nat × Task) :=
  if !mayIssue d || streamFaulted d s then none
  else match streamTask d s with
    | none => none
    | some id => match task d id with
      | some t => if t.status = .live then some (id, t) else none
      | none => none

/-! ## Carried work (R32, R64) -/

/-- How many of a carried task's first descriptors stand on an engine. -/
def onEngine (l : List (Nat × Bool)) (e : Nat) : Nat := (l.filter (·.1 == e)).length

/-- Descriptors issued and not complete, by their place in ring order. -/
def openItems (c : Carry) : List Nat :=
  (List.range c.order.length).filter (fun i => match c.order[i]? with
    | some (e, _) => decide (c.completed.get 0 e ≤ onEngine (c.order.take i) e)
    | none => false)

/-- The latest descriptor at or before place i that stands alone; a task's first always does. -/
def aloneBefore (c : Carry) (i : Nat) : Nat :=
  ((List.range (i + 1)).filter (fun j => (c.order[j]?).any (·.2))).foldl max 0

/-- Where carried work may resume (R32): where transfers alone are open they go on from their cursors, and the next descriptor follows;
else at the latest one that stands alone, at or before the first that is open. Where all that issued has completed the next one
resumes the task, if it stands alone, which its descriptor says (DESIGN CHOICE: log entry 154). -/
def resumePoints (c : Carry) : List Nat :=
  match openItems c with
  | [] => [c.order.length, aloneBefore c (c.order.length - 1)]
  | i :: r => if (i :: r).all (fun j => (c.order[j]?).any (fun x => engTransfer x.1)) then [c.order.length] else [aloneBefore c i]

/-- Counts of the descriptors that need not run again. -/
def keptCounts (c : Carry) (k : Nat) : Table Nat :=
  ((c.order.take k).map (·.1)).eraseDups.foldl (fun (t : Table Nat) e => t.set 0 e (min (c.completed.get 0 e) (onEngine (c.order.take k) e))) []

/-- A task takes over what carried work has done: the descriptors before the one that runs first count as issued, and, but for the
transfers that go on from their cursors, as complete. -/
def resumeTask (x : Task) (c : Carry) (k : Nat) : Task :=
  { x with start := c.start, order := c.order.take k, completed := keptCounts c k,
           issued := ((c.order.take k).map (·.1)).eraseDups.foldl (fun (t : Table Nat) e => t.set 0 e (onEngine (c.order.take k) e)) [] }

/-! ## Buffer rings (R135, R136) -/

/-- Publish v filled slots; a full ring and a semaphore overflow change nothing (R132, R135, R136). -/
def ringPublish (d : Dev) (c r v : Nat) : Except FailKind Dev :=
  let x := bring d c r
  if x.slots < x.count + v then .error .ringOverrun
  else match semAdd d c x.full v with
    | none => .error .semOverflow
    | some d =>
      .ok (setBring d c r (setField (setField x 44 4 ((x.tail + v) % x.slots)) 48 5 (x.count + v)))

/-- Release v consumed slots; an empty ring and a semaphore overflow change nothing. -/
def ringRelease (d : Dev) (c r v : Nat) : Except FailKind Dev :=
  let x := bring d c r
  if x.count < v then .error .ringOverrun
  else match semAdd d c x.empty v with
    | none => .error .semOverflow
    | some d =>
      let d := setBring d c r (setField (setField x 40 4 ((x.head + v) % x.slots)) 48 5 (x.count - v))
      .ok { d with mem := { d.mem with stamps := d.mem.stamps.modify [] (64 * c + r) (·.drop v) } }

/-! ## The sequencers' own descriptors -/

/-- A control descriptor: NOP alone is defined (R48); it needs only some open window of its task (R49). -/
def nopStep (d : Dev) (s : Nat) (v : BitVec 64) : Dev :=
  match atHead d s with
  | none => d
  | some (id, t) =>
    if !anyWindowOpen t d.frame.off then d
    else if field v 0 8 ≠ 1 ∨ s ≥ 1024 then failTask d id .descInvalid
    else completeOne (issueOne d id s engSeq true) id engSeq

/-- A semaphore operation at its stream's head (R131, R132, R135). -/
def semStep (d : Dev) (s : Nat) (v : SemDesc) : Dev :=
  match atHead d s with
  | none => d
  | some (id, t) =>
    let c := clusterOfStream s
    if !anyWindowOpen t d.frame.off then d
    else if !v.ok ∨ (v.opcode ≥ 0x42 ∧ (0x43 < v.opcode ∨ !(bring d c v.target).enabled)) then
      failTask d id .descInvalid
    else
      let done := fun d => completeOne (issueOne d id s engSeq true) id engSeq
      if v.opcode = 0x40 then
        if poisoned d c v.target then failTask d id (.xferShort c)
        else if sem d c v.target < v.value then d
        else done (setSem d c v.target (sem d c v.target - v.value))
      else if v.opcode = 0x41 then
        match semAdd d c v.target v.value with
        | some d => done d
        | none => failTask d id .semOverflow
      else
        match (if v.opcode = 0x42 then ringRelease d c v.target v.value else ringPublish d c v.target v.value) with
        | .ok d => done d
        | .error k => failTask d id k

/-- Stream numbers: 4h+q of a Hearth, or 1,024+c of a cluster sequencer (R48). -/
def streamOk (s : Nat) : Bool := s < 1056

def execNop (op : Desc8Op) (s : State) : Host.Outcome State Fault Refusal :=
  onDevIf (streamOk op.stream) s (fun d => nopStep (atOff d op.off) op.stream op.desc)

def execSemWait (op : Desc8Op) (s : State) : Host.Outcome State Fault Refusal :=
  onDevIf (streamOk op.stream) s (fun d => semStep (atOff d op.off) op.stream op.desc)

def execSemAdd (op : Desc8Op) (s : State) : Host.Outcome State Fault Refusal :=
  onDevIf (streamOk op.stream) s (fun d => semStep (atOff d op.off) op.stream op.desc)

def execRingRelease (op : Desc8Op) (s : State) : Host.Outcome State Fault Refusal :=
  onDevIf (streamOk op.stream) s (fun d => semStep (atOff d op.off) op.stream op.desc)

def execRingPublish (op : Desc8Op) (s : State) : Host.Outcome State Fault Refusal :=
  onDevIf (streamOk op.stream) s (fun d => semStep (atOff d op.off) op.stream op.desc)

end Sys2Proof.Machine
end

