-- ==== Sys2Proof/Machine/Arrays.lean ====
section
/-!
DEFINITION. The matrix arrays (R40 to R71): validity and issue of matrix descriptors, tile steps with their overflow
repeats and wide reruns, promotion, held blocks and paired issue, completion.
-/
namespace Sys2Proof.Machine
open Sys2Proof

/-! ## Validity (R39, R43 to R47, R67, R68) -/

/-- Every run of an operand lies inside R39: `outer` runs of `inner` packed elements, a stride apart. -/
def operandOk (base stride outer inner fmt : Nat) (wellOnly : Bool) : Bool :=
  (List.range outer).all (fun i =>
    let a := base + i * stride
    let n := packedLen fmt inner
    if wellOnly then runInWell a n else runOk a n)

/-- A scale region lies inside R39. -/
def scaleOk (a : Option Nat) (n : Nat) : Bool :=
  match a with
  | none => true
  | some a => runOk a n

/-- Format, rows and K extent of the block that the next descriptor on an array may name as held (R67): what the last queued
descriptor will leave, or what the buffer holds. -/
def heldShape (d : Dev) (k : Nat) : Option (Nat × Nat × Nat) :=
  match (array d k).queue.getLast? with
  | some o =>
    let v : MatDesc := o.desc
    match v.hold with
    | 1 => some (v.fmtA, v.m, v.g)
    | 2 => some (v.fmtB, v.n, v.g)
    | _ => none
  | none => (array d k).held.map (fun b => (b.fmt, b.elems.length, (b.elems.head?.getD []).length))

/-- A named held block fits: its format, its K axis or, with axes exchanged, 128 × 128 at G = 128; K = G unless the block is a
pair's stream of A blocks (R67, R68). -/
def heldOk (shape : Option (Nat × Nat × Nat)) (fmt rows g k : Nat) (swapped exempt : Bool) : Bool :=
  match shape with
  | none => false
  | some (f, r, gk) =>
    f == fmt && (exempt || k == g) &&
      (if swapped then r == 128 && gk == 128 && g == 128 && rows == 128 else r == rows && gk == g)

/-- The fields of one matrix descriptor are valid, with `shape` the held block it may name (R47). An A operand in the Inkstone, which
R70 gives no path to the array, is refused (DESIGN CHOICE: log entry 142). -/
def matFieldsOk (v : MatDesc) (shape : Option (Nat × Nat × Nat)) (exempt : Bool) : Bool :=
  v.opcode == 0x10 && v.mode ≤ 1 && field v 15 1 == 0 && field v 62 2 == 0 && field v 252 4 == 0 && v.hold ≤ 2 &&
  pairOk v.fmtA v.fmtB && groupOk v.fmtA v.fmtB v.g && 0 < v.k && v.k % v.g == 0 && v.m ≤ 128 && v.n ≤ 128 &&
  (if v.aHeld then heldOk shape v.fmtA v.m v.g v.k v.ta exempt
   else if v.ta then operandOk v.aAddr v.aStride v.k v.m v.fmtA true
   else operandOk v.aAddr v.aStride v.m v.k v.fmtA true) &&
  (if v.bHeld then heldOk shape v.fmtB v.n v.g v.k v.tb exempt
   else if v.tb then operandOk v.bAddr v.bStride v.k v.n v.fmtB true
   else operandOk v.bAddr v.bStride v.n v.k v.fmtB false) &&
  scaleOk v.rowScale 512 && scaleOk v.colScale 512 &&
  scaleOk v.gsA (v.m * v.steps) && scaleOk v.gsB (v.n * v.steps)

/-- A matrix descriptor, with its follower if it is a PAIR, is valid on logical Hearth h (R47, R68). -/
def matOk (d : Dev) (h : Nat) (v : MatDesc) (f : Option MatDesc) : Bool :=
  match v.array with
  | 0 => matFieldsOk v (heldShape d (arrayKey h 0)) false
  | 1 => matFieldsOk v (heldShape d (arrayKey h 1)) false
  | 2 =>
    match f with
    | none => false
    | some w =>
      matFieldsOk v (heldShape d (arrayKey h 0)) false && w.array == 1 && (w.aHeld || w.bHeld) && w.g == v.g &&
        w.k == v.k && matFieldsOk w (some (v.fmtA, v.m, v.g)) true
  | _ => false

/-! ## Issue (R49, R60, R61) -/

/-- What the owner tag says to a descriptor of a command ring (R60). -/
inductive TagResult where
  | free | own | other
  deriving DecidableEq, Repr

def tagOf (d : Dev) (k ringNo : Nat) : TagResult :=
  match (tile d k).owner with
  | none => .free
  | some r => if r = ringNo then .own else .other

/-- A descriptor is held at its stream's head on a tile (R61). -/
def holdOn (d : Dev) (s k eng : Nat) : Dev :=
  let d := setTile d k { tile d k with held := true }
  setStream d s { stream d s with held := some (k, eng) }

/-- The descriptor depends on nothing that an earlier one left in its tile or its operand buffer (R32). -/
def matAlone (v : MatDesc) : Bool := v.mode == 0 && !v.aHeld && !v.bHeld

/-- Queue a matrix descriptor on an array; a START on a free tile takes ownership (R60). -/
def pushMat (d : Dev) (h a id s : Nat) (v : MatDesc) (paired : Bool) : Dev :=
  let k := tileKey h a v.tile
  let d := if (tile d k).owner = none then
      setTile d k { tile d k with owner := some (stream d s).ring, task := id }
    else d
  let x := array d (arrayKey h a)
  let o : MatOp := { seq := d.hearth.nextSeq, desc := v, task := id, stream := s, paired := paired, step := 0, pass := 0,
                     ready := false, blkA := none, blkB := none, scales := none, last := none }
  let d := setArray d (arrayKey h a) { x with queue := x.queue ++ [o] }
  issueOne { d with hearth := { d.hearth with nextSeq := d.hearth.nextSeq + 1 } } id s (engArray h a) (matAlone v && !(paired && a == 1))

/-- What R49 and R60 say of one descriptor on array a: 0 issues, 1 waits, 2 is held, 3 finds a free tile it may not use. The tag is
looked at last: a descriptor that is invalid, waits for its semaphore or finds no free entry is neither held nor ACC_UNOWNED
(DESIGN CHOICE: log entry 143). -/
def matReady (d : Dev) (h a s : Nat) (v : MatDesc) : Nat :=
  if 2 ≤ (array d (arrayKey h a)).queue.length then 1
  else match tagOf d (tileKey h a v.tile) (stream d s).ring with
    | .free => if v.mode = 0 then 0 else 3
    | .own => 0
    | .other => 2

/-- A matrix descriptor at its stream's head, and for a PAIR its follower, which issues in the same hclk (R49, R68). -/
def matStep (d : Dev) (s : Nat) (v : MatDesc) (f : Option MatDesc) : Dev :=
  match atHead d s with
  | none => d
  | some (id, t) =>
    let h := s / 4
    let pair := v.array = 2
    let a := if v.array = 1 then 1 else 0
    let open1 := windowOpen t (engArray h a) d.frame.off
    let open2 := !pair || windowOpen t (engArray h 1) d.frame.off
    let c := clusterOfStream s
    if s ≥ 1024 then (if anyWindowOpen t d.frame.off then failTask d id .descInvalid else d)
    else if !(open1 && open2) then d
    else if !matOk d h v f then failTask d id .descInvalid
    else
      let d := ductEnter d h
      let w := f.getD 0
      match waitOne d c v.waitEn v.waitSem with
      | .poison => failTask d id (.xferShort c)
      | .wait => d
      | .go d1 =>
        match (if pair then waitOne d1 c w.waitEn w.waitSem else .go d1) with
        | .poison => failTask d id (.xferShort c)
        | .wait => d
        | .go d2 =>
          let r1 := matReady d h a s v
          let r2 := if pair then matReady d h 1 s w else 0
          if r1 = 1 ∨ r2 = 1 then d
          else if r1 = 2 then holdOn d s (tileKey h a v.tile) (engArray h a)
          else if r2 = 2 then holdOn d s (tileKey h 1 w.tile) (engArray h 1)
          else if r1 = 3 ∨ r2 = 3 then failTask d id .accUnowned
          else
            let d := pushMat d2 h a id s v pair
            if pair then pushMat d h 1 id s w true else d

/-! ## Operand blocks (R46, R56, R67, R68) -/

/-- Exchange the axes of a block. -/
def transposeBlock (b : List (List Nat)) : List (List Nat) :=
  (List.range (b.head?.getD []).length).map (fun k => b.map (fun r => (r[k]?).getD 0))

/-- Rows of codes of one operand for a tile step: `rows` rows of G elements from k0 on. -/
def loadBlock (d : Dev) (h base stride fmt rows g k0 : Nat) (swapped : Bool) : List (List Nat) :=
  (List.range rows).map (fun i => (List.range g).map (fun k =>
    if swapped then opElem d h (base + (k0 + k) * stride) fmt i else opElem d h (base + i * stride) fmt (k0 + k)))

/-- A held block as an operand, with its axes exchanged or not. -/
def heldAs (b : List (List Nat)) (swapped : Bool) : List (List Nat) := if swapped then transposeBlock b else b

/-- The A blocks of a descriptor's tile step; `src` is the block that A_SRC names. -/
def blockA (d : Dev) (h : Nat) (v : MatDesc) (step : Nat) (src : List (List Nat)) : List (List Nat) :=
  if v.aHeld then heldAs src v.ta else loadBlock d h v.aAddr v.aStride v.fmtA v.m v.g (step * v.g) v.ta
def blockB (d : Dev) (h : Nat) (v : MatDesc) (step : Nat) (src : List (List Nat)) : List (List Nat) :=
  if v.bHeld then heldAs src v.tb else loadBlock d h v.bAddr v.bStride v.fmtB v.n v.g (step * v.g) v.tb

/-! ## Chunks and promotion (R52, R53, R57) -/

/-- The chunk unit's exponent L (R52). -/
def chunkL (fa fb : Nat) : Int := max (fmtQ fa + fmtQ fb) (fmtE fa + fmtE fb - 26)

/-- The special value of a cell's group (R53): NaN, an infinity, or none. -/
def specialOf (prods : List Num) : Option Num :=
  if prods.any (· == .nan) then some .nan
  else
    let p := prods.any (· == .inf false)
    let n := prods.any (· == .inf true)
    if p && n then some .nan else if p then some (.inf false) else if n then some (.inf true) else none

/-- The chunk of one cell in a narrow pass with unit 2^u: the sum, and whether a prefix left 32 bits (R52). -/
def chunkSum (prods : List Num) (u : Int) : Int × Bool :=
  prods.foldl (fun acc p =>
    let q : Int := match p with
      | .fin s m e => let r := rneInt m (e - u); if s then -(r : Int) else (r : Int)
      | _ => 0
    let c := acc.1 + q
    (c, acc.2 || decide (c < -(2 ^ 31 : Nat)) || decide ((2 ^ 31 - 1 : Nat) < c))) (0, false)

/-- The wide partial of one cell (R57): FP32, one rounding an addition, in ascending k. Elements enter at their exact value: an FP16
element that BF16 cannot hold is not rounded to it (DESIGN CHOICE: log entry 144). -/
def wideSum (prods : List Num) : Word := prods.foldl (fun w p => ofNum ((toNum w).add p)) 0

/-- The products of a cell's group, in ascending k. -/
def cellProds (fa fb : Nat) (ra rb : List Nat) : List Num :=
  (ra.zip rb).map (fun x => (elemValue fa x.1).mul (elemValue fb x.2))

/-- The group scale value of a code (R46, R53). -/
def groupScale (fmt : Nat) (a : Option Nat) (d : Dev) (h idx : Nat) : Num :=
  match a with
  | none => .fin false 1 0
  | some a => if isLb4 fmt then lbScale (opByte d h (a + idx)).toNat else e8m0 (opByte d h (a + idx)).toNat

/-- An FP32 scale of a vector; 1.0 where it has no address. -/
def vecScale (a : Option Nat) (d : Dev) (h idx : Nat) : Word :=
  match a with
  | none => 0x3F800000#32
  | some a => opWord d h (a + 4 * idx)

/-- The FP32 term p of a cell in a pass (R53, R57): 0 to 2 narrow, 3 wide; and whether its chunk overflowed. -/
def cellTerm (v : MatDesc) (pass : Nat) (ra rb : List Nat) (ga gb : Num) : Word × Bool :=
  let prods := cellProds v.fmtA v.fmtB ra rb
  match specialOf prods with
  | some x => (ofNum ((x.mul ga).mul gb), false)
  | none =>
    if pass = 3 ∨ isW16 v.fmtA then (ofNum (((toNum (wideSum prods)).mul ga).mul gb), false)
    else
      let u := chunkL v.fmtA v.fmtB + 4 * (pass : Int)
      let (c, o) := chunkSum prods u
      (ofNum (((Num.ofInt c u).mul ga).mul gb), o && ga != .nan && gb != .nan)

/-- Every cell's term in a pass of a tile step: (128·i + j, p), and whether any cell overflowed (R56). -/
def passTerms (d : Dev) (h : Nat) (v : MatDesc) (step pass : Nat) (ba bb : List (List Nat)) : List (Nat × Word) × Bool :=
  let cells := (List.range v.m).flatMap (fun i => (List.range v.n).map (fun j =>
    let ga := groupScale v.fmtA v.gsA d h (i * v.steps + step)
    let gb := groupScale v.fmtB v.gsB d h (j * v.steps + step)
    (128 * i + j, cellTerm v pass ((ba[i]?).getD []) ((bb[j]?).getD []) ga gb)))
  (cells.map (fun c => (c.1, c.2.1)), cells.any (·.2.2))

/-- The row and column scales of a descriptor (R46). -/
def descScales (d : Dev) (h : Nat) (v : MatDesc) : List Word × List Word :=
  ((List.range v.m).map (vecScale v.rowScale d h), (List.range v.n).map (vecScale v.colScale d h))

/-- Promotion (R53): t = round(p × s) is added to each cell's element, with s = round(sr × sc). -/
def promote (scales : List Word × List Word) (acc : Table Word) (terms : List (Nat × Word)) : Table Word :=
  terms.foldl (fun acc c =>
    let s := fmul ((scales.1[c.1 / 128]?).getD 0) ((scales.2[c.1 % 128]?).getD 0)
    acc.set 0 c.1 (fadd (acc.get 0 c.1) (fmul c.2 s))) acc

/-! ## Tallies (R58) -/

/-- A promoted tile step that needed repeats or the wide path is counted (R58). -/
def tallyPass (d : Dev) (h ntag pass : Nat) : Dev :=
  match pass with
  | 0 => d
  | 1 => tallyAdd d h ntag (fun t => { t with rep1 := sat16 (t.rep1 + 1) })
  | 2 => tallyAdd d h ntag (fun t => { t with rep2 := sat16 (t.rep2 + 1) })
  | _ => tallyAdd d h ntag (fun t => { t with wide := sat16 (t.wide + 1) })

/-! ## Tile steps (R52 to R57, R68) -/

/-- Put an operation back at the front of its array's queue. -/
def setFront (d : Dev) (k : Nat) (o : MatOp) : Dev :=
  let x := array d k
  setArray d k { x with queue := o :: x.queue.tail }

/-- A DRAIN of the tile issued before an operation has not yet read all of it (R60: chains behind earlier work; R63). -/
def drainAhead (d : Dev) (h a t seq : Nat) : Bool :=
  (ductus d h).any (fun o =>
    DuctDesc.isDrain o.desc && DuctDesc.tarray o.desc == a && DuctDesc.tile o.desc == t && !o.entered && o.seq < seq)

/-- Both arrays of a pair go to the next tile step once both are promoted (R68). -/
def pairAdvance (d : Dev) (h : Nat) : Dev :=
  match (array d (arrayKey h 0)).queue.head?, (array d (arrayKey h 1)).queue.head? with
  | some a, some b =>
    if a.paired ∧ b.paired ∧ a.ready ∧ b.ready then
      let next := fun (o : MatOp) => { o with step := o.step + 1, pass := 0, ready := false, blkA := none, blkB := none }
      setFront (setFront d (arrayKey h 0) (next a)) (arrayKey h 1) (next b)
    else d
  | _, _ => d

/-- The held block in an array's operand buffer. -/
def heldBlock (d : Dev) (h a : Nat) : List (List Nat) := ((array d (arrayKey h a)).held.map (·.elems)).getD []

/-- The PAIR's A block of a tile step is read once, whichever array needs it first, and kept with the PAIR (R68). -/
def readPair (d : Dev) (h : Nat) : Dev :=
  match (array d (arrayKey h 0)).queue.head? with
  | some p => if p.paired then setFront d (arrayKey h 0) { p with blkA := some (p.blkA.getD (blockA d h p.desc p.step (heldBlock d h 0))) }
    else d
  | none => d

/-- The block that A_SRC or B_SRC = 1 names: the held block, or for the follower of a pair the PAIR's A block (R67, R68). -/
def sourceBlock (d : Dev) (h a : Nat) (o : MatOp) : List (List Nat) :=
  if o.paired ∧ a = 1 then ((array d (arrayKey h 0)).queue.head?.bind (·.blkA)).getD [] else heldBlock d h a

/-- A pass of the tile step in progress ends on an array (R56, R57): on an overflow the step runs again with the unit four
bits up, or, after pass 2, on the wide path; else it is promoted (DEDUCED: log entry 122). The descriptor's scales are read at
its first tile step's end (DEDUCED: log entry 145). -/
def tileStep (d : Dev) (h a : Nat) : Dev :=
  let d := ductEnter d h
  let k := arrayKey h a
  match (array d k).queue.head? with
  | none => d
  | some o =>
    let v : MatDesc := o.desc
    let partnerFront := match (array d (arrayKey h (1 - a))).queue.head? with
      | some p => p.paired
      | none => false
    if o.ready ∨ v.steps ≤ o.step ∨ (o.paired ∧ !partnerFront) ∨ drainAhead d h a v.tile o.seq then d
    else
      let d := if o.paired then readPair d h else d
      let src := sourceBlock d h a o
      let ba := o.blkA.getD (blockA d h v o.step src)
      let bb := o.blkB.getD (blockB d h v o.step src)
      let (terms, ovf) := passTerms d h v o.step o.pass ba bb
      let scales := o.scales.getD (descScales d h v)
      let o := { o with scales := some scales }
      if ovf then setFront d k { o with pass := o.pass + 1, blkA := some ba, blkB := some bb }
      else
        let tk := tileKey h a v.tile
        let t := tile d tk
        let first := v.mode = 0 ∧ o.step = 0
        let acc := promote scales (if first then [] else t.acc) terms
        let owned := if first ∧ t.owner = none then some (stream d o.stream).ring else t.owner
        let d := setTile d tk { t with acc := acc, owner := owned, task := if first then o.task else t.task }
        let d := tallyPass d h v.ntag (if isW16 v.fmtA then 0 else o.pass)
        let last := some (o.step, o.pass, ba, bb)
        if o.paired then pairAdvance (setFront d k { o with ready := true, blkA := some ba, blkB := some bb, last := last }) h
        else setFront d k { o with step := o.step + 1, pass := 0, blkA := none, blkB := none, last := last }

/-- What a descriptor leaves in its operand buffer (R67). -/
def leftBlock (o : MatOp) : Option HeldBlock :=
  let v : MatDesc := o.desc
  match o.last with
  | none => none
  | some (_, _, ba, bb) =>
    match v.hold with
    | 1 => some ⟨v.fmtA, ba⟩
    | 2 => some ⟨v.fmtB, bb⟩
    | _ => none

/-- A matrix descriptor completes when its last promotion is written, before its window closes (R33, R51): it leaves or releases the
held block, signals SIG_SEM, and may end its task. -/
def matComplete (d : Dev) (h a : Nat) : Dev :=
  let k := arrayKey h a
  match (array d k).queue.head? with
  | none => d
  | some o =>
    let v : MatDesc := o.desc
    if o.step < v.steps ∨ !inWindow d o.task (engArray h a) d.frame.off then d
    else
      let x := array d k
      let d := setArray d k { queue := x.queue.tail, held := leftBlock o }
      let d := signal d (clusterOf h) o.task v.sigEn v.sigSem
      completeOne d o.task (engArray h a)

/-! ## The Tracer (R93 to R95) -/

def traceIdle : TraceStat := { sampled := 0, disagreed := 0, worst := 0, pending := false }

/-- What a sampled cell shows (R94, R95): whether it disagrees, and the worst-value code (plus 129) it records, 0 for none. -/
def traceCell (tb : Nat) (p pw m : Word) : Bool × Nat :=
  let a := toNum p
  let b := toNum pw
  if a.isFin && b.isFin then
    let same := !(Num.lt a b) && !(Num.lt b a)
    let diff := ofNum ((a.add b.neg).abs)
    let bound := fmul (pow2 (-(tb : Int))) m
    let dis := if (toNum m).isZero then !same else Num.lt (toNum bound) (toNum diff)
    let q := fdiv diff m
    let worst :=
      if same then 0
      else match toNum q with
        | .inf _ => 127 + 129
        | .fin _ 0 _ => 0
        | .fin _ mm e => (max (-128) (min 127 (ceilLog2 mm e)) + 129).toNat
        | .nan => 0
    (dis, worst)
  else (decide (a ≠ b), 0)

/-- Σ|a × b| × ga × gb in FP32, formed as the wide path forms its sum (log entry 17). -/
def traceMag (v : MatDesc) (ra rb : List Nat) (ga gb : Num) : Word :=
  let prods := (cellProds v.fmtA v.fmtB ra rb).map Num.abs
  ofNum (((toNum (wideSum prods)).mul ga).mul gb)

/-- The shadow pass of a sampled tile step ends (R94): narrow and wide terms of every cell are compared. -/
def tracePass (d : Dev) (h a st : Nat) : Dev :=
  match (array d (arrayKey h a)).queue.head? with
  | none => d
  | some o =>
    let v : MatDesc := o.desc
    match o.last with
    | none => d
    | some (step, pass, ba, bb) =>
      let p := partOfHearth h
      let tb := field (d.num.records.get 0 st) 49 7
      let cells := if pass = 3 ∨ isW16 v.fmtA then [] else
        (List.range v.m).flatMap (fun i => (List.range v.n).map (fun j =>
          let ga := groupScale v.fmtA v.gsA d h (i * v.steps + step)
          let gb := groupScale v.fmtB v.gsB d h (j * v.steps + step)
          let ra := (ba[i]?).getD []
          let rb := (bb[j]?).getD []
          traceCell tb (cellTerm v pass ra rb ga gb).1 (cellTerm v 3 ra rb ga gb).1 (traceMag v ra rb ga gb)))
      let dis := cells.any (·.1)
      let worst := cells.foldl (fun w c => max w c.2) 0
      let d := bumpPart d 0x5041 p 1
      let d := if dis then bumpPart d 0x5042 p 1 else d
      { d with num := { d.num with trace := d.num.trace.modify traceIdle st (fun t =>
          { t with sampled := t.sampled + 1, disagreed := t.disagreed + b2n dis, worst := max t.worst worst,
                   pending := t.pending || dis }) } }

/-! ## The commands -/

def execMatmul (op : MatmulOp) (s : State) : Host.Outcome State Fault Refusal :=
  onDevIf (streamOk op.stream) s (fun d => matStep (atOff d op.off) op.stream op.desc op.follower)

def arrayOk (h a : Nat) : Bool := h < 256 && a < 2

def execTileStepEnd (op : ArrayOp) (s : State) : Host.Outcome State Fault Refusal :=
  onDevIf (arrayOk op.hearth op.array) s (fun d => tileStep (atOff d op.off) op.hearth op.array)

end Sys2Proof.Machine
end

