-- ==== Sys2Proof/Machine/Fabric.lean ====
section
/-!
DEFINITION. How Ligature carries messages (R273 to R284): a port's flits, credits and replay, the choice of a port, the reception
of a message, and forwarding.
-/
namespace Sys2Proof
open Sys2Proof.Machine

/-! ## Flits (R273, R274) -/

/-- One bit, one byte and a string of bytes through the CRC-24 of RFC 4880. -/
def crcBit (c : Nat) : Nat := if c * 2 < 2 ^ 24 then c * 2 else (c * 2) ^^^ 0x1864CFB
def crcByte (c b : Nat) : Nat := (List.range 8).foldl (fun c _ => crcBit c) (c ^^^ b <<< 16)
def crc24 (l : List Byte) : Nat := l.foldl (fun c b => crcByte c b.toNat) 0xB704CE

/-- SEQ, ACK, CVC and CREDITS of a flit's header; its CRC is that of the data bytes and header bits [39:0]. -/
def FlitOp.seq (op : FlitOp) : Nat := field op.header 4 12
def FlitOp.ack (op : FlitOp) : Nat := field op.header 16 12
def FlitOp.cvc (op : FlitOp) : Nat := field op.header 28 2
def FlitOp.credits (op : FlitOp) : Nat := field op.header 30 10
def FlitOp.crcOk (op : FlitOp) : Bool := field op.header 40 24 == crc24 (op.data ++ leBytes 5 (field op.header 0 40))

end Sys2Proof

namespace Sys2Proof.Machine
open Sys2Proof

/-! ## Ports -/

/-- A port that nothing has powered. -/
def portIdle : PortS :=
  { st := .disabled, saved := false, fast := false, fails := 0, failedAt := 0, phy := false, hello := none, txSeq := 0, replay := [],
    queue := [], rxSeq := 0, naks := 0, credit := [], leaving := false, removed := false, fec := 0, key := [], sentFlits := 0 }

def port (d : Dev) (p : Nat) : PortS := d.lig.ports.get portIdle p
def setPort (d : Dev) (p : Nat) (x : PortS) : Dev := { d with lig := { d.lig with ports := d.lig.ports.set portIdle p x } }

/-- PORT_STATE (0x4011). -/
def PortState.code : PortState → Nat
  | .disabled => 0 | .down => 1 | .training => 2 | .miswired => 3 | .up => 4 | .retraining => 5 | .failed => 6

/-- PORT_MODE of a port: 0 DISABLED, 1 LIGATURE, 2 ETHERNET (R270). -/
def portMode (d : Dev) (p : Nat) : Nat := reg d 0x4010 (p + 1)

/-- A port carries messages: UP, in LIGATURE mode. -/
def portUp (d : Dev) (p : Nat) : Bool := (port d p).st = .up && portMode d p == 1

/-- 32-byte units and flits of a message: a header and its body, from the start of a flit (R273, R277) (DEDUCED: log entry 62). -/
def msgUnits (m : Msg) : Nat := 1 + (m.body.length + 31) / 32
def msgFlits (m : Msg) : Nat := (msgUnits m + 63) / 64

/-- The 32-byte header of a message (R277). -/
def msgHeader (m : Msg) : BitVec 256 :=
  BitVec.ofNat 256 (packBits [(0, 8, m.kind), (8, 2, m.vc), (10, 2, m.cls), (12, 8, msgUnits m - 1), (20, 4, m.dstUnit), (24, 18, m.dstDevice),
    (42, 18, m.srcDevice), (60, 4, m.srcUnit), (64, 16, m.tag), (80, 4, m.hops), (88, 8, m.epoch), (96, 64, m.stamp), (160, 48, m.addr),
    (208, 16, m.seg), (224, 16, m.segs), (240, 16, m.arg)])

/-- The data bytes of a message's flits: its header and body, in whole flits. -/
def msgData (m : Msg) : List (List Byte) :=
  let bytes := leBytes 32 (msgHeader m).toNat ++ m.body
  (List.range (msgFlits m)).map (fun k => ((bytes.drop (2048 * k)).take 2048) ++ List.replicate (2048 - (bytes.length - 2048 * k)) 0)

/-- The counter block of block b in the flit with a count (R372). -/
def ctrBlock (count b : Nat) : List Byte := leBytes 8 count ++ leBytes 1 b ++ [Config.linkDirection] ++ leBytes 6 0
/-- A flit's data bytes under AES-256 in counter mode (R372). -/
def linkFlit (key : List Byte) (count : Nat) (data : List Byte) : List Byte :=
  (List.range 128).flatMap (fun b => List.zipWith (· ^^^ ·) (Config.aes256 key (ctrBlock count b)) ((data.drop (16 * b)).take 16))

/-- Until it is numbered, a device's messages cross its ports in clear, and only those of MGMT, which carries SPDM, for the unit at the far
end (R372). -/
def hasNumber (d : Dev) : Bool := reg d 0x4001 0x00 != 0xFFFFFFFF
def crosses (d : Dev) (m : Msg) : Bool := hasNumber d || (m.kind == 0x02 && m.dstUnit == 15)
/-- A message's flits as they leave a port. -/
def linkFlits (d : Dev) (x : PortS) (m : Msg) : List (List Byte) :=
  if hasNumber d then (msgData m).zipIdx.map (fun y => linkFlit x.key (x.sentFlits + y.2) y.1) else msgData m

/-- The virtual channel of a kind (R278); none: not a kind of the table. -/
def kindVc (k : Nat) : Option Nat :=
  if k = 0x01 ∨ k = 0x02 ∨ k = 0x03 ∨ k = 0x04 then some 0
  else if k = 0x10 ∨ k = 0x11 then some 1
  else if k = 0x12 ∨ k = 0x13 ∨ k = 0x14 then some 2
  else if k = 0x20 ∨ k = 0x30 then some 3
  else none

/-! ## Sending on a port (R274 to R276) -/

/-- The place of a message's class in the priority of the slice in force (R24): 0 first (DEDUCED: log entry 67). -/
def classRank (d : Dev) (cls : Nat) : Nat :=
  if 3 ≤ cls then 3
  else if d.frame.off < trainStart d then cls
  else if d.frame.off < hkStart d then (match cls with | 0 => 1 | 1 => 0 | _ => 2)
  else (match cls with | 0 => 1 | 1 => 2 | _ => 0)

/-- Flits in the replay buffer. -/
def PortS.outstanding (x : PortS) : Nat := (x.replay.map (fun y => y.2.1)).sum

/-- A waiting message may go: the heads of the four channels, with credit and room in the replay buffer. -/
def PortS.heads (x : PortS) : List (Nat × Msg) :=
  (List.range 4).filterMap (fun v => x.queue.find? (fun y => y.2.vc == v)) |>.filter (fun y =>
    msgUnits y.2 ≤ x.credit.get 0 y.2.vc && x.outstanding + msgFlits y.2 ≤ 512)

/-- The next message: channel 0 first, then by class, then by age (R276). -/
def nextMsg (d : Dev) (x : PortS) : Option (Nat × Msg) :=
  x.heads.foldl (fun b y => match b with
    | none => some y
    | some z =>
      let key := fun (m : Nat × Msg) => (if m.2.vc = 0 then 0 else 1 + classRank d m.2.cls, m.1)
      let (k1, t1) := key y
      let (k2, t2) := key z
      if k1 < k2 ∨ (k1 = k2 ∧ t1 < t2) then some y else some z) none

/-- Take the first entry equal to a message out of a queue. -/
def dropMsg (m : Nat × Msg) : List (Nat × Msg) → List (Nat × Msg)
  | [] => []
  | y :: r => if y = m then r else y :: dropMsg m r

/-- Send what credits and the replay buffer let go. -/
def drainPort (p : Nat) : Nat → Dev → Dev
  | 0, d => d
  | n + 1, d =>
    let x := port d p
    match nextMsg d x with
    | none => d
    | some m =>
      let x := { x with
        queue := dropMsg m x.queue
        credit := x.credit.set 0 m.2.vc (x.credit.get 0 m.2.vc - msgUnits m.2)
        replay := x.replay ++ [(x.txSeq, msgFlits m.2, m.2)]
        txSeq := (x.txSeq + msgFlits m.2) % 4096
        sentFlits := x.sentFlits + msgFlits m.2 }
      drainPort p n (emit (setPort d p x) (.message p (linkFlits d (port d p) m.2)))

def drainAll (d : Dev) (p : Nat) : Dev := drainPort p (port d p).queue.length d

/-- A message for a port. -/
def pushPort (d : Dev) (p : Nat) (m : Msg) : Dev :=
  let x := port d p
  if !crosses d m then d
  else drainAll (setPort d p { x with queue := x.queue ++ [(now d, m)] }) p

/-- A message is dropped under R283 and counted by its intended egress port. -/
def portDrop (d : Dev) (p : Nat) : Dev := bump d 0x4024 (p + 1) 1

/-! ## Routes and groups (R282 to R284) -/

/-- The route of a device number: a link group, 0xFE this device, 0xFF none. -/
def route (d : Dev) (dev : Nat) : Nat := if dev = reg d 0x4001 0x00 then 0xFE else d.lig.routes.get 0xFF dev

/-- The ports of a link group, and those that are UP and have not been taken out of it (R298). -/
def groupPorts (d : Dev) (g : Nat) : List Nat :=
  match d.lig.tables with
  | none => []
  | some t => ((t.groups.find? (fun x => x.1 == g)).map (·.2)).getD []
def upPorts (d : Dev) (g : Nat) : List Nat := (groupPorts d g).filter (fun p => portUp d p && !(port d p).removed)

/-- How a message takes a port of its group (R284). -/
inductive Pick where
  | tag | first | turn
  deriving DecidableEq, Repr

/-- The egress port for a device: none where it cannot be reached, with the port that its drop is counted at. -/
def egress (d : Dev) (dev : Nat) (how : Pick) (tag : Nat) : Option Nat × Nat :=
  let g := route d dev
  let ps := upPorts d g
  let k := match how with | .tag => tag | .first => 0 | .turn => d.lig.turn.get 0 g
  (if ps.isEmpty then none else ps[k % ps.length]?, ((groupPorts d g).head?).getD 0)

/-- Send a message by the route table. -/
def sendMsg (d : Dev) (m : Msg) (how : Pick) : Dev :=
  match egress d m.dstDevice how m.tag with
  | (some p, _) => pushPort d p m
  | (none, p) => portDrop d p

/-- Re-runs so far of a task that sends to a ring: those of the reported slots of a task with the same work (R288) (DEDUCED: log entry 73). -/
def sentTries (d : Dev) (t : TaskPlan) (addr : Nat) : Nat :=
  ((d.lig.sent.filter (fun x => x.addr == addr && x.task.seqs == t.seqs && x.task.contribs == t.contribs)).map (·.tries)).foldl max 0

/-- A ring slot's segments take one port, and the group's turn moves on (R284). -/
def sendSlotMsgs (d : Dev) (dev : Nat) (ms : List Msg) : Dev :=
  match egress d dev .turn 0 with
  | (some p, _) =>
    let g := route d dev
    forEach ms { d with lig := { d.lig with turn := d.lig.turn.set 0 g (d.lig.turn.get 0 g + 1) } } (fun d m => pushPort d p m)
  | (none, p) => forEach ms d (fun d _ => portDrop d p)

/-! ## Receiving (R274, R278, R279, R283) -/

/-- The peer has accepted every flit up to `ack` (R274). -/
def ackReplay (ack : Nat) : List (Nat × Nat × Msg) → List (Nat × Nat × Msg)
  | [] => []
  | (s, n, m) :: r =>
    let k := (ack + 4096 - s + 1) % 4096
    if 512 < k then (s, n, m) :: r
    else if n ≤ k then ackReplay ack r
    else ((s + k) % 4096, n - k, m) :: r

/-- ACK and credits of a flit (R274, R275). -/
def takeAck (d : Dev) (p ack cvc credits : Nat) : Dev :=
  let x := port d p
  let r := ackReplay ack x.replay
  let y := { x with replay := r, naks := if r = x.replay then x.naks else 0,
                    credit := x.credit.set 0 cvc (x.credit.get 0 cvc + credits) }
  drainAll (setPort d p y) p

/-- E is newer than e: (E − e) modulo 256 lies from 1 to 127 (R279, R450). -/
def epochOld (held e : Nat) : Bool := 1 ≤ (held + 256 - e % 256) % 256 && (held + 256 - e % 256) % 256 ≤ 127

/-- The epoch held for a device. -/
def deviceEpoch (d : Dev) (dev : Nat) : Option Nat :=
  match d.lig.tables with
  | none => none
  | some t => (t.epochs.find? (fun x => x.1 == dev)).map (·.2)

/-- A forwarded slot's port: its first segment takes the group's turn, the others follow it (R284) (DESIGN CHOICE: log entry 65). -/
def forwardSlot (d : Dev) (m : Msg) : Dev :=
  match d.lig.slotPorts.find? (fun x => x.1 == m.srcDevice && x.2.1 == m.addr && x.2.2.1 == m.stamp) with
  | some (_, _, _, p) =>
    let d := if m.seg + 1 = m.segs then
        { d with lig := { d.lig with slotPorts := d.lig.slotPorts.filter (fun x =>
            !(x.1 == m.srcDevice && x.2.1 == m.addr && x.2.2.1 == m.stamp)) } } else d
    if portUp d p then pushPort d p m else sendMsg d m .first
  | none =>
    match (egress d m.dstDevice .turn 0).1 with
    | some p =>
      let d := if m.segs = 1 then d
        else { d with lig := { d.lig with slotPorts := d.lig.slotPorts ++ [(m.srcDevice, m.addr, m.stamp, p)] } }
      sendSlotMsgs d m.dstDevice [m]
    | none => sendMsg d m .first

/-- A forwarded request of a device under its TAG: the port it came on is kept for its answer (R284). -/
def noteRequest (d : Dev) (p : Nat) (m : Msg) : Dev :=
  let l := d.lig.reqPorts.filter (fun x => !(x.1 == m.srcDevice && x.2.1 == m.tag))
  { d with lig := { d.lig with reqPorts := (m.srcDevice, m.tag, p) :: l } }

/-- A forwarded answer returns the way its request came (R284), while that port is UP; else by the route (DEDUCED: log entry 66). -/
def forwardAnswer (d : Dev) (m : Msg) : Dev :=
  match d.lig.reqPorts.find? (fun x => x.1 == m.dstDevice && x.2.1 == m.tag) with
  | some (_, _, p) =>
    let l := d.lig.reqPorts.filter (fun x => !(x.1 == m.dstDevice && x.2.1 == m.tag))
    let d := { d with lig := { d.lig with reqPorts := l } }
    if portUp d p then pushPort d p m else sendMsg d m .first
  | none => sendMsg d m .first

/-- Pass a message on that came on a port, one hop fewer (R279, R283). -/
def forwardMsg (d : Dev) (p : Nat) (m : Msg) : Dev :=
  if m.hops = 0 then bump d 0x4025 0x00 1
  else
    let m := { m with hops := m.hops - 1 }
    if m.kind = 0x20 then forwardSlot d m
    else if m.kind = 0x10 ∨ m.kind = 0x11 then sendMsg (noteRequest d p m) m .tag
    else if kindVc m.kind = some 2 then forwardAnswer d m
    else sendMsg d m .first

/-- An answer to a request goes back by the port the request came on (R284). -/
def answerMsg (d : Dev) (p : Nat) (m : Msg) (kind arg : Nat) (body : List Byte) : Dev :=
  pushPort d p
    { m with kind := kind, vc := 2, dstUnit := m.srcUnit, dstDevice := m.srcDevice, srcDevice := reg d 0x4001 0x00,
             srcUnit := m.dstUnit, hops := 15, epoch := reg d 0x4001 0x01, arg := arg, body := body }

/-- A message of a kind arrives on an UP port: whether it is this device's to take. One of no kind is counted (R278), one of an old
epoch (R279), one for another device forwarded, none but SPDM on a device without a number (R372); during a warm device reset the port answers requests with TARGET_RESET and drops
the rest (R456). -/
def receive (d : Dev) (p kind : Nat) (m : Msg) : Dev × Bool :=
  if (port d p).st ≠ .up then (d, false)
  else if kindVc m.kind = none then (bump d 0x4025 0x02 1, false)
  else if m.kind ≠ kind ∨ !crosses d m then (d, false)
  else if (deviceEpoch d m.srcDevice).any (fun e => epochOld e m.epoch) then (bump d 0x4025 0x01 1, false)
  else if d.pow.warm ∧ !running d then
    (if (m.kind = 0x10 ∨ m.kind = 0x11) ∧ route d m.dstDevice = 0xFE then answerMsg d p m 0x14 7 [] else portDrop d p, false)
  else if m.dstUnit = 15 ∨ route d m.dstDevice = 0xFE then (d, true)
  else (forwardMsg d p m, false)

end Sys2Proof.Machine
end

