-- ==== Sys2Proof/Machine/Routes.lean ====
section
/-!
DEFINITION. What the manager computes from the wiring map (R282, R285, R289 to R291, R297, R480): link groups, the relay tree,
up*/down* routes, each device's tables, and placements.
-/
namespace Sys2Proof.Machine
open Sys2Proof

/-- A device's cables: its port, the device and the port at the far end. -/
def cablesOf (m : WireMap) (dev : Nat) : List (Nat × Nat × Nat) :=
  m.cables.filterMap (fun (a, p, b, q) => if a = dev then some (p, b, q) else if b = dev then some (q, a, p) else none)

/-- Triples in ascending order of their first parts. -/
def sortKey (l : List (Nat × Nat × Nat)) : List (Nat × Nat × Nat) := sortBy (·.1) l

/-- A device's link groups in the order of their lowest ports: the neighbour, and the ports cabled to it (R282). -/
def groupsOf (m : WireMap) (dev : Nat) : List (Nat × List Nat) :=
  (sortKey (cablesOf m dev)).foldl (fun gs (p, b, _) =>
    if gs.any (fun g => g.1 == b) then gs.map (fun g => if g.1 = b then (b, g.2 ++ [p]) else g) else gs ++ [(b, [p])]) []

/-- The fabric as the manager knows it: the map, the devices that take part, the ports that are not UP. -/
structure Net where
  map : WireMap
  devices : List Nat
  down : List (Nat × Nat)
  deriving DecidableEq, Repr

def netOf (d : Dev) : Net := ⟨d.lig.map, d.lig.joined.map (·.1), d.lig.portsDown⟩

/-- A device's link groups with a port UP, to a device that takes part: group number and neighbour. -/
def Net.links (n : Net) (dev : Nat) : List (Nat × Nat) :=
  ((groupsOf n.map dev).zipIdx.filter (fun (g, _) => n.devices.contains g.1 &&
    (cablesOf n.map dev).any (fun (p, b, q) => b == g.1 && !n.down.contains (dev, p) && !n.down.contains (b, q)))).map
      (fun (g, k) => (k, g.1))

/-- Devices at most `n` links from a set, nearest first. -/
def Net.within (n : Net) : Nat → List Nat → List Nat
  | 0, seen => seen
  | k + 1, seen =>
    n.within k (seen.foldl (fun l u => l ++ ((n.links u).map (·.2)).filter (fun v => !l.contains v)) seen)

/-- Grow the relay tree device by device in the order placed: at most 16 children, depth at most 5, edges of at most 3 links (R291);
each entry: device, parent, depth. -/
def Net.grow (n : Net) : Nat → Nat → List (Nat × Nat × Nat) → List (Nat × Nat × Nat)
  | 0, _, t => t
  | k + 1, i, t =>
    match t[i]? with
    | none => t
    | some (u, _, h) =>
      let kids := if 5 ≤ h then [] else ((n.within 3 [u]).filter (fun v => !t.any (fun x => x.1 == v))).take 16
      n.grow k (i + 1) (t ++ kids.map (fun v => (v, u, h + 1)))

def Net.tree (n : Net) (mgr : Nat) : List (Nat × Nat × Nat) := n.grow (n.devices.length + 1) 0 [(mgr, mgr, 0)]

def treeDepthOf (t : List (Nat × Nat × Nat)) (dev : Nat) : Nat := ((t.find? (fun x => x.1 == dev)).map (·.2.2)).getD 6

/-- A step from u to v goes toward the manager (R285). -/
def nearer (t : List (Nat × Nat × Nat)) (u v : Nat) : Bool :=
  treeDepthOf t v < treeDepthOf t u || (treeDepthOf t v == treeDepthOf t u && v < u)

/-- Shortest up*/down* routes, lower link groups first: the frontier holds device, whether the route has gone down, first group (DEDUCED: log entry 68). -/
def Net.spread (n : Net) (t : List (Nat × Nat × Nat)) :
    Nat → List (Nat × Bool × Option Nat) → List (Nat × Bool) → List (Nat × Nat) → List (Nat × Nat)
  | 0, _, _, found => found
  | k + 1, front, seen, found =>
    let steps := front.flatMap (fun (u, dn, g) =>
      ((n.links u).filter (fun (_, v) => !(dn && nearer t u v) && t.any (fun x => x.1 == v))).map (fun (i, v) =>
        (v, dn || !nearer t u v, some (g.getD i))))
    let fresh := steps.foldl (fun (l : List (Nat × Bool × Option Nat)) s =>
      if seen.contains (s.1, s.2.1) || l.any (fun y => y.1 == s.1 && y.2.1 == s.2.1) then l else l ++ [s]) []
    let found := fresh.foldl (fun l s => if l.any (fun y => y.1 == s.1) then l else l ++ [(s.1, s.2.2.getD 0xFF)]) found
    if fresh.isEmpty then found else n.spread t k fresh (seen ++ fresh.map (fun s => (s.1, s.2.1))) found

def Net.routes (n : Net) (t : List (Nat × Nat × Nat)) (dev : Nat) : List (Nat × Nat) :=
  (n.spread t (2 * n.devices.length) [(dev, false, none)] [(dev, false)] [(dev, 0xFE)]).filter (fun x => x.1 != dev)

def identityOf (m : WireMap) (dev : Nat) : Nat := ((m.devices.find? (fun x => x.1 == dev)).map (·.2.1)).getD 0

/-- The tables of one device. -/
def Net.tablesOf (n : Net) (mgr edge : Nat) (epochs : List (Nat × Nat)) (dev : Nat) : Tables :=
  let t := n.tree mgr
  { number := dev
    routes := n.routes t dev
    groups := (groupsOf n.map dev).zipIdx.map (fun (g, k) => (k, g.2))
    cables := (cablesOf n.map dev).map (fun (p, b, q) => (p, b, q, identityOf n.map b))
    parent := ((t.find? (fun x => x.1 == dev)).map (·.2.1)).getD dev
    depth := treeDepthOf t dev
    children := (t.filter (fun x => x.2.1 == dev && x.1 != dev)).map (·.1)
    epochs := epochs
    edge := edge }

/-- The manager refuses a map that names a port twice or admits no relay tree of all its devices (R290); every port UP. -/
def mapOk (m : WireMap) (mgr : Nat) : Bool :=
  let ends := m.cables.flatMap (fun (a, p, b, q) => [(a, p), (b, q)])
  let devs := m.devices.map (·.1)
  let n : Net := ⟨m, devs, []⟩
  ends.eraseDups.length == ends.length && devs.all (fun v => (n.tree mgr).any (fun x => x.1 == v))

/-! ## The manager's tables (R292, R297) -/

/-- Tables for every device in the tree, named for the edge 16 frames on; devices without a place are ISOLATED (R291). -/
def sendTopology (d : Dev) : Dev :=
  let mgr := reg d 0x4001 0x00
  let n := netOf d
  let edge := d.frame.no + 16
  let placed := (n.tree mgr).map (·.1)
  let d := setReg d 0x4007 0x00 ((n.devices.filter (fun v => !placed.contains v)).length)
  forEach placed { d with lig := { d.lig with topoWaits := false } } (fun d v =>
    let t := n.tablesOf mgr edge d.lig.joined v
    if v = mgr then setReg { d with lig := { d.lig with tablesNext := some t } } 0x4006 0x00 edge
    else emit d (.tables v t))

def hasStandby (d : Dev) : Bool := reg d 0x4002 0x01 ≠ 0xFFFFFFFF

/-- A change of system state: the manager sends it to the standby first, and acts when that has acknowledged it (R292) (DEDUCED: log entry 72). -/
def changeTopology (d : Dev) : Dev :=
  if hasStandby d then
    emit { d with lig := { d.lig with topoWaits := true }, held := d.held ++ [(true, [])] } (.standby d.lig.map d.lig.joined d.lig.sets)
  else sendTopology d

/-- The key record of a slot (R357): its 128 bytes, and those bytes wrapped under the SWK, which are 136. -/
def keyRecord (x : KeySlot) : BitVec 1024 :=
  BitVec.ofNat 1024 (packBits [(0, 16, x.tenant), (32, 32, x.genCur), (64, 32, x.genPrev.getD 0xFFFFFFFF), (96, 1, b2n (x.st == 3)),
    (128, 256, leNat x.trkCur), (384, 256, if x.genPrev.isSome then leNat x.trkPrev else 0), (640, 256, leNat x.tdk)])
def wrapRecord (d : Dev) (x : KeySlot) : List Byte := Config.keyWrap (d.sec.swk.getD []) (leBytes 128 (keyRecord x).toNat)

/-- What the manager tells the standby of the system besides the map and the sets. -/
def sysState (d : Dev) : SysState :=
  { tokenShare := d.gen.tokenShare, prefillShare := d.gen.prefillShare, kvQuota := d.gen.kvQuota, trainShare := d.train.share,
    snaps := d.snap.completeNos, losses := (d.ash.main.map (·.2)).filter isLoss, served := d.snap.served
    tenants := d.sec.tenants, records := d.keys.map (fun x => wrapRecord d x.2)
    bases := d.base.map (fun x => ⟨x.1, x.2.phase, x.2.opId, x.2.newGen, x.2.order, x.2.switchAt⟩), nextOp := d.nextOp }

/-- Messages of the manager that carry a change of system state: the standby hears of it first (R292). -/
def mgrSend (d : Dev) (l : List Out) : Dev :=
  if hasStandby d then emit { d with held := d.held ++ [(false, l)] } (.standbyState (sysState d)) else forEach l d emit

/-- What each device can reach, by which the manager knows that reachability changed. -/
def reaches (d : Dev) : List (List (Nat × Nat)) :=
  let n := netOf d
  let t := n.tree (reg d 0x4001 0x00)
  n.devices.map (n.routes t)

/-- The manager learns a port's state; a link group that gains its first UP port or loses its last changes the routes (R297). -/
def portReported (d : Dev) (dev p state : Nat) : Dev :=
  let old := reaches d
  let l := d.lig.portsDown.filter (· ≠ (dev, p))
  let d := { d with lig := { d.lig with portsDown := if state = 4 then l else l ++ [(dev, p)] } }
  if reaches d = old then d else changeTopology d

/-- A device joins with the number that the map holds for its identity; one that the map does not hold is never numbered (R290). -/
def joinDevice (d : Dev) (identity epoch : Nat) : Dev :=
  match d.lig.map.devices.find? (fun x => x.2.1 == identity) with
  | none => d
  | some (v, _, _) =>
    changeTopology { d with lig := { d.lig with
      joined := d.lig.joined.filter (fun x => x.1 != v) ++ [(v, epoch)], lost := d.lig.lost.filter (· ≠ v) } }

/-- A device's number among those that hold an identity. -/
def numberOf (d : Dev) (identity : Nat) : Option Nat :=
  (d.lig.map.devices.find? (fun x => x.2.1 == identity)).map (·.1)

/-! ## Placements (R286, R318, R480) -/

/-- Neighbours in the chains of a set that a direct link group joins. -/
def directPairs (n : Net) (s : AppSet) : Nat :=
  (s.members.filter (fun m => s.members.any (fun x => x.replica == m.replica && x.stage == m.stage + 1 &&
    (n.links m.device).any (fun y => y.2 == x.device)))).length

def AppSetLen (s : AppSet) : Nat := (s.members.map (fun m => m.stage + 1)).foldl max 1
def AppSetReplicas (s : AppSet) : Nat := (s.members.map (fun m => m.replica + 1)).foldl max 1

/-- The placement of a member: its neighbours in its replica's chain, all ones at a chain's end. -/
def placementOf (s : AppSet) (m : Member) : Placement :=
  let near := fun (j : Nat) => ((s.members.find? (fun x => x.replica == m.replica && x.stage == j)).map (·.device)).getD 0xFFFFFFFF
  { stage := m.stage, len := AppSetLen s, replica := m.replica, replicas := AppSetReplicas s,
    prev := if m.stage = 0 then 0xFFFFFFFF else near (m.stage - 1), next := near (m.stage + 1), sysApp := s.sysApp }

/-- Numbered devices in the tree that no application uses. -/
def spareDevices (d : Dev) : List Nat :=
  let placed := ((netOf d).tree (reg d 0x4001 0x00)).map (·.1)
  placed.filter (fun v => d.lig.joined.any (fun x => x.1 == v) && !d.lig.sets.any (fun s => s.members.any (fun m => m.device == v)))

/-- The manager places an application on devices of the Capacity Table, its neighbours joined by direct link groups wherever the map
allows: no device that is free would join more in a member's place (R286, R294) (DESIGN CHOICE: log entry 185). -/
def setOk (d : Dev) (s : AppSet) : Bool :=
  let free := spareDevices { d with lig := { d.lig with sets := d.lig.sets.filter (fun x => x.sysApp != s.sysApp) } }
  s.members.all (fun m => free.contains m.device) &&
  s.members.all (fun m => free.all (fun v => s.members.any (fun x => x.device == v) ||
    decide (directPairs (netOf d) { s with members := s.members.map (fun x => if x = m then { x with device := v } else x) } ≤
      directPairs (netOf d) s)))

/-- Replicas without those of a lost device's chain, numbered from 0 in their former order (R318). -/
def dropReplica (s : AppSet) (r : Nat) : AppSet :=
  { s with members := (s.members.filter (fun m => m.replica != r)).map (fun m =>
      if r < m.replica then { m with replica := m.replica - 1 } else m) }

/-- An application's set without a lost device: a spare in its place, or a chain fewer; none where neither is to be had. -/
def mendSet (d : Dev) (s : AppSet) (dev : Nat) : Option AppSet :=
  match (spareDevices d).find? (· ≠ dev) with
  | some v => some { s with members := s.members.map (fun m => if m.device = dev then { m with device := v } else m) }
  | none =>
    if 1 < AppSetReplicas s then
      (s.members.find? (fun m => m.device == dev)).map (fun m => dropReplica s m.replica)
    else none

end Sys2Proof.Machine
end

