-- ==== Sys2Proof/Machine/Ductus.lean ====
section
/-!
DEFINITION. The Ductus vector engine (R97 to R116): validity of its descriptors, the eight stages, quantising at S7, issue,
waits, completion.
-/
namespace Sys2Proof.Machine
open Sys2Proof

/-! ## The run table (R114) -/

/-- Entries of a run table from address `a` on until `rest` rows are covered: rows, and the vector's address. None where the
table breaks R114. -/
def readRuns (d : Dev) (h : Nat) : Nat → Nat → Nat → Option (List (Nat × Option Nat))
  | 0, _, rest => if rest = 0 then some [] else none
  | n + 1, a, rest =>
    if rest = 0 then some []
    else
      let e := opNat d h a 8
      let rows := e % 65536
      if !runOk a 8 || rows == 0 || rest < rows || e / 2 ^ 39 != 0 then none
      else match readRuns d h n (a + 8) (rest - rows) with
        | none => none
        | some r => some ((rows, if bit e 38 then none else some (16 * (e / 65536 % 2 ^ 22))) :: r)

def runsOf (d : Dev) (h : Nat) (v : DuctDesc) : Option (List (Nat × Option Nat)) :=
  if v.runEn then readRuns d h 256 v.runAddr v.rows else some []

/-- The steering vector of row r's run. -/
def runVec : List (Nat × Option Nat) → Nat → Option Nat
  | [], _ => none
  | (n, a) :: rest, r => if r < n then a else runVec rest (r - n)

/-! ## Validity (R116) -/

/-- Stages whose B selector, and whose C selector, an operation reads (R101, R103). -/
def needsB (s op : Nat) : Bool :=
  match s with
  | 1 | 2 => (1 ≤ op && op ≤ 12) || op == 15
  | 3 => 1 ≤ op && op ≤ 7
  | 4 => op == 1 || op == 2 || (5 ≤ op && op ≤ 8)
  | _ => false
def needsC (s op : Nat) : Bool :=
  match s with
  | 3 => 5 ≤ op && op ≤ 7
  | 4 => 5 ≤ op && op ≤ 8
  | _ => false

/-- The largest operation code of each stage (R103). -/
def opMax (s : Nat) : Nat :=
  match s with
  | 0 => 2 | 1 => 15 | 2 => 15 | 3 => 9 | 4 => 8 | 5 => 4 | 6 => 7 | _ => 0

/-- Selector codes that a descriptor's operations read. -/
def selectorsUsed (v : DuctDesc) : List Nat :=
  ((List.range 8).filter (fun s => needsB s (v.op s))).map v.bsel ++
  (if needsC 3 (v.op 3) then [v.s3c] else []) ++ (if needsC 4 (v.op 4) then [v.s4c] else [])

def usesSel (v : DuctDesc) (c : Nat) : Bool := (selectorsUsed v).contains c

/-- Every selector is defined, no operation lacks its operand, and RUN stands only as B of S3 ADD (R102, R115). -/
def selectorsOk (v : DuctDesc) : Bool :=
  (List.range 8).all (fun s => v.op s ≤ opMax s && v.bsel s ≤ 6 && (v.bsel s != 6 || (s == 3 && v.op 3 == 1))) &&
  v.s3c ≤ 5 && v.s4c ≤ 5 && !usesSel v 0 && (!usesSel v 6 || v.runEn)

/-- Group or block size of X's plane (R104: QG's or 128 for any format that is not block-scaled), 0 where X has none (DEDUCED: log entry
37). -/
def xGroup (v : DuctDesc) : Nat :=
  if v.isDrain then 0
  else if isMx v.fmtX then 32
  else if isLb4 v.fmtX then 16
  else if v.xgs.isSome then (if v.qg = 0 then 128 else v.qgSize)
  else 0

def rowsOk (base stride rows len : Nat) : Bool := (List.range rows).all (fun r => runOk (base + r * stride) len)

def planeOk (base stride fmt size rows col : Nat) : Bool :=
  (List.range rows).all (fun r => runOk (planeRow base stride fmt size r) (col / size))

/-- Every region a descriptor names lies in R39. -/
def ductRegionsOk (v : DuctDesc) : Bool :=
  (v.isDrain || v.xKind == 1 || rowsOk v.xAddr v.xStride v.rows (packedLen v.fmtX v.cols)) &&
  (!usesSel v 1 || rowsOk v.yAddr v.yStride v.rows (packedLen v.fmtY v.cols)) &&
  (v.dKind != 0 || rowsOk v.dAddr v.dStride v.rows (packedLen (outFmt v) v.cols)) &&
  scaleOk v.xrs (4 * v.rows) && scaleOk v.rs (4 * v.rows) &&
  (match v.xgs with
   | none => true
   | some a => xGroup v == 0 || planeOk a v.xStride v.fmtX (xGroup v) v.rows (v.col0 + v.cols)) &&
  (dGroup v == 0 || v.qmode == 2 || planeOk v.gs v.dStride v.fmtD (dGroup v) v.rows (v.col0 + v.cols)) &&
  (!usesSel v 4 || (if v.cvKind = 0 then runOk (64 * v.cvRaw) (4 * (v.col0 + v.cols)) else v.col0 + v.cols ≤ 256))

/-- An output of the descriptor reaches a CONTROL line (R371). -/
def ductHitsControl (d : Dev) (h : Nat) (v : DuctDesc) : Bool :=
  (v.dKind == 0 && (List.range v.rows).any (fun r => hitsControl d h (v.dAddr + r * v.dStride) (packedLen (outFmt v) v.cols))) ||
  (match v.rs with
   | some a => v.lead && (v.qmode == 1 || v.qmode == 3) && hitsControl d h a (4 * v.rows)
   | none => false) ||
  (dGroup v != 0 && v.qmode != 2 && (List.range v.rows).any (fun r =>
    hitsControl d h (planeRow v.gs v.dStride v.fmtD (dGroup v) r) ((v.col0 + v.cols) / dGroup v)))

def shortFmt (f : Nat) : Bool := f ≤ 2 || f == 8 || f == 9

/-- A Ductus descriptor is valid on logical Hearth h (R116). -/
def ductOk (d : Dev) (h : Nat) (v : DuctDesc) : Bool :=
  (v.opcode == 0x20 || v.opcode == 0x21) && v.chain ≤ 1 && v.dKind ≤ 2 && v.hr ≤ 6 &&
  field v 127 1 == 0 && field v 363 1 == 0 && selectorsOk v &&
  (v.chain == 1 ||
    (v.op 3 == 0 && v.op 4 == 0 && v.op 5 == 0 && v.op 6 == 0 && v.qmode == 0 && shortFmt v.fmtX && shortFmt v.fmtD &&
      (!usesSel v 1 || shortFmt v.fmtY))) &&
  (if v.isDrain then
    v.chain == 1 && v.fmtX == 0 && v.xKind == 0 && v.xAddrRaw == 0 && v.op 0 == 0 && v.rows ≤ 128 && v.cols ≤ 128
   else v.tile == 0 && v.tarray == 0) &&
  (v.xKind == 0 || (v.rows == 1 && v.cols ≤ 256 && v.fmtX == 0)) &&
  (v.dKind != 2 || (v.rows == 1 && v.cols ≤ 256 && v.fmtD == 0)) &&
  !(v.qmode == 1 && v.tensor) && !(v.fmtD == 15 && v.qmode ≤ 1) && !(v.qmode != 0 && v.fmtD ≤ 2) &&
  (v.qg == 0 || isPlain v.fmtD || (isPlain v.fmtX && v.xgs.isSome)) &&
  (xGroup v == 0 || (v.col0 % xGroup v == 0 && v.cols % xGroup v == 0)) &&
  (outGroup v == 0 || (v.col0 % outGroup v == 0 && v.cols % outGroup v == 0)) &&
  v.qreg != 31 && !(usesSel v 3 && v.rvreg == 31) && !(v.op 6 == 6 && v.redReg == 31) &&
  ductRegionsOk v && !ductHitsControl d h v &&
  (match runsOf d h v with
   | none => false
   | some l => l.all (fun x => x.1 ≤ 256 && (match x.2 with
      | none => true
      | some a => inkBase ≤ a && a + 2 * (v.col0 + v.cols) ≤ inkBase + inkSize)))

/-! ## S0 and the selectors (R102, R104) -/

/-- Row scales: from the latch where its tag matches, else from operand space (R113). -/
def rowScale (d : Dev) (h a r : Nat) : Word :=
  match d.hearth.latch.get none h with
  | some (t, l) => if t = a then (l[r]?).getD (opWord d h (a + 4 * r)) else opWord d h (a + 4 * r)
  | none => opWord d h (a + 4 * r)

/-- WIDEN: INT8 and INT4 are sign-extended, raw words zero-extended (R103). -/
def widen (fmt c : Nat) : Word :=
  if fmt = 8 ∨ fmt = 9 then BitVec.ofInt 32 (toSigned (fmtBits fmt) c) else BitVec.ofNat 32 c

/-- Element (r, j) of X as it leaves S0. DECODE in the short chain takes the codes 0x1 and 0x2 as BF16 and FP16 values, though R98
calls them raw words there (DESIGN CHOICE: log entry 146). -/
def xWord (d : Dev) (h : Nat) (v : DuctDesc) (r j : Nat) : Word :=
  if v.isDrain then (tile d (tileKey h v.tarray v.tile)).acc.get 0 (128 * r + j)
  else
    let c : Nat :=
      if v.xKind = 1 then ((vreg d h (v.xAddrRaw % 32)).get 0 j).toNat else opElem d h (v.xAddr + r * v.xStride) v.fmtX j
    match v.op 0 with
    | 0 => BitVec.ofNat 32 c
    | 2 => widen v.fmtX c
    | _ =>
      let g : Num := match v.xgs with
        | none => .fin false 1 0
        | some a =>
          if xGroup v = 0 then .fin false 1 0
          else
            let k := (opByte d h (planeRow a v.xStride v.fmtX (xGroup v) r + (v.col0 + j) / xGroup v)).toNat
            if isLb4 v.fmtX then lbScale k else e8m0 k
      let s : Num := match v.xrs with
        | none => .fin false 1 0
        | some a => toNum (rowScale d h a r)
      ofNum (((elemValue v.fmtX c).mul g).mul s)

/-- Element (r, j) of Y as S0 decodes it, with scales 1.0. -/
def yWord (d : Dev) (h : Nat) (v : DuctDesc) (r j : Nat) : Word :=
  let c := opElem d h (v.yAddr + r * v.yStride) v.fmtY j
  match v.op 0 with
  | 0 => BitVec.ofNat 32 c
  | 2 => widen v.fmtY c
  | _ => ofNum (elemValue v.fmtY c)

/-- The operand a selector picks (R102); none for the RUN of a row without a vector (R115). -/
def operand (d : Dev) (h : Nat) (v : DuctDesc) (runs : List (Nat × Option Nat)) (r j code : Nat) (imm : Word) : Option Word :=
  match code with
  | 1 => some (yWord d h v r j)
  | 2 => some ((vreg d h v.rvreg).get 0 r)
  | 3 => some ((vreg d h (v.rvreg + 1)).get 0 r)
  | 4 => some (if v.cvKind = 0 then opWord d h (64 * v.cvRaw + 4 * (v.col0 + j))
               else (vreg d h (v.cvRaw % 32)).get 0 (v.col0 + j))
  | 5 => some imm
  | 6 => (runVec runs r).map (fun a => BitVec.ofNat 32 (opNat d h (a + 2 * (v.col0 + j)) 2 * 65536))
  | _ => some 0

/-! ## S1 to S5 (R103, R105) -/

/-- Saturation to a signed 32-bit word. -/
def sat32 (x : Int) : Word := BitVec.ofInt 32 (max (-(2 ^ 31 : Nat)) (min (2 ^ 31 - 1 : Nat) x))

/-- S1 and S2. -/
def intStage (op : Nat) (x b : Word) (col row : Nat) : Word :=
  let k := b.toNat % 32
  match op with
  | 1 => sat32 (x.toInt + b.toInt)
  | 2 => sat32 (x.toInt - b.toInt)
  | 3 => sat32 (x.toInt * b.toInt)
  | 4 => BitVec.ofNat 32 (x.toNat * b.toNat)
  | 5 => BitVec.ofNat 32 (x.toNat * b.toNat / 2 ^ 32)
  | 6 => x &&& b
  | 7 => x ||| b
  | 8 => x ^^^ b
  | 9 => x <<< k
  | 10 => x >>> k
  | 11 => x.sshiftRight k
  | 12 => x.rotateLeft k
  | 13 => BitVec.ofNat 32 col
  | 14 => BitVec.ofNat 32 row
  | 15 => x + b
  | _ => x

/-- S3; no B operand passes the element unchanged (R115). -/
def mulAddStage (op : Nat) (x : Word) (b : Option Word) (c : Word) : Word :=
  match b with
  | none => x
  | some b =>
    match op with
    | 1 => fadd x b
    | 2 => fsub x b
    | 3 => fsub b x
    | 4 => fmul x b
    | 5 => ffma x b c
    | 6 => ffnma x b c
    | 7 => fmul (fmul x b) c
    | 8 => fromI32 x
    | 9 => toI32 x
    | _ => x

/-- b ≥ +0 or b = −0. -/
def geZero (b : Word) : Bool :=
  match toNum b with
  | .nan => false
  | .inf s => !s
  | .fin s m _ => !s || m == 0

/-- S4 (DEDUCED: log entry 39). -/
def selectStage (op : Nat) (x b c : Word) (col : Nat) : Word :=
  match op with
  | 1 => fmin x b
  | 2 => fmax x b
  | 3 => fabs x
  | 4 => fneg x
  | 5 => fmin (fmax x b) c
  | 6 => if (col : Int) < b.toInt then x else c
  | 7 => if b ≠ 0 then x else c
  | 8 => if geZero b then x else c
  | _ => x

/-- S5. -/
def functionStage (op : Nat) (x : Word) : Word :=
  match op with
  | 1 => fexp2 x
  | 2 => flog2 x
  | 3 => frecip x
  | 4 => frsqrt x
  | _ => x

/-- Element (r, j) as it enters S6. -/
def chainWord (d : Dev) (h : Nat) (v : DuctDesc) (runs : List (Nat × Option Nat)) (r j : Nat) : Word :=
  let col := v.col0 + j
  let b := fun s => operand d h v runs r j (v.bsel s) v.imm0
  let c := fun k => (operand d h v runs r j k v.imm1).getD 0
  let x := xWord d h v r j
  let x := intStage (v.op 1) x ((b 1).getD 0) col r
  let x := intStage (v.op 2) x ((b 2).getD 0) col r
  if v.chain = 0 then x
  else
    let x := mulAddStage (v.op 3) x (b 3) (c v.s3c)
    let x := selectStage (v.op 4) x ((b 4).getD 0) (c v.s4c) col
    functionStage (v.op 5) x

/-! ## S6 (R106) -/

/-- One level of a pairwise tree, the whole tree of a beat, and the beats of a row. -/
def pairUp {α : Type} (f : α → α → α) : List α → List α
  | a :: b :: r => f a b :: pairUp f r
  | l => l
def treeLevels {α : Type} (f : α → α → α) : Nat → List α → List α
  | 0, l => l
  | n + 1, l => treeLevels f n (pairUp f l)
def beatsOf {α : Type} : Nat → Nat → List α → List (List α)
  | 0, _, _ => []
  | n + 1, k, l => if l.isEmpty then [] else l.take k :: beatsOf n k (l.drop k)

/-- Reduce a row: a tree in each beat, then the beats in ascending order, onto what is there already. -/
def reduceRow {α : Type} (f : α → α → α) (start : Option α) (row : List α) : Option α :=
  (beatsOf 256 256 row).foldl (fun acc beat =>
    match (treeLevels f 8 beat).head? with
    | none => acc
    | some x => match acc with
      | none => some x
      | some a => some (f a x)) start

/-- ARGMAX: the larger value; a NaN above every number; a tie keeps the earlier. -/
def argKey (w : Word) : Int := if isNan w then 2 ^ 33 else orderKey w
def argBetter (a b : Word × Nat) : Word × Nat := if argKey a.1 < argKey b.1 then b else a

/-- A reduction that meets a NaN gives the canonical one, over a single element too (R74, R106). -/
def canonNan (w : Word) : Word := if isNan w then qnan else w

/-- Inclusive prefix sums onto a running total. -/
def prefixSums : Option Word → List Word → List Word
  | _, [] => []
  | t, x :: r =>
    let y := match t with
      | none => canonNan x
      | some t => fadd t x
    y :: prefixSums (some y) r

/-- S6 on row r: the elements that leave it, and the lane of RED_REG and of RED_REG+1 after it. -/
def reduceStage (v : DuctDesc) (row : List Word) (red red1 : Word) : List Word × Word × Word :=
  let start := if v.redAcc then some red else none
  let one := fun f l => (row, canonNan ((reduceRow f start l).getD red), red1)
  match v.op 6 with
  | 1 => one fadd row
  | 2 => one fmax row
  | 3 => one fmin row
  | 4 => (row, canonNan ((reduceRow fmax (start.map fabs) (row.map fabs)).getD red), red1)
  | 5 => one fadd (row.map (fun x => fmul x x))
  | 6 =>
    let cols := row.zipIdx.map (fun x => (x.1, v.col0 + x.2))
    let r := (reduceRow argBetter (if v.redAcc then some (red1, red.toNat) else none) cols).getD (red1, red.toNat)
    (row, BitVec.ofNat 32 r.2, r.1)
  | 7 =>
    let ys := prefixSums start row
    (ys, (ys.getLast?).getD red, red1)
  | _ => (row, red, red1)

/-! ## S7 (R75, R80, R110, R111) -/

/-- Largest magnitude of the finite elements; +0 where there is none (R80). -/
def maxAbs (row : List Word) : Word :=
  row.foldl (fun m x => if isFinite x then fmax m (fabs x) else m) 0

/-- p of R80, 18 for LB4 and 7 for LQ8. -/
def scaleP (f : Nat) : Int :=
  match f with
  | 3 => 8 | 4 => 15 | 5 => 4 | 6 => 2 | 7 => 2 | 8 => 6 | 9 => 2 | 14 => 18 | 15 => 7 | _ => 0

/-- ceil(log2 m) with FLOOR for zero. -/
def clogOr (m : Word) (floor : Int) : Int := if fabs m = 0 then floor else clog m

/-- 2^E with E clamped to [−126, 127] (R79). -/
def scaleWord (e : Int) : Word := pow2 (max (-126) (min 127 e))

/-- The exponent of a scale that is a power of two. -/
def powExp (w : Word) : Option Int :=
  match toNum w with
  | .fin false m e => if m = 2 ^ Nat.log2 m then some (e + (Nat.log2 m : Nat)) else none
  | _ => none

/-- The code of the finer scale of a group or block with max-abs m under row exponent E (R76, R80). -/
def finerCode (v : DuctDesc) (m : Word) (e : Int) : Nat :=
  let h : Int := (v.hr : Nat)
  let clamp := fun (g : Int) => (max (-127) (min 127 g) + 127).toNat
  if isMx v.fmtD then
    let emax : Int := match v.fmtD with | 10 => 8 | 11 => 2 | 12 => 2 | _ => 0
    if fabs m = 0 then 0 else clamp (flog m - emax + h)
  else if isLb4 v.fmtD then
    if fabs m = 0 then 0
    else
      let t := (toNum m).mul (.fin false 1 (h - 2 - e))
      (((List.range 254).map (· + 1)).find? (fun k => Num.le t (lbScale k))).getD 254
  else clamp (clogOr m v.floor + h - scaleP v.fmtD - e)

/-- What R75 rounds: a NaN or, for a narrow format, an infinity as it came in; else the quotient by the scales. `free` stands for
a quotient that the manual does not state: by a zero or infinite scale (DEDUCED: log entry 41). -/
def quotient (fmt : Nat) (x : Word) (s g : Num) (free : Word) : Num :=
  match toNum x with
  | .nan => .nan
  | .inf n => if 3 ≤ fmt then .inf n else (Num.inf n).quot (s.mul g) (toNum free)
  | .fin n m e => if g.isZero && m == 0 then .fin n m e else (Num.fin n m e).quot (s.mul g) (toNum free)

/-- The code of one element under its row and finer scale, whether it saturates, and whether it makes the scale NaN (R75,
R78). -/
def encodeElem (fmt : Nat) (x : Word) (s g : Num) (free : Word) : Narrow :=
  let q := quotient fmt x s g free
  match fmt with
  | 0 => ⟨fp32.round q, false, false⟩
  | 1 => ⟨bf16.round q, false, false⟩
  | 2 => ⟨fp16.round q, false, false⟩
  | 15 =>
    match q with
    | .nan => ⟨0, false, true⟩
    | .inf _ => ⟨0, false, true⟩
    | .fin neg m e =>
      if m = 0 then ⟨0, false, false⟩
      else if neg then ⟨0, false, true⟩
      else match toNum (log2Num (.fin false m e)) with
        | .fin n k f =>
          let c : Int := (if n then -(rneInt k (f + 4) : Int) else (rneInt k (f + 4) : Int)) + 128
          if c < 1 then ⟨1, false, false⟩ else if 255 < c then ⟨255, true, false⟩ else ⟨c.toNat, false, false⟩
        | _ => ⟨0, false, true⟩
  | f => narrow f q

/-- The short chain's output of a lane (R110). -/
def encodeShort (fmt : Nat) (x : Word) : Narrow :=
  match fmt with
  | 0 => ⟨x.toNat, false, false⟩
  | 1 => ⟨x.toNat % 65536, false, false⟩
  | 2 => ⟨x.toNat % 65536, false, false⟩
  | f =>
    let m : Int := if f = 9 then 7 else 127
    let y := max (-m) (min m x.toInt)
    ⟨ofSigned (fmtBits f) y, decide (y ≠ x.toInt), false⟩

/-- What the rows of a descriptor leave behind, row after row. -/
structure DuctAcc where
  red : Table Word
  red1 : Table Word
  qmax : Table Word
  qlead : Table Word
  /-- Row scales in force, in row order, with the canonical NaN of R110. -/
  scales : List Word
  nanRows : List Nat
  writes : List (Nat × Byte)
  outRow : List Word
  marks : List BeatMark
  deriving DecidableEq, Repr

/-- −128 as the I32 that stands for no recorded c_lead. -/
def noLead : Word := 0xFFFFFF80#32

/-- d as kept in a tally: an I8 whose −128 means none. -/
def dCode (x : Int) : Nat := (max (-127) (min 127 x) + 129).toNat

/-- Bytes of a row of codes at an address; bits of the last byte beyond the row keep their value (R97). -/
def rowBytes (d : Dev) (h a fmt : Nat) (codes : List Nat) : List (Nat × Byte) :=
  let bs := packElems fmt codes
  let part := fmtBits fmt * codes.length % 8
  let last := a + (bs.length - 1)
  bs.zipIdx.map (fun x =>
    let at' := a + x.2
    if part ≠ 0 ∧ at' = last then
      (at', BitVec.ofNat 8 (x.1.toNat % 2 ^ part + (opByte d h at').toNat / 2 ^ part * 2 ^ part))
    else (at', x.1))

/-- What the beats of row r add to the tally: their elements' saturations and NaN events, and in the row's last beat its d. -/
def rowMarks (v : DuctDesc) (r : Nat) (els : List Narrow) (dm : Nat) : List BeatMark :=
  let pieces := beatsOf els.length 256 els
  pieces.zipIdx.map (fun x =>
    { beat := rowBeat v r + x.2, sat := (x.1.filter (·.sat)).length, nan := (x.1.filter (·.scaleNan)).length,
      dmax := if x.2 + 1 = pieces.length then dm else 0 })

/-- S7 on row r in the full chain. A LEAD descriptor to an MX format, whose row scale is 1.0, writes neither RS_ADDR nor the latch
(DESIGN CHOICE: log entry 148); without an element output the scales are still written and the evidence counted (DESIGN CHOICE: log
entry 149); to an MX format, for which R80 has no p, an OPEN without LEAD recovers no c_lead (DESIGN CHOICE: log entry 150). -/
def convertRow (d : Dev) (h : Nat) (v : DuctDesc) (r : Nat) (row : List Word) (a : DuctAcc) : DuctAcc :=
  let mi := if v.tensor then 0 else r
  let m0 := a.qmax.get 0 mi
  let c0 := a.qlead.get 0 r
  let hh : Int := (v.hr : Nat)
  let sp : Int := (v.spread : Nat)
  let p := scaleP v.fmtD
  let lead := maxAbs (row.take 128)
  let stored : Word := match v.rs with
    | none => 0x3F800000#32
    | some x => rowScale d h x r
  let freeAt := d.fresh + 131072 * r
  let freeE : Int := ((Config.freeNat (freeAt + 65536) % 254 : Nat) : Int) - 126
  -- c_lead and max-abs (R111)
  let cl : Int :=
    if v.qmode = 1 ∧ v.lead then (if fabs lead = 0 then v.floor - sp else clog lead)
    else if v.qmode = 2 ∧ v.lead then clogOr lead v.floor
    else if v.qmode = 1 ∧ v.opens then
      (if isMx v.fmtD then -128
       else match powExp stored with
        | some e => if e = -126 ∨ e = 127 then -128 else e - hh + p - sp
        | none => -128)
    else c0.toInt
  let qm := if v.qmode = 1 ∨ v.qmode = 2 then fmax m0 (maxAbs row) else m0
  -- the row scale
  let own := ownScales v
  let c : Int := if v.qmode = 1 then cl + sp else clogOr m0 v.floor
  let s : Word :=
    if isMx v.fmtD ∨ v.qmode = 2 then 0x3F800000#32 else if own then scaleWord (c + hh - p) else stored
  let e : Int := (powExp s).getD freeE
  -- the finer scales and the codes
  let gsz := if v.qmode = 2 then 0 else dGroup v
  let fmt := outFmt v
  let pieces := if gsz = 0 then [row] else beatsOf row.length gsz row
  let coded := pieces.zipIdx.map (fun x =>
    let k := if gsz = 0 then 0 else finerCode v (maxAbs x.1) e
    let g : Num := if gsz = 0 then .fin false 1 0 else if isLb4 v.fmtD then lbScale k else e8m0 k
    let els := x.1.zipIdx.map (fun y =>
      if v.qmode = 2 then ⟨y.1.toNat, false, false⟩ else encodeElem fmt y.1 (toNum s) g (Config.freeWord (freeAt + x.2 * gsz + y.2)))
    let bad := els.any (·.scaleNan)
    (els, (if bad then 255 else k, bad)))
  let els := coded.flatMap (·.1)
  let rowNan := gsz = 0 ∧ els.any (·.scaleNan)
  -- what is written
  let out := if v.dKind = 0 then rowBytes d h (v.dAddr + r * v.dStride) fmt (els.map (·.code)) else []
  let scale := if rowNan then qnan else s
  let rsw := match v.rs with
    | none => []
    | some x => if own ∨ rowNan then (leBytes 4 scale.toNat).zipIdx.map (fun y => (x + 4 * r + y.2, y.1)) else []
  let gsw := if gsz = 0 then [] else
    coded.zipIdx.map (fun x => (planeRow v.gs v.dStride v.fmtD gsz r + v.col0 / gsz + x.2, BitVec.ofNat 8 x.1.2.1))
  -- evidence (R111)
  let measured := (v.qmode = 1 ∧ v.closes) ∨ (v.qmode = 3 ∧ v.lead ∧ (!v.tensor ∨ r = 0))
  let dm := if measured ∧ fabs qm ≠ 0 ∧ cl ≠ -128 then dCode (clog qm - cl) else 0
  { a with
    qmax := a.qmax.set 0 mi qm
    qlead := a.qlead.set 0 r (BitVec.ofInt 32 cl)
    scales := a.scales ++ [scale]
    nanRows := if rowNan then r :: a.nanRows else a.nanRows
    writes := a.writes ++ out ++ rsw ++ gsw
    outRow := if v.dKind = 2 then els.map (fun x => BitVec.ofNat 32 x.code) else a.outRow
    marks := a.marks ++ rowMarks v r els dm }

/-- S7 on row r in the short chain. -/
def shortRow (d : Dev) (h : Nat) (v : DuctDesc) (r : Nat) (row : List Word) (a : DuctAcc) : DuctAcc :=
  let els := row.map (encodeShort v.fmtD)
  { a with
    writes := a.writes ++
      (if v.dKind = 0 then rowBytes d h (v.dAddr + r * v.dStride) v.fmtD (els.map (·.code)) else [])
    outRow := if v.dKind = 2 then els.map (fun x => BitVec.ofNat 32 x.code) else a.outRow
    marks := a.marks ++ rowMarks v r els 0 }

/-- One row through S0 to S7 (DEDUCED: log entry 38). -/
def ductRow (d : Dev) (h : Nat) (v : DuctDesc) (runs : List (Nat × Option Nat)) (a : DuctAcc) (r : Nat) : DuctAcc :=
  let row := (List.range v.cols).map (fun j => chainWord d h v runs r j)
  if v.chain = 0 then shortRow d h v r row a
  else
    let (row, x, y) := reduceStage v row (a.red.get 0 r) (a.red1.get 0 r)
    convertRow d h v r row { a with red := a.red.set 0 r x, red1 := a.red1.set 0 r y }

/-- Fresh row state for the descriptor's rows where OPEN is set (R111). -/
def openRows (v : DuctDesc) (q : Table Word) (init : Word) : Table Word :=
  if v.opens then (List.range v.rows).foldl (fun q r => q.set 0 r init) q else q

/-- All that a descriptor computes (R100 to R111). -/
def ductRun (d : Dev) (h : Nat) (v : DuctDesc) : DuctAcc :=
  let runs := (runsOf d h v).getD []
  let a : DuctAcc :=
    { red := vreg d h v.redReg, red1 := vreg d h (v.redReg + 1), qmax := openRows v (vreg d h v.qreg) 0,
      qlead := openRows v (vreg d h (v.qreg + 1)) noLead, scales := [], nanRows := [], writes := [], outRow := [],
      marks := [] }
  (List.range v.rows).foldl (ductRow d h v runs) a

/-- The scale latch after a descriptor (R110, R113). -/
def latchAfter (old : Option (Nat × List Word)) (v : DuctDesc) (a : DuctAcc) : Option (Nat × List Word) :=
  match v.rs with
  | none => old
  | some x =>
    if ownScales v then some (x, a.scales)
    else match old with
      | some (t, l) =>
        if t = x then some (t, l.zipIdx.map (fun y => if a.nanRows.contains y.2 then qnan else y.1)) else old
      | none => none

/-- Registers and latch after a descriptor; its memory writes and tally marks wait for its completion. -/
def ductApply (d : Dev) (h : Nat) (v : DuctDesc) (a : DuctAcc) : Dev :=
  let d := { d with fresh := d.fresh + 256 * 131072 }
  let d := if v.dKind = 2 then
      setVreg d h (v.dAddrRaw % 32)
        ((a.outRow.zipIdx).foldl (fun t x => t.set 0 x.2 x.1) (vreg d h (v.dAddrRaw % 32)))
    else d
  let d := if v.chain = 1 ∧ v.op 6 ≠ 0 then setVreg d h v.redReg a.red else d
  let d := if v.chain = 1 ∧ v.op 6 = 6 then setVreg d h (v.redReg + 1) a.red1 else d
  let d := if v.opens ∨ v.qmode ≠ 0 then setVreg (setVreg d h v.qreg a.qmax) h (v.qreg + 1) a.qlead else d
  { d with hearth := { d.hearth with latch := d.hearth.latch.modify none h (fun l => latchAfter l v a) } }

/-! ## Beats, waits and the queue (R97, R98, R107) -/

/-- Bytes that a descriptor reads from its memories: whether the Well holds them, and how many (R99). A per-column vector is read once
a beat, a steering vector once a row (DESIGN CHOICE: log entry 147). -/
def ductLoads (d : Dev) (h : Nat) (v : DuctDesc) : List (Bool × Nat) :=
  let well := fun (a : Nat) => decide (a < wellSize)
  let runs := (runsOf d h v).getD []
  (if v.isDrain ∨ v.xKind = 1 then [] else [(well v.xAddr, v.rows * packedLen v.fmtX v.cols)]) ++
  (if usesSel v 1 then [(well v.yAddr, v.rows * packedLen v.fmtY v.cols)] else []) ++
  (if usesSel v 4 ∧ v.cvKind = 0 then [(well (64 * v.cvRaw), beats v * (4 * min 256 v.cols))] else []) ++
  (if usesSel v 6 then [(false, 2 * v.cols * ((runs.filter (·.2.isSome)).map (·.1)).sum)] else [])

/-- hclk that a descriptor's beats take to enter S0 (R98), more where the Well (2 KiB an hclk each way) or the Inkstone (1 KiB) supplies
less than it needs (R99). -/
def beatTime (d : Dev) (h : Nat) (v : DuctDesc) : Nat :=
  let nominal := if v.chain = 0 then (beats v + 1) / 2 else beats v
  let reads := fun (w : Bool) => (((ductLoads d h v).filter (·.1 == w)).map (·.2)).sum
  let out := if v.dKind = 0 then v.rows * packedLen (outFmt v) v.cols else 0
  let toWell := decide (v.dAddr < wellSize)
  let rate := fun (n bytes : Nat) => (bytes + n - 1) / n
  max (max nominal (rate (if toWell then 2048 else 1024) out)) (max (rate 2048 (reads true)) (rate 1024 (reads false)))
/-- The chain's latency (R98). -/
def latency (v : DuctDesc) : Nat := if v.chain = 0 then 12 else 40

/-- Vector registers that a descriptor must find written (R107). -/
def ductReads (v : DuctDesc) : List Nat :=
  (if v.xKind = 1 then [v.xAddrRaw % 32] else []) ++ (if usesSel v 2 then [v.rvreg] else []) ++
  (if usesSel v 3 then [v.rvreg + 1] else []) ++ (if usesSel v 4 ∧ v.cvKind = 1 then [v.cvRaw % 32] else [])

/-- A descriptor continues the row state of the one directly before it (R107). -/
def continuesRow (v w : DuctDesc) : Bool :=
  v.qmode != 0 && !v.opens && (w.qmode != 0 || w.opens) && w.qreg == v.qreg

/-- A descriptor waits for those ahead of it in the pipeline, the nearest first (R107): for every writer of a register it reads as an
operand, or as row state that the one directly before it does not forward. -/
def ductWaits (v : DuctDesc) (ahead : List DuctDesc) : Bool :=
  let forwarded := ahead.head?.any (continuesRow v)
  ahead.any (fun w => (ductRegs w).any (fun r => (ductReads v).contains r ||
    (v.qmode != 0 && !v.opens && !forwarded && (r == v.qreg || r == v.qreg + 1))))

/-- A descriptor depends on nothing that an earlier one left in a tile or in vector registers (R32) (DEDUCED: log entry 152). -/
def ductAlone (v : DuctDesc) : Bool :=
  !v.isDrain && (v.opens || v.qmode == 0) && (v.op 6 == 0 || !v.redAcc) && (ductReads v).isEmpty

/-- Matrix work of the same stream on the tile, issued before a DRAIN, is not complete (R63). -/
def drainBlocked (d : Dev) (h : Nat) (o : DuctOp) : Bool :=
  let v : DuctDesc := o.desc
  v.isDrain && (array d (arrayKey h v.tarray)).queue.any (fun m =>
    m.stream == o.stream && m.seq < o.seq && MatDesc.tile m.desc == v.tile)

/-- Descriptors in the queue of R51: staged, or executing until their last beat has entered S0. -/
def ductHeld (d : Dev) (q : List DuctOp) : Nat := (q.filter (fun o => !o.started || d.frame.off < o.last)).length

/-- Start a descriptor whose turn it is: what it computes is computed now, and its first and last beats are fixed (DEDUCED: log entry 123). -/
def startOne (d : Dev) (h : Nat) (o : DuctOp) (prev : Option DuctOp) : Dev × DuctOp :=
  let v : DuctDesc := o.desc
  let a := ductRun d h v
  let after := match prev with
    | none => 0
    | some p => p.last + 1
  let waited := if o.issued = d.frame.off then 0 else d.frame.off
  let first := max (o.issued + 4) (max after waited)
  let d := if v.isDrain then
      let k := tileKey h v.tarray v.tile
      setTile d k { tile d k with draining := true }
    else d
  let last := first + beatTime d h v - 1
  (ductApply d h v a, { o with started := true, first := first, last := last, writes := a.writes, marks := a.marks })

/-- Each descriptor in order starts if none ahead of it has not, and nothing it waits for is still under way (DEDUCED: log entry 40). -/
def startAll (d : Dev) (h : Nat) (ahead : List DuctOp) : List DuctOp → Dev × List DuctOp
  | [] => (d, [])
  | o :: r =>
    if o.started then
      let (d, r) := startAll d h (o :: ahead) r
      (d, o :: r)
    else
      let v : DuctDesc := o.desc
      let blocked := drainBlocked d h o || ductWaits v (ahead.map (·.desc))
      if blocked then (d, o :: r)
      else
        let (d, o) := startOne d h o ahead.head?
        let (d, r) := startAll d h (o :: ahead) r
        (d, o :: r)

/-- The Ductus of a Hearth goes as far as it can by now. -/
def ductGo (d : Dev) (h : Nat) : Dev :=
  let d := ductEnter d h
  let (d, q) := startAll d h [] (ductus d h)
  setDuctus d h q

/-- A quantise descriptor carries the mode, h, D and FLOOR pinned for its tally slot; one of the other mode is none of its task's (R88,
R110) (DESIGN CHOICE: log entry 177). An EXACT step is a SCAN and a PACK, or for an MX target one ESTIMATE pass. -/
def pinned (d : Dev) (h : Nat) (v : DuctDesc) : Option DuctDesc :=
  if v.qmode = 0 then some v
  else match d.num.pins.find? (·.1 == 256 * h + v.ntag) with
    | none => some v
    | some (_, p) =>
      if isMx v.fmtD || (p.exact == (v.qmode != 1)) then
        some (setField (setField (setField v 189 3 p.h) 250 6 p.spread) 314 8 p.floor)
      else none

/-- A Ductus descriptor at its stream's head (R49, R60, R107). Its validity, run table included, is judged before its wait is met
(DESIGN CHOICE: log entry 151). -/
def ductStep (d : Dev) (s : Nat) (v : DuctDesc) : Dev :=
  match atHead d s with
  | none => d
  | some (id, t) =>
    let h := s / 4
    let c := clusterOfStream s
    let k := tileKey h v.tarray v.tile
    if s ≥ 1024 then (if anyWindowOpen t d.frame.off then failTask d id .descInvalid else d)
    else if !windowOpen t (engDuctus h) d.frame.off then d
    else
      let d := ductGo d h
      if !ductOk d h v then failTask d id .descInvalid
      else match pinned d h v with
      | none => d
      | some v =>
      match waitOne d c v.waitEn v.waitSem with
        | .poison => failTask d id (.xferShort c)
        | .wait => d
        | .go d1 =>
          if 2 ≤ ductHeld d (ductus d h) then d
          else
            let tag := if v.isDrain then tagOf d k (stream d s).ring else .own
            match tag with
            | .other => holdOn d s k (engDuctus h)
            | .free => failTask d id .accUnowned
            | .own =>
              let d := d1
              let o : DuctOp := { seq := d.hearth.nextSeq, desc := v, task := id, stream := s, issued := d.frame.off,
                                  started := false, first := 0, last := 0, entered := false, writes := [], marks := [] }
              let d := setDuctus d h (ductus d h ++ [o])
              let d := issueOne { d with hearth := { d.hearth with nextSeq := d.hearth.nextSeq + 1 } } id s (engDuctus h)
                (ductAlone v)
              ductGo d h

/-- The descriptor in front completes at its last write, before its window closes (R33, R107): its writes stand in memory, its
saturations and NaN events are counted (R112), SIG_SEM is signalled, and its task may end. -/
def ductComplete (d : Dev) (h : Nat) : Dev :=
  let d := ductGo d h
  match ductus d h with
  | [] => d
  | o :: r =>
    let v : DuctDesc := o.desc
    if !o.started ∨ d.frame.off < o.last + latency v ∨ !inWindow d o.task (engDuctus h) (o.last + latency v) then d
    else
      let d := forEach o.writes d (fun d x => opPut d h x.1 x.2)
      let d := tallyMarks (setDuctus d h r) h v.ntag o.marks
      let d := signal d (clusterOf h) o.task v.sigEn v.sigSem
      ductGo (completeOne d o.task (engDuctus h)) h

/-! ## The commands -/

/-- A matrix descriptor's completion may end the wait of a DRAIN (R63). -/
def execMatmulComplete (op : ArrayOp) (s : State) : Host.Outcome State Fault Refusal :=
  onDevIf (arrayOk op.hearth op.array) s
    (fun d => ductGo (matComplete (atOff d op.off) op.hearth op.array) op.hearth)

def execVop (op : Desc64Op) (s : State) : Host.Outcome State Fault Refusal :=
  onDevIf (streamOk op.stream) s (fun d => ductStep (atOff d op.off) op.stream op.desc)

def execDrain (op : Desc64Op) (s : State) : Host.Outcome State Fault Refusal :=
  onDevIf (streamOk op.stream) s (fun d => ductStep (atOff d op.off) op.stream op.desc)

end Sys2Proof.Machine
end

