-- ==== Sys2Proof/Machine/Memory.lean ====
section
/-!
DEFINITION. DDR (R117 to R129): frames, granules and who can read them, page tables and translation, invalidation, page
migration, recalibration.
-/
namespace Sys2Proof.Machine
open Sys2Proof

/-- The device's addressed memories, Wells, Inkstones and DDR, are in canonical form: addresses strictly rising, no byte
listed that reads as an unlisted one does (log entry 2). -/
def Memory.wf (m : MemS) : Bool :=
  Table.wf (fun _ => (0 : Byte)) m.well && Table.wf (fun _ => (0 : Byte)) m.ink && Table.wf (fun _ => (0 : Byte)) m.ddr

/-! ## Frames and granules (R122, R364 to R369) -/

/-- Bytes of a frame, granules of a frame, bytes of a granule. -/
def frameSize : Nat := 0x200000
def granSize : Nat := 256
def ddrAddr (pfn off : Nat) : Nat := pfn * frameSize + off
/-- Granule number: PFN × 8,192 + index (R365). -/
def granOf (pfn off : Nat) : Nat := pfn * 8192 + off / granSize
/-- Channel of a granule: 4p + the rotation (R122). -/
def chanOf (gran : Nat) : Nat := 4 * (gran / 8192 / 524288) + gran % 4

/-- A frame lies within the usable frames of its die group (R122). -/
def frameUsable (d : Dev) (pfn : Nat) : Bool :=
  pfn < 2 ^ 22 && pfn % 524288 < d.mem.usable.get 0 (pfn / 524288)

/-- The key that a granule was last written under: its own, or its frame's: 0 not given, 1 the device's, k + 2 slot k. -/
def granKey (d : Dev) (gran : Nat) : Nat := d.mem.granOwner.get (d.mem.frameOwner.get 0 (gran / 8192)) gran

/-- A version-tree line over the frame has failed (R367). -/
def treeFailed (d : Dev) (pfn : Nat) : Bool := d.mem.treeBad.any (fun x => x.1 ≤ pfn && pfn < x.2)

/-- A granule reads back under a key: given, not poisoned, its MAC made under that key or, in a device-owned frame, under the
device's, its version verified (R120, R364, R366) (DEDUCED: log entry 49). -/
def granReads (d : Dev) (gran key : Nat) : Bool :=
  !d.mem.bad.contains gran && (granKey d gran == 1 || granKey d gran == key) && !treeFailed d (gran / 8192)

/-- An uncorrectable access is counted at its channel, and raised (R120, R129, R153). -/
def memError (d : Dev) (part gran : Nat) : Dev :=
  let c := chanOf gran
  raise (raise (bump d 0x1106 (c + 1) 1) (1152 + c) 2 (gran % 2 ^ 32)) (partSrc part 19) 0 (gran % 2 ^ 32)

/-- A write that covers a whole granule makes it readable under its key. -/
def granWhole (d : Dev) (gran key : Nat) : Dev :=
  { d with mem := { d.mem with
    bad := d.mem.bad.filter (· ≠ gran)
    granOwner := if d.mem.frameOwner.get 0 (gran / 8192) = key ∨ d.mem.frameOwner.get 0 (gran / 8192) = 1 then d.mem.granOwner.erase gran
                 else d.mem.granOwner.put gran key } }

/-- The page version of a frame (R367). -/
def version (d : Dev) (pfn : Nat) : Nat := (d.mem.pageVersion.get 0 pfn + d.mem.groupVersion.get 0 (pfn / 524288)) % 2 ^ 56

/-- Counter k of a level of the page-version tree: level 1 holds the versions, level 4 is the root; each counter rises with every
version below it (R367). -/
def versionCounter (d : Dev) (level k : Nat) : Nat :=
  (((List.range (8 ^ (level - 1))).map (fun j => version d (8 ^ (level - 1) * k + j))).sum) % 2 ^ 56

/-- A frame's page version rises, at its giving and at its freeing (R367, R369). -/
def bumpVersion (d : Dev) (pfn : Nat) : Dev :=
  { d with mem := { d.mem with pageVersion := d.mem.pageVersion.modify 0 pfn (fun v => (v + 1) % 2 ^ 56) } }

/-- Bytes of DDR by PFN × 2^21 + offset, without those of one frame. -/
def dropFrame (t : Table Byte) (pfn : Nat) : Table Byte := t.filter (fun x => x.1 / frameSize != pfn)

/-- A frame is given to an owner, written as zeros under its key (R369) (DEDUCED: log entry 96). -/
def giveFrame (d : Dev) (pfn owner : Nat) : Dev :=
  let d := bumpVersion d pfn
  { d with mem := { d.mem with
    frameOwner := d.mem.frameOwner.set 0 pfn owner
    ddr := dropFrame d.mem.ddr pfn
    granOwner := d.mem.granOwner.filter (fun x => x.1 / 8192 != pfn)
    bad := d.mem.bad.filter (fun g => g / 8192 != pfn) } }

/-- A freed frame verifies no more (R369). -/
def freeFrame (d : Dev) (pfn : Nat) : Dev :=
  let d := bumpVersion d pfn
  { d with mem := { d.mem with
    frameOwner := d.mem.frameOwner.set 0 pfn 0
    granOwner := d.mem.granOwner.filter (fun x => x.1 / 8192 != pfn) } }

/-! ## Page tables (R124 to R127) -/

abbrev Pte := BitVec 64

def Pte.valid (e : Pte) : Bool := field e 0 1 = 1
def Pte.write (e : Pte) : Bool := field e 1 1 = 1
def Pte.remote (e : Pte) : Bool := field e 2 1 = 1
def Pte.migrating (e : Pte) : Bool := field e 3 1 = 1
def Pte.peat (e : Pte) : Bool := field e 4 1 = 1
def Pte.key (e : Pte) : Nat := field e 8 12
def Pte.pfn (e : Pte) : Nat := field e 20 22
def Pte.device (e : Pte) : Nat := field e 42 18
def Pte.setMigrating (e : Pte) (b : Bool) : Pte := setField e 3 1 (b2n b)
def Pte.setFrame (e : Pte) (f : Nat) : Pte := setField e 20 22 f

/-- Key of a page of an application. -/
def pageKey (app page : Nat) : Nat := app * 2 ^ 27 + page
/-- Partitions of an application. -/
def partsOf (d : Dev) (app : Nat) : List Nat := (List.range 8).filter (fun p => d.mem.appOf.get 0 p == app + 1)

/-- Level-1 entry of an application's pages 512·i to 512·i + 511: VALID, and the level-2 table's physical address ÷ 4,096 (R124). -/
def level1 (d : Dev) (app i : Nat) : BitVec 64 := d.mem.level1.get 0 (app * 2 ^ 18 + i)
def tableOf (e : BitVec 64) : Option Nat := if field e 0 1 = 1 then some (field e 12 31) else none

/-- Where the walk finds a page's level-2 entry; none: its level-1 entry is not valid (R124). -/
def pteAt (d : Dev) (app page : Nat) : Option Nat := (tableOf (level1 d app (page / 512))).map (fun t => t * 512 + page % 512)

/-- The entry that a page's walk finds; one that is not valid where there is no level-2 table. -/
def pte (d : Dev) (app page : Nat) : Pte := (pteAt d app page).elim 0 (d.mem.ptes.get 0 ·)

/-- Firmware gives a page its level-2 table where it has none; the table's place is the model's (DESIGN CHOICE: log entry 155). -/
def openTable (d : Dev) (app page : Nat) : Dev :=
  if (pteAt d app page).isSome then d
  else
    let k := app * 2 ^ 18 + page / 512
    { d with mem := { d.mem with level1 := d.mem.level1.set 0 k (BitVec.ofNat 64 (packBits [(0, 1, 1), (12, 31, k)])) } }

/-- A page's level-2 entry is written in its table. -/
def putPte (d : Dev) (app page : Nat) (e : Pte) : Dev :=
  let d := if e = 0 then d else openTable d app page
  (pteAt d app page).elim d (fun k => { d with mem := { d.mem with ptes := d.mem.ptes.set 0 k e } })

/-- Firmware writes an entry: at once where the one in force is not valid, else at the next edge or a covering TLB_INVAL
(R127) (DEDUCED: log entry 48). -/
def writePte (d : Dev) (app page : Nat) (e : Pte) : Dev :=
  if (pte d app page).valid then
    { d with mem := { d.mem with pteNext := d.mem.pteNext.set none (pageKey app page) (some e) } }
  else putPte d app page e

/-- The changes under keys that satisfy a test come into force. -/
def applyPtes (d : Dev) (p : Nat → Bool) : Dev :=
  let d := forEach (d.mem.pteNext.filter (fun x => p x.1)) d (fun d x => putPte d (x.1 / 2 ^ 27) (x.1 % 2 ^ 27) (x.2.getD 0))
  { d with mem := { d.mem with pteNext := d.mem.pteNext.filter (fun x => !p x.1) } }

/-- A TLB_INVAL is issued: a partition and a range of device virtual addresses. -/
def tlbInval (d : Dev) (p lo hi : Nat) : Dev :=
  { d with mem := { d.mem with invals := d.mem.invals ++ [(p, lo, hi)] } }
def invalPage (d : Dev) (app page : Nat) : Dev :=
  forEach (partsOf d app) d (fun d p => tlbInval d p (page * frameSize) ((page + 1) * frameSize))

/-- A cluster's TE has translated a page (R127: it caches 512, and none that is not valid) (DESIGN CHOICE: log entry 47). -/
def cachePage (d : Dev) (app c page : Nat) : Dev :=
  if (pte d app page).valid then
    { d with mem := { d.mem with tlb := d.mem.tlb.modify [] c (fun l => (page :: l.filter (· ≠ page)).take 512) } }
  else d

/-! ## Frames of other devices (R129) -/

/-- Pages of this device that have a level-2 entry: application and page. -/
def mappedPages (d : Dev) : List (Nat × Nat) :=
  d.mem.level1.flatMap (fun x => (tableOf x.2).elim [] (fun t =>
    (d.mem.ptes.filter (fun y => y.1 / 512 == t)).map (fun y => (x.1 / 2 ^ 18, x.1 % 2 ^ 18 * 512 + y.1 % 512))))

/-- Pages whose entries in force name a frame of another device. -/
def importedPages (d : Dev) (dev f : Nat) : List (Nat × Nat) :=
  (mappedPages d).filter (fun x =>
    let e := pte d x.1 x.2
    e.valid && e.remote && e.device == dev && e.pfn == f)

/-- The changes that a phase of a migration asks of an importer are in force, its TLB_INVALs complete. -/
def importSettled (d : Dev) (i : Importing) : Bool :=
  let l := importedPages d i.device i.src
  if i.phase = 0 then l.all (fun x => (pte d x.1 x.2).migrating) else l.isEmpty

/-- An importer answers for each phase that it has done (R129). -/
def importAcks (d : Dev) : Dev :=
  let done := d.mem.importing.filter (importSettled d)
  let d := { d with mem := { d.mem with importing := d.mem.importing.filter (fun i => !done.contains i) } }
  forEach done d (fun d i => emit d (.migrationAck i.device i.src i.phase))

/-! ## DVA space as firmware reads and writes it -/

/-- Bytes of an application's DVA space on this device, as firmware and the Scribe read and write them. -/
def peekDva (d : Dev) (app a : Nat) : Nat → List Byte
  | 0 => []
  | n + 1 => d.mem.ddr.get 0 (ddrAddr (pte d app (a / frameSize)).pfn (a % frameSize)) :: peekDva d app (a + 1) n

def pokeDva (d : Dev) (app a : Nat) (bs : List Byte) : Dev :=
  { d with mem := { d.mem with ddr := bs.zipIdx.foldl (fun t x =>
      let b := a + x.2
      let e := pte d app (b / frameSize)
      if e.valid && !e.remote then t.set 0 (ddrAddr e.pfn (b % frameSize)) x.1 else t) d.mem.ddr } }

/-- The least number in [lo, hi) that is not used. -/
def lowestFree (used : List Nat) (lo hi : Nat) : Option Nat :=
  let free := (lo :: used.map (· + 1)).filter (fun n => lo ≤ n && n < hi && !used.contains n)
  match free with
  | [] => none
  | a :: r => some (r.foldl min a)

/-- Pages of an application with a valid entry. -/
def usedPages (d : Dev) (app : Nat) : List Nat :=
  ((mappedPages d).filter (fun x => x.1 == app && (pte d app x.2).valid)).map (·.2)

/-- The entry of a page of a key slot, readable and writable; in Peat or not. -/
def pageEntry (pfn key : Nat) (peat : Bool) : Pte :=
  BitVec.ofNat 64 (packBits [(0, 1, 1), (1, 1, 1), (4, 1, b2n peat), (8, 12, key), (20, 22, pfn)])

/-- Frames given to a key slot that no page names, those of an application's die groups first (R152, R369). -/
def givenFrames (d : Dev) (app k : Nat) : List Nat :=
  let named := (mappedPages d).filterMap (fun x => let e := pte d x.1 x.2; if e.valid && !e.remote then some e.pfn else none)
  let mine := ((d.mem.frameOwner.filter (fun x => x.2 == k + 2)).map (·.1)).filter (fun f => frameUsable d f && !named.contains f)
  let near := fun f => (partsOf d app).contains (f / 524288)
  mine.filter near ++ mine.filter (fun f => !near f)

/-- A given frame becomes a page of its key slot in [lo, hi). -/
def takePage (d : Dev) (app k lo hi : Nat) (peat : Bool) : Option (Dev × Nat) :=
  match givenFrames d app k, lowestFree (usedPages d app) lo hi with
  | f :: _, some p => some (putPte d app p (pageEntry f k peat), p)
  | _, _ => none

/-- The Peat range of an application in pages (R152): first and one past the last. -/
def peatPages (d : Dev) (app : Nat) : Nat × Nat :=
  let x := d.mem.peat.get (0, 0) app
  (x.1 / frameSize, (x.1 + x.2) / frameSize)

/-- A page beside the Peat range (DESIGN CHOICE: log entry 173). -/
def takeData (d : Dev) (app k : Nat) : Option (Dev × Nat) :=
  let (lo, hi) := peatPages d app
  if lo = hi then takePage d app k 0 (2 ^ 27) false
  else match takePage d app k 0 lo false with
    | some x => some x
    | none => takePage d app k hi (2 ^ 27) false

/-! ## Changes in force (R127) -/

/-- Step 8 of R25: the translation caches empty and every change is in force. -/
def ptesEdge (d : Dev) : Dev :=
  let d := applyPtes d (fun _ => true)
  importAcks { d with mem := { d.mem with tlb := [], invals := [] } }

/-- An access is under way that was translated through an entry of a range: its remote requests have no answer yet. -/
def accessesOpen (d : Dev) (p lo hi : Nat) : Bool :=
  (List.range 4).any (fun c => (teQueue d (4 * p + c)).any (fun x => x.waits.any (fun g => lo < (g + 1) * granSize && g * granSize < hi)))

/-- A TLB_INVAL completes once every access translated through the dropped entries has: every cache of the partition has dropped the
range, and its changes are in force. -/
def tlbComplete (d : Dev) (p lo hi : Nat) : Dev :=
  if !d.mem.invals.contains (p, lo, hi) || accessesOpen d p lo hi then d
  else
    let app := (appOfPart d p).getD 8
    let inRange := fun (k : Nat) => k / 2 ^ 27 == app && lo < (k % 2 ^ 27 + 1) * frameSize && k % 2 ^ 27 * frameSize < hi
    let d := applyPtes d inRange
    importAcks { d with mem := { d.mem with
      invals := d.mem.invals.erase (p, lo, hi)
      tlb := (List.range 4).foldl (fun t c => t.modify [] (4 * p + c) (·.filter (fun g => !inRange (pageKey app g)))) d.mem.tlb } }

/-! ## Page migration (R129) -/

/-- The copy of frame f to frame g: granules that do not read are carried as poisoned, counted, and raised. -/
def copyFrame (d : Dev) (key f g : Nat) : Dev :=
  let lost := (List.range 8192).filter (fun k => !granReads d (f * 8192 + k) key)
  let moved := (d.mem.ddr.filter (fun x => x.1 / frameSize == f)).map (fun x => (g * frameSize + x.1 % frameSize, x.2))
  let d := { d with mem := { d.mem with
    ddr := moved.foldl (fun t x => t.set 0 x.1 x.2) (dropFrame d.mem.ddr g)
    frameOwner := d.mem.frameOwner.set 0 g (if d.mem.frameOwner.get 0 f = 1 then 1 else key)
    granOwner := d.mem.granOwner.filter (fun x => x.1 / 8192 != g)
    bad := d.mem.bad.filter (fun k => k / 8192 != g) ++ lost.map (g * 8192 + ·) } }
  forEach lost d (fun d k =>
    let c := chanOf (f * 8192 + k)
    raise (bump d 0x1106 (c + 1) 1) (1152 + c) 2 ((f * 8192 + k) % 2 ^ 32))

/-- A FAULTED transfer goes on (R147): its record reads ACTIVE, and its stream's HEAD lies where it was before the fault. -/
def resumeHead (d : Dev) (c : Nat) (x : Xfer) : Dev :=
  let d := headBack d x
  let x := { x with st := 2, cause := 0, dva := 0 }
  recordXfer (setTeHead d c x) x

/-- Transfers faulted with PAGE_MIGRATING on a page resume, those carried too (R129, R149). -/
def resumeMigrated (d : Dev) (app page : Nat) : Dev :=
  let hit := fun (t : Xfer) => t.cause == 3 && t.dva / frameSize == page && appOfPart d t.part == some app
  let d := forEach (List.range 32) d (fun d c => match (teQueue d c).head? with
    | some x => if x.st = 4 ∧ hit x then resumeHead d c x else d
    | none => d)
  { d with mem := { d.mem with carriedX := d.mem.carriedX.mapVals [] (·.map (fun t =>
      if hit t then { t with cause := 0, dva := 0 } else t)) } }

def setMigration (d : Dev) (m : Migration) : Dev :=
  { d with mem := { d.mem with
    migrations := m :: d.mem.migrations.filter (fun x => !(x.app == m.app && x.page == m.page)) } }

/-- Other devices of an application (R3, R480). -/
def otherDevices (d : Dev) (app : Nat) : Nat :=
  match d.gen.apps.get none app with
  | some x => max 1 x.place.len * max 1 x.place.replicas - 1
  | none => 0

/-- A phase of an exported frame's migration goes to the application's other devices, of which some may import it (R129). -/
def tellImporters (d : Dev) (app f g phase : Nat) : Dev :=
  if d.mem.exports.get 0 f = 0 then d else emit d (.migration app f g phase)

/-- Every device of the application has done its part of the present phase. -/
def importersDone (d : Dev) (m : Migration) : Bool :=
  d.mem.exports.get 0 m.src == 0 || decide (otherDevices d m.app ≤ m.acks.length)

/-- The export of a frame goes with its contents. -/
def moveExport (d : Dev) (f g : Nat) : Dev :=
  if d.mem.exports.get 0 f = 0 then d
  else { d with mem := { d.mem with exports := (d.mem.exports.set 0 g (d.mem.exports.get 0 f)).set 0 f 0 } }

/-- The next phase of a page's migration: it begins; once no write can reach f, it copies and switches; once the switch is in
force, the faulted transfers resume and f is freed. The other devices that import an exported frame, which the manager alone
migrates, go through the same phases first (DEDUCED: log entry 156). -/
def migrate (d : Dev) (app page g : Nat) (manager : Bool) : Dev :=
  let e := pte d app page
  match d.mem.migrations.find? (fun m => m.app == app && m.page == page) with
  | none =>
    if !e.valid ∨ e.remote ∨ (d.mem.exports.get 0 e.pfn ≠ 0 ∧ !manager) ∨ !frameUsable d g then d
    else
      let d := tellImporters d app e.pfn g 0
      invalPage (setMigration (writePte d app page (e.setMigrating true)) ⟨app, page, e.pfn, g, 0, []⟩) app page
  | some m =>
    if !importersDone d m then d
    else if m.phase = 0 then
      if !e.migrating then d
      else
        let d := tellImporters (copyFrame d (e.key + 2) m.src m.dst) app m.src m.dst 2
        invalPage (setMigration (writePte d app page ((e.setFrame m.dst).setMigrating false)) { m with phase := 2, acks := [] }) app page
    else if e.pfn ≠ m.dst ∨ e.migrating then d
    else
      let d := { d with mem := { d.mem with
        migrations := d.mem.migrations.filter (fun x => !(x.app == app && x.page == page)) } }
      let d := resumeMigrated (tellImporters d app m.src m.dst 3) app page
      freeFrame (moveExport d m.src m.dst) m.src

/-- A device that may import a frame follows its migration: it marks its entries MIGRATING, names the new frame in them, and resumes
the faulted transfers (R129). -/
def importMigration (d : Dev) (dev f g phase : Nat) : Dev :=
  if phase = 3 then forEach (importedPages d dev g) d (fun d x => resumeMigrated d x.1 x.2)
  else
    let d := forEach (importedPages d dev f) d (fun d x =>
      let e := pte d x.1 x.2
      invalPage (writePte d x.1 x.2 (if phase = 0 then e.setMigrating true else (e.setFrame g).setMigrating false)) x.1 x.2)
    importAcks { d with mem := { d.mem with importing := d.mem.importing ++ [⟨dev, f, g, phase⟩] } }

/-- An importer has done its part of a phase. -/
def importerDone (d : Dev) (dev f phase : Nat) : Dev :=
  { d with mem := { d.mem with migrations := d.mem.migrations.map (fun m =>
      if m.src = f ∧ m.phase = phase ∧ !m.acks.contains dev then { m with acks := m.acks ++ [dev] } else m) } }

/-! ## The commands -/

def execTlbInval (op : TlbOp) (s : State) : Host.Outcome State Fault Refusal :=
  onDevIf (op.part < 8) s (fun d => tlbInval (atOff d op.off) op.part op.lo op.hi)

def execTlbInvalComplete (op : TlbOp) (s : State) : Host.Outcome State Fault Refusal :=
  onDevIf (op.part < 8) s (fun d => tlbComplete (atOff d op.off) op.part op.lo op.hi)

def execPageMigrate (op : MigrateOp) (s : State) : Host.Outcome State Fault Refusal :=
  onDevIf (op.app < 8 && op.page < 2 ^ 27) s (fun d => migrate (atOff d op.off) op.app op.page op.frame (isManager d))

/-- hclk that a recalibration takes at most. -/
def recalHclk : Nat := 1700

/-- A TRAINED channel is due for its recalibration in a frame: 1,024 frames after the last (R121). -/
def recalDue (d : Dev) (no k : Nat) : Bool := reg d 0x1101 (k + 1) == 1 && decide (d.mem.recal.get 0 k + 1024 ≤ no)

/-- A TRAINED channel recalibrates where the plan in force places it (R121). -/
def execChannelRecalibration (op : ChannelOp) (s : State) : Host.Outcome State Fault Refusal :=
  onDevIf (op.channel < 32) s (fun d =>
    let d := atOff d op.off
    if reg d 0x1101 (op.channel + 1) = 1 ∧
        d.frame.recals.any (fun x => x.1 == op.channel && decide (x.2 ≤ d.frame.off) && decide (d.frame.off < x.2 + recalHclk)) then
      { d with mem := { d.mem with recal := d.mem.recal.set 0 op.channel d.frame.no } }
    else d)

end Sys2Proof.Machine
end

