-- ==== Sys2Proof/Machine/Damper.lean ====
section
/-!
DEFINITION. The Damper (R84 to R92): stream records, evidence, the algorithm of a closed stream step, and the causes that
turn streams cold.
-/
namespace Sys2Proof.Machine
open Sys2Proof

/-! ## Stream records (R84), under 1,024·partition + stream ID -/

abbrev StreamRec := BitVec 128

def StreamRec.fmt (r : StreamRec) : Nat := field r 0 4
def StreamRec.tensor (r : StreamRec) : Bool := field r 4 2 = 1
def StreamRec.training (r : StreamRec) : Bool := field r 6 1 = 1
def StreamRec.baseBound (r : StreamRec) : Bool := field r 7 1 = 1
def StreamRec.adapt (r : StreamRec) : Bool := field r 8 1 = 1
def StreamRec.traced (r : StreamRec) : Bool := field r 10 1 = 1
def StreamRec.cold (r : StreamRec) : Bool := field r 9 1 = 1
def StreamRec.hrBase (r : StreamRec) : Nat := field r 16 3
def StreamRec.bumpOf (r : StreamRec) : Nat := field r 19 3
def StreamRec.exactWarm (r : StreamRec) : Bool := field r 22 1 = 1
def StreamRec.coldLeft (r : StreamRec) : Nat := field r 29 5
def StreamRec.spread (r : StreamRec) : Nat := field r 34 6
def StreamRec.decay (r : StreamRec) : Nat := field r 40 9
def StreamRec.floor (r : StreamRec) : Nat := field r 56 8
def StreamRec.steps (r : StreamRec) : Nat := field r 64 32
def StreamRec.coldRun (r : StreamRec) : Nat := field r 96 16
def StreamRec.countdown (r : StreamRec) : Nat := field r 112 11

def StreamRec.setCold (r : StreamRec) (b : Bool) : StreamRec := setField r 9 1 (b2n b)
def StreamRec.setBump (r : StreamRec) (n : Nat) : StreamRec := setField r 19 3 n
def StreamRec.setColdLeft (r : StreamRec) (n : Nat) : StreamRec := setField r 29 5 n
def StreamRec.setSpread (r : StreamRec) (n : Nat) : StreamRec := setField r 34 6 n
def StreamRec.setDecay (r : StreamRec) (n : Nat) : StreamRec := setField r 40 9 n
def StreamRec.setCountdown (r : StreamRec) (n : Nat) : StreamRec := setField r 112 11 n
def StreamRec.addStep (r : StreamRec) : StreamRec := setField r 64 32 (r.steps + 1)

def streamRec (d : Dev) (st : Nat) : StreamRec := d.num.records.get 0 st
def setStreamRec (d : Dev) (st : Nat) (r : StreamRec) : Dev :=
  { d with num := { d.num with records := d.num.records.set 0 st r } }

/-- Parameters as the last copybook load of the stream's partition took them (R96). -/
def limitsIdle : Limits := { hrMax := 6, bumpSteps := 64, coldSteps := 16, coldHr := 3, decay := 256, seed := 0 }
def limitsOf (d : Dev) (st : Nat) : Limits := d.num.limits.get limitsIdle (st / 1024)

/-! ## Cold streams (R89, R90) -/

/-- A cause of lost history: evidence of steps planned before it no longer counts (R89). -/
def raiseEra (d : Dev) (st : Nat) : Dev := { d with num := { d.num with eras := d.num.eras.modify 0 st (· + 1) } }

/-- A stream turns cold; a frozen one never does (R91) (DEDUCED: log entry 50). -/
def turnCold (d : Dev) (st : Nat) : Dev :=
  let r := streamRec d st
  if !r.adapt then d
  else
    let r := (((r.setCold true).setColdLeft (limitsOf d st).coldSteps).setSpread 0).setDecay 0
    raiseEra (setStreamRec d st ((r.setBump 0).setCountdown 0)) st

/-- The streams of a partition that the copybook gave a record. -/
def streamsOf (d : Dev) (p : Nat) : List Nat := (d.num.records.map (·.1)).filter (fun k => k / 1024 == p)

/-- A base SWITCH turns the streams with BASE_BOUND of these partitions cold. -/
def switchCold (d : Dev) (parts : List Nat) : Dev :=
  forEach (parts.flatMap (streamsOf d)) d (fun d st => if (streamRec d st).baseBound then turnCold d st else d)

/-- DAMPER_RESET: every stream of the partitions named. -/
def damperReset (d : Dev) (v : Nat) : Dev :=
  forEach (((List.range 8).filter (fun p => bit v p)).flatMap (streamsOf d)) d turnCold

/-! ## Stream steps and their evidence (R85, R86, R112) -/

def stepsOf (d : Dev) (st : Nat) : List Evidence := d.num.steps.get [] st
def setSteps (d : Dev) (st : Nat) (l : List Evidence) : Dev :=
  { d with num := { d.num with steps := d.num.steps.set [] st l } }

/-- The training step of a chunk, as evidence names it (R85). -/
def chunkTag (c : ChunkRef) : Option (Nat × Nat) :=
  match c.use with
  | .job n => some (n / 2 + 1, c.step)
  | _ => none

/-- The training step that a task belongs to, under a plan's micro-batches. -/
def stepTag (batches : List Batch) (t : TaskPlan) : Option (Nat × Nat) :=
  match t.shape with
  | .rows b _ => ((batches[b]?).bind (·.chunk)).bind chunkTag
  | _ => none

/-- A step of a stream is planned: cold while COLD_LEFT lasts, which falls by one (R89). -/
def planOne (d : Dev) (st : Nat) (tag : Nat × Nat) : Dev :=
  let r := streamRec d st
  let cold := r.adapt && r.cold && 0 < r.coldLeft
  let d := if cold then setStreamRec d st (r.setColdLeft (r.coldLeft - 1)) else d
  setSteps d st (stepsOf d st ++ [⟨0, 0, d.num.eras.get 0 st, cold, false, tag⟩])

/-- The steps of a stream that a plan holds: the frame, or for TRAINING_STEP granularity each training step of its application that
was not planned before (R85). -/
def planStep (p : Plan) (d : Dev) (st : Nat) : Dev :=
  if !(streamRec d st).training then planOne d st (0, 0)
  else
    let mine := p.batches.filter (fun b => appOfPart d (st / 1024) == some b.app)
    forEach (mine.filterMap (fun b => b.chunk.bind chunkTag)).eraseDups d (fun d tag =>
      if (stepsOf d st).any (fun e => e.tag == tag) then d else planOne d st tag)

/-- A step that was planned for a plan that never ran is planned no more: its COLD_LEFT is given back (R31). -/
def unplanStep (d : Dev) (st : Nat) : Dev :=
  let r := streamRec d st
  let l := stepsOf d st
  match l.getLast? with
  | none => d
  | some e =>
    if r.training ∨ e.handed then d
    else
      let d := if e.cold ∧ e.era = d.num.eras.get 0 st then setStreamRec d st (r.setColdLeft (r.coldLeft + 1)) else d
      setSteps d st l.dropLast

/-- Add to the evidence of a step: the first one of its tag that has not closed. -/
def addEvidence (tag : Nat × Nat) (o m : Nat) : List Evidence → List Evidence
  | [] => []
  | e :: r =>
    if e.handed || e.tag != tag then e :: addEvidence tag o m r else { e with ovf := e.ovf + o, dmax := max e.dmax m } :: r

/-- The first step of a tag that has not closed closes. -/
def markHanded (tag : Nat × Nat) : List Evidence → List Evidence
  | [] => []
  | e :: r => if e.handed || e.tag != tag then e :: markHanded tag r else { e with handed := true } :: r

/-- A stream step closes (R85); a cold one has now run and is counted (R89). -/
def closeStep (d : Dev) (st : Nat) (tag : Nat × Nat) : Dev :=
  let l := stepsOf d st
  let cold := (l.find? (fun e => !e.handed && e.tag == tag)).any (·.cold)
  let d := setSteps d st (markHanded tag l)
  if cold then
    let r := streamRec d st
    bumpPart (setStreamRec d st (setField r 96 16 (min 65535 (r.coldRun + 1)))) 0x5033 (st / 1024) 1
  else d

/-- A task's evidence counts: the task was neither late nor failed (R86). -/
def evidenceStands (d : Dev) (id : Nat) : Bool :=
  match task d id with
  | some t => t.status = .live || t.status = .done
  | none => false

/-- The tallies of the frame that ends go to the operator's counters and to the Damper, and are cleared (R58, R112); saturations of
slots mapped to no stream are those of the key/value cache (R203). -/
def tallyHandOff (d : Dev) : Dev :=
  let d' := forEach d.hearth.tally d (fun d x =>
    let p := partOfHearth (x.1 / 256)
    let t := x.2
    let d := bumpPart (bumpPart (bumpPart d 0x2040 p t.rep1) 0x2041 p t.rep2) 0x2042 p t.wide
    let d := bumpPart (bumpPart d 0x5030 p t.sat) 0x5031 p t.nan
    match d.num.tallyMap.get (8192, 0) x.1 with
    | (st, id) =>
      if 8192 ≤ st then bump d 0x3030 0x09 t.sat
      else if !evidenceStands d id then d
      else
        let tag := if (streamRec d st).training then ((task d id).bind (fun t => stepTag d.frame.batches t.plan)).getD (0, 0) else (0, 0)
        setSteps d st (addEvidence tag (t.rep1 + t.rep2 + t.wide + t.sat) t.dmax (stepsOf d st)))
  { d' with hearth := { d'.hearth with tally := [] } }

/-- The streams of TRAINING_STEP granularity close a training step at the edge at which its versions go live (R85). -/
def closeTraining (d : Dev) (tag : Nat × Nat) : Dev :=
  forEach ((d.num.steps.map (·.1)).filter (fun st => (streamRec d st).training)) d (fun d st => closeStep d st tag)

/-- Training steps that are abandoned never close (R93): their evidence goes. -/
def forgetSteps (d : Dev) (gone : Nat × Nat → Bool) : Dev :=
  { d with num := { d.num with steps := d.num.steps.mapVals [] (fun l => l.filter (fun e => !gone e.tag)) } }

/-- A training step in which a stream ran cold (R89). -/
def ranCold (d : Dev) (tag : Nat × Nat) : Bool :=
  d.num.steps.any (fun x => x.2.any (fun e => e.tag == tag && e.cold && !e.handed))

/-! ## Scale parameters (R88) -/

/-- A stream's record as it stood when `n` of its steps had been processed: the present one, or one of the two before it. -/
def recordAfter (d : Dev) (st n : Nat) : StreamRec :=
  let l := d.num.retained.get [] st
  ((l[(streamRec d st).steps - n]?).or l.getLast?).getD (streamRec d st)

/-- The parameters of a task that reads or writes a stream: a frozen stream is EXACT at HR_BASE (R91); a cold step is EXACT with at
least COLD_HEADROOM; a step of a training stream uses the record that the step two before it left (DEDUCED: log entry 178). -/
def pinOf (d : Dev) (st : Nat) (tag : Nat × Nat) : Pin :=
  let now := streamRec d st
  if !now.adapt then { exact := true, h := now.hrBase, spread := 0, floor := now.floor }
  else
    let l := stepsOf d st
    let k := if now.training then l.findIdx (fun e => e.tag == tag) else l.length - 1
    let r := if now.training then recordAfter d st (now.steps + k - 1) else now
    let cold := (l[k]?).any (·.cold)
    let h := r.hrBase + r.bumpOf
    { exact := cold || r.exactWarm, h := if cold then max (limitsOf d st).coldHr h else h, spread := r.spread, floor := now.floor }

/-- Parameters kept for a late token of the task. -/
def keptPin (d : Dev) (t : TaskPlan) (st : Nat) : Option Pin :=
  ((d.num.kept.find? (fun x => x.2.1 == st && t.seqs.contains x.1)).map (·.2.2))

/-- The parameters of a plan's tasks, pinned as it is built, by tally slot (R86, R88). -/
def pinPlan (d : Dev) (p : Plan) : Dev :=
  { d with num := { d.num with pinsNext := p.tallyMap.filterMap (fun x =>
      let st := x.2.1
      match p.tasks.find? (·.id == x.2.2) with
      | some t => if 8192 ≤ st then none
        else some (x.1, (keptPin d t st).getD (pinOf d st ((stepTag p.batches t).getD (0, 0))))
      | none => none) } }

/-- The plan that is released brings its parameters; those of late tokens last until the tokens are planned again. -/
def releasePins (d : Dev) (ran : Bool) : Dev :=
  { d with num := { d.num with
    pins := if ran then d.num.pinsNext else [], pinsNext := []
    kept := d.num.kept.filter (fun x => d.frame.retry.contains x.1) } }

/-- The index of the stream step to which work on an array belongs: STEPS, plus the steps planned before it that have not been
processed (R93). -/
def stepIndex (d : Dev) (st : Nat) (id : Option Nat) : Nat :=
  let r := streamRec d st
  let tag := if r.training then ((id.bind (task d)).bind (fun t => stepTag d.frame.batches t.plan)).getD (0, 0) else (0, 0)
  r.steps + (stepsOf d st).findIdx (fun e => !e.handed && e.tag == tag)

/-! ## The algorithm (R87) -/

/-- SPREAD and DECAY after a step whose largest d is `dm`. -/
def spreadStep (r : StreamRec) (dm : Int) (limit : Nat) : StreamRec :=
  if (r.spread : Int) ≤ dm then (r.setSpread (min dm 63).toNat).setDecay 0
  else if 0 < r.spread then
    if r.decay + 1 = limit then (r.setSpread (r.spread - 1)).setDecay 0 else r.setDecay (r.decay + 1)
  else r

/-- BUMP and COUNTDOWN after a step, and whether it met the ceiling. -/
def bumpStep (r : StreamRec) (ovf : Bool) (ceiling steps : Nat) : StreamRec × Bool :=
  if ovf then
    if ceiling ≤ r.hrBase + r.bumpOf then (r.setCountdown steps, true)
    else ((r.setBump (r.bumpOf + 1)).setCountdown steps, false)
  else if 0 < r.bumpOf then
    if r.countdown - 1 = 0 then
      let r' := (r.setBump (r.bumpOf - 1)).setCountdown 0
      (if 0 < r'.bumpOf then r'.setCountdown steps else r', false)
    else (r.setCountdown (r.countdown - 1), false)
  else (r, false)

/-- A training stream's record is kept for its last two closed steps (R88). -/
def retainRecord (d : Dev) (st : Nat) : Dev :=
  if (streamRec d st).training then
    { d with num := { d.num with retained := d.num.retained.modify [] st (fun l => (streamRec d st :: l).take 2) } }
  else d

/-- One step's evidence is processed: STEPS always; for evidence of the stream's present turn its counter too, and the rest for an
adaptive stream (R87, R89, R91). -/
def processStep (d : Dev) (st : Nat) (e : Evidence) : Dev :=
  let lim := limitsOf d st
  let r := streamRec d st
  if e.era ≠ d.num.eras.get 0 st then setStreamRec d st r.addStep
  else if !r.adapt then
    let d := setStreamRec d st r.addStep
    if 0 < e.ovf ∧ lim.hrMax ≤ r.hrBase then bumpPart d 0x5032 (st / 1024) 1 else d
  else
    let dm : Int := if e.dmax = 0 then 0 else (e.dmax : Int) - 129
    let r := spreadStep r dm lim.decay
    let (r, hit) := bumpStep r (0 < e.ovf) lim.hrMax lim.bumpSteps
    let r := r.addStep
    let d := setStreamRec d st (if r.coldLeft = 0 then r.setCold false else r)
    if hit then bumpPart d 0x5032 (st / 1024) 1 else d

/-- The first step of a stream that has closed is processed (R87). -/
def damperStep (d : Dev) (st : Nat) : Dev :=
  match (stepsOf d st).find? (·.handed) with
  | none => d
  | some e => retainRecord (processStep (setSteps d st ((stepsOf d st).eraseP (·.handed))) st e) st

/-! ## Evidence of the Tracer at an edge (R95) -/

/-- Streams with disagreements raise TRACER_DISAGREE once at the edge. -/
def tracerEdge (d : Dev) : Dev :=
  forEach (d.num.trace.filter (fun x => x.2.pending)) d (fun d x =>
    let d := { d with num := { d.num with trace := d.num.trace.set traceIdle x.1 { x.2 with pending := false } } }
    raise d (partSrc (x.1 / 1024) 5) 0 (x.1 % 1024))

/-- A sampled tile step: TRACE is set in its A stream, the rate in force samples, and the draw of the stream step selects it (R93, R96).
Its number in plan order is the operand's (DESIGN CHOICE: log entry 180). -/
def execTracerPassEnd (op : TracerOp) (s : State) : Host.Outcome State Fault Refusal :=
  onDevIf (arrayOk op.hearth op.array && op.stream < 8192) s (fun d =>
    let d := atOff d op.off
    let id := ((array d (arrayKey op.hearth op.array)).queue.head?).map (·.task)
    match d.num.rate with
    | none => d
    | some r =>
      if (streamRec d op.stream).traced ∧ op.step = stepIndex d op.stream id ∧
          tracerSelects (limitsOf d op.stream).seed op.stream op.step op.index r then
        tracePass d op.hearth op.array op.stream
      else d)

/-- The Damper reads a stream's record and processes a closed step; a record with an uncorrectable error turns its stream cold (R90)
(DESIGN CHOICE: log entry 179). -/
def execDamperStep (op : DamperOp) (s : State) : Host.Outcome State Fault Refusal :=
  let st := 1024 * op.part + op.stream
  onDevIf (op.part < 8 && op.stream < 1024) s (fun d => damperStep (if op.bad then turnCold d st else d) st)

end Sys2Proof.Machine
end

