-- ==== Sys2Proof/Machine/Slots.lean ====
section
/-!
DEFINITION. The Inkwell's slot table: its entries, its operations, binds, the fill queue and the freeing of slots (R161 to R177).
-/
namespace Sys2Proof.Machine
open Sys2Proof

/-! ## Slot table entries (R164) -/

abbrev Slot := BitVec 128

def Slot.owner (e : Slot) : Nat := field e 0 32
def Slot.gen (e : Slot) : Nat := field e 32 16
def Slot.st (e : Slot) : Nat := field e 48 2
def Slot.liveB (e : Slot) : Bool := field e 50 1 = 1
def Slot.flip (e : Slot) : Bool := field e 51 1 = 1
def Slot.withdrawing (e : Slot) : Bool := field e 52 1 = 1
def Slot.tries (e : Slot) : Nat := field e 53 3
def Slot.key (e : Slot) : Nat := field e 56 12
def Slot.pin (e : Slot) : Nat := field e 72 16
def Slot.lastUse (e : Slot) : Nat := field e 96 32

def slot (d : Dev) (s : Nat) : Slot := d.ink.slots.get 0 s
def setSlot (d : Dev) (s : Nat) (e : Slot) : Dev := { d with ink := { d.ink with slots := d.ink.slots.set 0 s e } }

/-- GENERATION one up, modulo 65,536 (R167). -/
def Slot.nextGen (e : Slot) : Slot := setField e 32 16 (e.gen + 1)

/-- Slots of an application: 512·q + i for each of its partitions q (R161); none where no application is loaded. -/
def slotApp (d : Dev) (s : Nat) : Option Nat := appOfPart d (s / 512)
def appSlots (d : Dev) (app : Nat) : List Nat :=
  (partsOf d app).flatMap (fun q => (List.range 512).map (fun i => 512 * q + i))

/-- The slot that a variant owns outside FREE (R166). -/
def ownedSlot (d : Dev) (v : Nat) : Option Nat :=
  (d.ink.slots.find? (fun x => Slot.owner x.2 == v && Slot.st x.2 != 0)).map (·.1)

/-- held(t) of R166. -/
def heldSlots (d : Dev) (app t : Nat) : Nat :=
  (d.ink.slots.filter (fun x => slotApp d x.1 == some app && Slot.key x.2 == t && Slot.st x.2 != 0)).length

def reserveOf (d : Dev) (app t : Nat) : Nat := d.ink.reserve.get 0 (4096 * app + t)

/-- A fill of some halves is queued: 1 buffer A, 2 buffer B, 3 both (R172, R177, R329). -/
def queueFill (d : Dev) (s mask : Nat) : Dev :=
  { d with ink := { d.ink with
    fills := d.ink.fills ++ [⟨s, false⟩], halves := d.ink.halves.set 0 s mask, fillDone := d.ink.fillDone.set [] s [] } }
def halfBit (b : Bool) : Nat := if b then 2 else 1
/-- A fill writes the LIVE_BUF half, and both while a flip is pending. -/
def liveMask (e : Slot) : Nat := if e.flip then 3 else halfBit e.liveB

/-- The use that a check of a mapped variant pins its slot for (R329). -/
def checkUse (v : Nat) : Use := .eval (2 ^ 200 + v)
def isCheck : Use → Bool
  | .eval n => decide (2 ^ 200 ≤ n)
  | _ => false

/-! ## The registry (R157, R158) -/

def variant (d : Dev) (v : Nat) : Option VarRec := d.ink.recs.get none v
def setVariant (d : Dev) (v : Nat) (r : Option VarRec) : Dev :=
  { d with ink := { d.ink with recs := d.ink.recs.set none v r } }
def VarRec.tenant (r : VarRec) : Nat := field r.hdr 32 16
def VarRec.key (r : VarRec) : Nat := field r.hdr 48 12
def VarRec.version (r : VarRec) : Nat := field r.hdr 128 32
def VarRec.liveB (r : VarRec) : Bool := field r.hdr 160 1 = 1
def VarRec.flip (r : VarRec) : Bool := field r.hdr 173 1 = 1
def VarRec.nLayers (r : VarRec) : Nat := field r.hdr 163 5
def VarRec.nPatch (r : VarRec) : Nat := field r.hdr 168 5
/-- It has a part for a layer of this device (R157). -/
def VarRec.held (r : VarRec) : Bool := r.nLayers != 0 || r.nPatch != 0
/-- The device holds a record of a variant: it needs a slot for it (R171). -/
def holdsRec (d : Dev) (v : Nat) : Bool := (variant d v).any VarRec.held
/-- The variant is ordered withdrawn (R176). -/
def VarRec.withdrawn (r : VarRec) : Bool := r.wd != .none

/-! ## Leaving FILLING or LIVE -/

/-- Every fill of a slot, queued or carried, is cancelled (R175). -/
def cancelFill (d : Dev) (s : Nat) : Dev :=
  { d with
    ink := { d.ink with fills := d.ink.fills.filter (fun f => f.slot != s), fillDone := d.ink.fillDone.set [] s [] }
    mem := { d.mem with carriedX := d.mem.carriedX.map (fun x => (x.1, x.2.filter (fun y => y.fill != some s))) } }

/-- A slot moves to DRAINING. -/
def drainSlot (d : Dev) (s : Nat) : Dev :=
  let e := slot d s
  if e.st = 1 ∨ e.st = 2 then cancelFill (setSlot d s (setField e.nextGen 48 2 3)) s else d

/-! ## The operations of R166 -/

def setAnswer (d : Dev) (a : SlotAnswer) : Dev := { d with ink := { d.ink with answer := a } }

def lookup (d : Dev) (v : Nat) : Dev :=
  match ownedSlot d v with
  | some s => setAnswer d (.found s (slot d s).gen (slot d s).st)
  | none => setAnswer d .none

/-- An answer SLOT_LOST is counted. -/
def slotLost (d : Dev) : Dev := setAnswer (bump d 0x3130 0x01 1) .lost

/-- CLAIM(v, t, s, g). -/
def claim (d : Dev) (v t s g : Nat) : Dev :=
  match ownedSlot d v with
  | some s' => setAnswer d (.exists_ s' (slot d s').gen)
  | none =>
    let app := (slotApp d s).getD 8
    if reserveOf d app t ≤ heldSlots d app t then setAnswer d .reserveFull
    else
      let e := slot d s
      if e.st = 0 ∧ e.gen = g ∧ v ≠ 0 then
        let live := (variant d v).any VarRec.liveB
        let flip := (variant d v).any VarRec.flip
        let e' : Slot := BitVec.ofNat 128 (packBits
          [(0, 32, v), (32, 16, g + 1), (48, 2, 1), (50, 1, b2n live), (51, 1, b2n flip), (56, 12, t), (72, 16, 1),
           (96, 32, e.lastUse)])
        setAnswer (queueFill (bump (setSlot d s e') 0x3130 0x00 1) s (liveMask e')) .ok
      else slotLost d

/-- PIN(s, g). -/
def pinSlot (d : Dev) (s g : Nat) : Dev :=
  let e := slot d s
  if e.gen = g ∧ (e.st = 1 ∨ e.st = 2) ∧ !e.withdrawing ∧ e.pin < 65535 then
    setAnswer (setSlot d s (setField e 72 16 (e.pin + 1))) .ok
  else slotLost d

/-- UNPIN(s, v). -/
def unpinSlot (d : Dev) (s v : Nat) : Dev :=
  let e := slot d s
  if e.owner = v ∧ 0 < e.pin then
    let e' := setField e 72 16 (e.pin - 1)
    setAnswer (setSlot d s (if e.pin = 1 then setField e' 96 32 d.frame.no else e')) .ok
  else setAnswer (bump d 0x3130 0x09 1) .none

/-- EVICT(s, g). -/
def evict (d : Dev) (s g : Nat) : Dev :=
  let e := slot d s
  if e.gen = g ∧ e.st = 2 ∧ e.pin = 0 then setAnswer (drainSlot (bump d 0x3130 0x02 1) s) .ok else slotLost d

/-- WITHDRAW(v). -/
def withdrawSlot (d : Dev) (v : Nat) : Dev :=
  match ownedSlot d v with
  | some s =>
    let e := slot d s
    if e.st = 1 ∨ e.st = 2 then setAnswer (setSlot d s (setField e 52 1 1)) .ok else setAnswer d .none
  | none => setAnswer d .none

/-! ## Binding a slot (R169) -/

/-- VARIANT_WITHDRAWN and SLOT_RESERVE_FULL (R209). -/
def stWithdrawn : Nat := 0x11
def stUnavailable : Nat := 0x12
def stReserveFull : Nat := 0x13

def setBinds (d : Dev) (l : List Bind) : Dev := { d with ink := { d.ink with binds := l } }
def bindDone (d : Dev) (b : Bind) : Dev := setBinds d (d.ink.binds.filter (fun x => x.use != b.use))
/-- A chain's later device reports a LIVE slot to the first, for the requests that satisfy a test (R171). -/
def reportLive (d : Dev) (p : Use → Bool) : Dev :=
  forEach (d.gen.reqs.filter (fun q => q.stage == .active && q.holder != reg d 0x4001 0x00 && p (Use.request q.slot q.id))) d
    (fun d q => emit d (.slotLive q.slot q.id))

def bound (d : Dev) (b : Bind) (s : Nat) : Dev :=
  let d := bindDone d b
  let d := { d with ink := { d.ink with bound := d.ink.bound ++ [(b.use, s, (slot d s).gen)] } }
  if (slot d s).st = 2 then reportLive d (· == b.use) else d
def bindRefused (d : Dev) (b : Bind) (code : Nat) : Dev :=
  let d := bindDone d b
  { d with ink := { d.ink with refused := d.ink.refused ++ [(b.use, code)] } }
def bindWaits (d : Dev) (b : Bind) (s : Option Nat) (claims : Bool) : Dev :=
  let d := bindDone d b
  setBinds d (d.ink.binds ++ [{ b with wait := s, claims := claims }])
/-- The fill for a check writes the idle half of a LIVE slot, and both halves of one that fills (R329). -/
def checkFill (d : Dev) (b : Bind) (s : Nat) : Dev :=
  if b.use ≠ checkUse b.variant then d
  else if (slot d s).st = 2 then queueFill d s (halfBit (!(slot d s).liveB))
  else { d with ink := { d.ink with halves := d.ink.halves.set 0 s 3 } }

/-- CLAIM for a bind: it has its slot, or goes on with another pass. -/
def bindClaim (d : Dev) (b : Bind) (s : Nat) : Dev :=
  let d' := claim d b.variant b.key s (slot d s).gen
  if d'.ink.answer = .ok then
    bound (checkFill d' b s) b s
  else bindWaits d' b none false

/-- The LIVE, unpinned slot of a tenant with the oldest LAST_USE, then the lowest number. -/
def victim (d : Dev) (app t : Nat) : Option Nat :=
  ((d.ink.slots.filter (fun x => slotApp d x.1 == some app && Slot.key x.2 == t && Slot.st x.2 == 2 && Slot.pin x.2 == 0)).foldl
    (fun b x =>
      let age := (d.frame.no + 2 ^ 32 - Slot.lastUse x.2) % 2 ^ 32
      match b with
      | some (a, s) => if a < age then some (age, x.1) else some (a, s)
      | none => some (age, x.1)) (none : Option (Nat × Nat))).map (·.2)

/-- One pass of the procedure, up to a binding, a refusal or a wait. Within one pass nobody else acts on the table, so the
retries for a lost race cannot arise in it. -/
def bindPass (d : Dev) (b : Bind) : Dev :=
  match variant d b.variant with
  | none => bindDone d b
  | some r =>
    if !r.held then bindDone d b
    else if r.withdrawn then bindRefused d b stWithdrawn
    else match ownedSlot d b.variant with
      | some s =>
        let e := slot d s
        if e.st = 3 then bindWaits d b (some s) false
        else
          let d' := pinSlot d s e.gen
          if d'.ink.answer = .ok then bound (checkFill d' b s) b s else bindWaits d' b none false
      | none =>
        if heldSlots d b.app b.key < reserveOf d b.app b.key then
          match (appSlots d b.app).find? (fun s => (slot d s).st == 0) with
          | none => bindWaits d b none false
          | some s => bindClaim d b s
        else match victim d b.app b.key with
          | some s => bindWaits (evict d s (slot d s).gen) b (some s) true
          | none =>
            if d.ink.slots.any (fun x => slotApp d x.1 == some b.app && Slot.key x.2 == b.key && Slot.st x.2 == 3) then
              bindWaits d b none false
            else bindRefused d b stReserveFull

/-- A bind that waits goes on once its slot is no longer DRAINING: it claims the slot that it evicted, or begins another pass; a
variant ordered withdrawn claims none (R169, R176). -/
def bindResume (d : Dev) (u : Use) : Dev :=
  match d.ink.binds.find? (fun b => b.use == u) with
  | none => d
  | some b =>
    match b.wait with
    | some s =>
      if (slot d s).st = 3 then d
      else if b.claims ∧ !(variant d b.variant).all VarRec.withdrawn then bindClaim d b s
      else bindPass d b
    | none => bindPass d b

/-- A use's pin is released at the next edge (R170): its bind, if it still waits, ends. -/
def releaseUse (d : Dev) (u : Use) : Dev :=
  let mine := d.ink.bound.filter (fun x => x.1 == u)
  { d with ink := { d.ink with
    binds := d.ink.binds.filter (fun b => b.use != u)
    bound := d.ink.bound.filter (fun x => x.1 != u)
    unpins := d.ink.unpins ++ mine.map (fun x => (x.2.1, (slot d x.2.1).owner)) } }

/-- UNPINs due are performed at the edge. -/
def unpinsEdge (d : Dev) : Dev :=
  forEach d.ink.unpins { d with ink := { d.ink with unpins := [] } } (fun d x => unpinSlot d x.1 x.2)

/-- The slots of some partitions are emptied for another application: binds and pins of their users end (R165, R167, R170)
(DEDUCED: log entry 164). -/
def emptySlots (d : Dev) (parts : List Nat) : Dev :=
  let mine := (d.ink.slots.map (·.1)).filter (fun s => parts.contains (s / 512))
  let users := (d.ink.bound.filter (fun x => mine.contains x.2.1)).map (·.1)
  forEach mine (forEach users d releaseUse) drainSlot

/-! ## Fills (R172) -/

/-- Clusters of an application. -/
def appClusters (d : Dev) (app : Nat) : List Nat := (partsOf d app).flatMap (fun q => [4 * q, 4 * q + 1, 4 * q + 2, 4 * q + 3])

/-- The fill an application takes next: carried ones first, in their order; else the queued ones one key slot at a time in
turn, after the key slot last served, within a key slot in claim order. -/
def nextFill (d : Dev) (app : Nat) : Option Fill :=
  let mine := d.ink.fills.filter (fun f => slotApp d f.slot == some app)
  match mine.find? (·.carried) with
  | some f => some f
  | none =>
    let last := d.ink.served.get 0 app
    let turn := fun (f : Fill) => ((slot d f.slot).key + 4096 + 4096 - last) % 4096
    mine.foldl (fun b f => match b with
      | some g => if turn f < turn g then some f else b
      | none => some f) none

def windowKey (app w : Nat) : Nat := 64 * app + w

/-- A window is given to a slot: it leaves the queue; a fill that writes both halves takes the next window too (R177). -/
def giveWindow (d : Dev) (app w s : Nat) : Dev :=
  let t := d.ink.windows.set 0 (windowKey app w) (s + 1)
  let t := if d.ink.halves.get 0 s = 3 then t.set 0 (windowKey app (w + 1)) (s + 1) else t
  { d with ink := { d.ink with windows := t, fills := d.ink.fills.filter (fun f => f.slot != s) } }

/-- The fill that a window takes, chosen when its first transfer issues; `served` names the key slot after it (DEDUCED: log entry 52). -/
def assignWindow (d : Dev) (part w : Nat) : Dev :=
  match appOfPart d part with
  | none => d
  | some app =>
    if d.ink.windows.get 0 (windowKey app w) ≠ 0 then d
    else match nextFill d app with
      | none => d
      | some f =>
        let d := giveWindow d app w f.slot
        if f.carried then d
        else { d with ink := { d.ink with served := d.ink.served.set 0 app (((slot d f.slot).key + 1) % 4096) } }

/-- A carried fill resumes in a window. -/
def resumeFill (d : Dev) (part w s : Nat) : Dev :=
  match appOfPart d part with
  | none => d
  | some app => giveWindow d app w s

/-- The slot that a planned task fills. -/
def fillOf (d : Dev) (t : TaskPlan) : Option Nat :=
  match t.fill, appOfPart d t.part with
  | some w, some app => match d.ink.windows.get 0 (windowKey app w) with
    | 0 => none
    | k + 1 => some k
  | _, _ => none

/-- Tasks of the plan in force that fill a slot. -/
def fillTasks (d : Dev) (s : Nat) : List (Nat × Task) :=
  d.frame.tasks.filterMap (fun x => match x.2 with
    | some t => if fillOf d t.plan = some s then some (x.1, t) else none
    | none => none)

/-- A transfer of a slot's fill ends SHORT: the fill ends on every cluster; it is queued again, or the slot moves to DRAINING (DEDUCED: log entry 51). -/
def fillShort (d : Dev) (s id : Nat) : Dev :=
  let d := bump d 0x3130 0x04 1
  let others := ((fillTasks d s).filter (fun x => x.1 != id && x.2.status == .live)).map (·.1)
  let d := forEach others d (fun d i => failTask d i .quiet)
  let d := cancelFill d s
  let d := { d with ink := { d.ink with windows := d.ink.windows.filter (fun x => x.2 != s + 1) } }
  let e := slot d s
  let mask := d.ink.halves.get 0 s
  if e.st = 2 then queueFill d s mask
  else if e.st ≠ 1 then d
  else
    let d := setSlot d s (setField e 53 3 (e.tries + 1))
    if d.ink.retries < e.tries + 1 then
      let d := drainSlot d s
      { d with ink := { d.ink with failed := s :: d.ink.failed } }
    else queueFill d s mask

/-- A copy of a slot's fill has completed on a cluster (R172). -/
def fillCopied (d : Dev) (c s : Nat) (v : BitVec 512) : Dev :=
  { d with ink := { d.ink with fillDone := d.ink.fillDone.modify [] s (· ++ [(c, v)]) } }

/-! ## FREE (R175) -/

/-- A transfer in flight writes the slot. -/
def slotWriting (d : Dev) (s : Nat) : Bool := d.mem.te.any (fun x => x.2.any (fun y => y.fill == some s))

/-- Bytes of the Inkstones that the stripes of a slot cover (R161). -/
def inStripes (d : Dev) (app s : Nat) (a : Nat) : Bool :=
  let parts := partsOf d app
  let p := parts.length
  let rank := (appSlots d app).idxOf s
  let base := reg d 0x3101 (app + 1) - inkBase + rank * (16384 / p)
  (appClusters d app).contains (a / inkSize) && base ≤ a % inkSize && a % inkSize < base + 16384 / p

/-- A DRAINING slot without pins and writers becomes FREE: its stripes read zero, its GENERATION stays. -/
def slotFree (d : Dev) (s : Nat) : Dev :=
  let e := slot d s
  if e.st = 3 ∧ e.pin = 0 ∧ !slotWriting d s then
    let d := match slotApp d s with
      | some app => { d with mem := { d.mem with ink := d.mem.ink.filter (fun x => !inStripes d app s x.1) } }
      | none => d
    setSlot d s (BitVec.ofNat 128 (packBits [(32, 16, e.gen), (96, 32, e.lastUse)]))
  else d

/-! ## The commands -/

def execLookup (op : VariantOp) (s : State) : Host.Outcome State Fault Refusal :=
  onDev s (fun d => lookup (atOff d op.off) op.variant)

def execClaim (op : ClaimOp) (s : State) : Host.Outcome State Fault Refusal :=
  onDevIf (op.slot < 4096 && op.key < 4096) s (fun d => claim (atOff d op.off) op.variant op.key op.slot op.gen)

def execPin (op : SlotGenOp) (s : State) : Host.Outcome State Fault Refusal :=
  onDevIf (op.slot < 4096) s (fun d => pinSlot (atOff d op.off) op.slot op.gen)

def execUnpin (op : UnpinOp) (s : State) : Host.Outcome State Fault Refusal :=
  onDevIf (op.slot < 4096) s (fun d => unpinSlot (atOff d op.off) op.slot op.variant)

def execEvict (op : SlotGenOp) (s : State) : Host.Outcome State Fault Refusal :=
  onDevIf (op.slot < 4096) s (fun d => evict (atOff d op.off) op.slot op.gen)

def execWithdraw (op : VariantOp) (s : State) : Host.Outcome State Fault Refusal :=
  onDev s (fun d => withdrawSlot (atOff d op.off) op.variant)

def execSlotFree (op : SlotOp) (s : State) : Host.Outcome State Fault Refusal :=
  onDevIf (op.slot < 4096) s (fun d => slotFree (atOff d op.off) op.slot)

/-- The procedure of R169 for a use, unless it has its slot or is under way. -/
def bindFor (d : Dev) (u : Use) (variant key app : Nat) : Dev :=
  if d.ink.binds.any (fun b => b.use == u) || d.ink.bound.any (fun x => x.1 == u) then d
  else bindPass d { use := u, variant := variant, key := key, app := app, wait := none, claims := false }

def execSlotBind (op : BindOp) (s : State) : Host.Outcome State Fault Refusal :=
  onDevIf (op.key < 4096 && op.app < 8) s (fun d => bindFor (atOff d op.off) op.use op.variant op.key op.app)

def execSlotBindResume (op : UseOp) (s : State) : Host.Outcome State Fault Refusal :=
  onDev s (fun d => bindResume (atOff d op.off) op.use)

end Sys2Proof.Machine
end

