-- ==== Sys2Proof/Machine/Transfers.lean ====
section
/-!
DEFINITION. The cluster transfer engines (R137 to R149): validity and addressing of transfer descriptors, conversion, how a
transfer runs, waits, faults, ends, is carried and resumes.
-/
namespace Sys2Proof.Machine
open Sys2Proof

/-! ## Shape and addresses (R139) -/

/-- Product of the extents of dimensions 0 to m − 1. -/
def XferDesc.extent (v : XferDesc) (m : Nat) : Nat := ((List.range m).map v.size).foldl (· * ·) 1
/-- Elements of the transfer, and of one index of dimension n. -/
def XferDesc.total (v : XferDesc) : Nat := v.extent (v.n + 1)
def XferDesc.inner (v : XferDesc) : Nat := v.extent v.n
/-- Index id of linear element x. -/
def XferDesc.coord (v : XferDesc) (x k : Nat) : Nat := x / v.extent k % v.size k
def XferDesc.srcRing (v : XferDesc) : Bool := v.opcode != 0x31 && v.srcKind == 2
def XferDesc.dstRing (v : XferDesc) : Bool := 2 ≤ v.dstKind
def XferDesc.isFill (v : XferDesc) : Bool := v.opcode == 0x31
def XferDesc.isGather (v : XferDesc) : Bool := v.opcode == 0x32

/-- Elements that move together (R143). -/
def packUnit (f : Nat) : Nat := match fmtBits f with | 4 => 2 | 6 => 4 | _ => 1
def XferDesc.unit (v : XferDesc) : Nat := if v.isFill then packUnit v.fmtDst else max (packUnit v.fmtSrc) (packUnit v.fmtDst)
/-- Bytes that n elements of a format take. -/
def bytesOf (f n : Nat) : Nat := fmtBits f * n / 8

/-- Source offset of element x over dimensions 0 to m − 1, from SRC_ADDR, a slot, or a list entry. -/
def XferDesc.srcOff (v : XferDesc) (x m : Nat) : Int :=
  ((List.range m).map (fun k =>
    let i : Int := (v.coord x k : Nat)
    if k = 0 ∧ v.strideRaw 0 = 0 then ((bytesOf v.fmtSrc (v.coord x 0) : Nat) : Int) else i * v.strideRaw k)).foldl (· + ·) 0

/-- The row pitch P, and destination offset of element x over dimensions 0 to m − 1. -/
def XferDesc.pitch (v : XferDesc) : Nat := if v.pitchRaw = 0 then bytesOf v.fmtDst (v.size 0) else 16 * v.pitchRaw
def XferDesc.dstOff (v : XferDesc) (x m : Nat) : Nat :=
  if m = 0 then 0
  else (x % v.extent m) / v.size 0 * v.pitch + bytesOf v.fmtDst (v.coord x 0)

/-- Least and greatest byte offsets of the source over dimensions 0 to m − 1: [lo, hi). -/
def XferDesc.srcSpan (v : XferDesc) (m : Nat) : Int × Int :=
  (List.range m).foldl (fun acc k =>
    let last : Int := ((v.size k - 1 : Nat) : Int)
    if k = 0 ∧ v.strideRaw 0 = 0 then (acc.1, acc.2 + ((bytesOf v.fmtSrc (v.size 0) - bytesOf v.fmtSrc (packUnit v.fmtSrc) : Nat) : Int))
    else let e := last * v.strideRaw k
      if e < 0 then (acc.1 + e, acc.2) else (acc.1, acc.2 + e))
    ((0 : Int), ((bytesOf v.fmtSrc (packUnit v.fmtSrc) : Nat) : Int))
/-- Length in bytes of the destination over dimensions 0 to m − 1. -/
def XferDesc.dstSpan (v : XferDesc) (m : Nat) : Nat :=
  if m = 0 then bytesOf v.fmtDst (packUnit v.fmtDst)
  else (v.extent m / v.size 0 - 1) * v.pitch + bytesOf v.fmtDst (v.size 0)

/-! ## Validity (R140, R142) -/

/-- Conversions of R140. -/
def convOk (s t : Nat) : Bool :=
  s == t || (s ≤ 2 && t ≤ 2) || (3 ≤ s && s ≤ 9 && t ≤ 2)

/-- A span of bytes from an operand-space address lies in R39; bits above [28:0] are reserved. -/
def spanOk (a : Nat) (lo hi : Int) : Bool :=
  let o : Int := (xferOff a : Nat)
  a < 2 ^ 29 && 0 ≤ o + lo && runOk (o + lo).toNat (hi - lo).toNat

def xferControl (d : Dev) (c a : Nat) (n : Nat) : Bool := hitsControl d (xferHearth c a) (xferOff a) n

/-- A transfer descriptor is valid on cluster c (R142). -/
def xferOk (d : Dev) (c : Nat) (v : XferDesc) : Bool :=
  let packed := fun f => packUnit f != 1
  let fitsS0 := fun f => v.size 0 % packUnit f == 0
  let ring := bring d c v.ring
  (v.opcode == 0x30 || v.opcode == 0x31 || v.opcode == 0x32) && v.srcKind ≤ 2 && v.n ≤ 4 &&
  field v 23 9 == 0 && field v 60 4 == 0 && field v 488 24 == 0 && v.total ≤ 2 ^ 40 &&
  (v.isFill || convOk v.fmtSrc v.fmtDst) && (v.isFill || fitsS0 v.fmtSrc) && fitsS0 v.fmtDst &&
  (v.strideRaw 0 == 0 || !((!v.isFill && packed v.fmtSrc) || packed v.fmtDst)) &&
  (!v.isFill || v.srcKind == 0) && (!v.isGather || (1 ≤ v.n && v.srcKind ≤ 1)) &&
  !(v.srcKind == 2 && v.dstRing) && ((v.srcKind != 2 && v.dstKind != 2) || ring.enabled) &&
  (v.skip == 0 || v.dstKind == 3) &&
  -- the source side
  (v.isFill ||
    (if v.isGather then spanOk v.src 0 ((8 * v.size v.n : Nat) : Int)
     else match v.srcKind with
      | 0 => let (lo, hi) := v.srcSpan (v.n + 1); 0 ≤ (v.src : Int) + lo && (v.src : Int) + hi ≤ (2 ^ 48 : Nat)
      | 1 => let (lo, hi) := v.srcSpan (v.n + 1); spanOk v.src lo hi
      | _ => let (lo, hi) := v.srcSpan v.n; v.src == 0 && 0 ≤ lo && hi ≤ (ring.slotBytes : Int))) &&
  -- the destination side
  (match v.dstKind with
   | 0 => v.dst + v.dstSpan (v.n + 1) ≤ 2 ^ 48
   | 1 => spanOk v.dst 0 (v.dstSpan (v.n + 1) : Nat) && !xferControl d c v.dst (v.dstSpan (v.n + 1))
   | 2 => v.dst == 0 && v.dstSpan v.n ≤ ring.slotBytes
   | _ => v.dst < 2 ^ 30)

/-! ## Accesses (R124 to R128, R145) -/

/-- An operand-space address of logical Hearth h lies in a Well whose Hearth is under its reset proper: the Hearth's network
interface answers TARGET_RESET (R456). -/
def opReset (d : Dev) (h a : Nat) : Bool :=
  a < wellSize && d.pow.resets.any (fun r => r.phase == .under && (match r.scope with
    | .hearth n => d.pow.map.get none h == some n
    | _ => false))

/-- What an access meets. -/
inductive Access1 where
  | bytes (bs : List Byte)
  | done
  | fault (cause dva : Nat)
  /-- A remote granule is still to come. -/
  | pend
  deriving DecidableEq, Repr

/-- The cause that translation finds, in the order of R145: 0 none. -/
def pteCause (d : Dev) (e : Pte) (write : Bool) : Nat :=
  if !e.valid ∨ (!e.remote ∧ !frameUsable d e.pfn) then 1
  else if write ∧ !e.write then 2
  else if write ∧ e.migrating then 3
  else 0

def xferPte (d : Dev) (part dva : Nat) : Pte :=
  match appOfPart d part with
  | none => 0
  | some a => pte d a (dva / frameSize)

/-- Translation of the bytes [dva, dva + n): an element that straddles a page belongs to the later one (R143). -/
def translateRun (d : Dev) (part dva n : Nat) (write : Bool) : Option (Nat × Nat) :=
  let last := dva + n - 1
  let c2 := pteCause d (xferPte d part last) write
  if c2 ≠ 0 then some (c2, if last / frameSize = dva / frameSize then dva else last / frameSize * frameSize)
  else
    let c1 := pteCause d (xferPte d part dva) write
    if c1 ≠ 0 then some (c1, dva) else none

/-- The granules of the bytes [dva, dva + n), as granules of the address space. -/
def dvaGrans (dva n : Nat) : List Nat :=
  (List.range ((dva + n - 1) / granSize - dva / granSize + 1)).map (dva / granSize + ·)

/-- The granule on this device that a granule of the address space is. -/
def localGran (e : Pte) (g : Nat) : Nat := e.pfn * 8192 + g % 8192

/-- The transfer's own copy of a remote granule. -/
def gotGran (x : Xfer) (g : Nat) : Option (List Byte) := (x.got.find? (fun y => y.1 == g)).map (·.2)

/-- Read n bytes at a device virtual address. -/
def readDva (d : Dev) (x : Xfer) (dva n : Nat) : Access1 :=
  match translateRun d x.part dva n false with
  | some (c, a) => .fault c a
  | none =>
    let gs := dvaGrans dva n
    let remote := gs.filter (fun g => (xferPte d x.part (g * granSize)).remote)
    if remote.any (fun g => (gotGran x g).isNone) then .pend
    else
      match gs.find? (fun g =>
          let e := xferPte d x.part (g * granSize)
          !e.remote && !granReads d (localGran e g) (e.key + 2)) with
      | some g => .fault 6 (max dva (g * granSize))
      | none =>
        .bytes ((List.range n).map (fun k =>
          let a := dva + k
          let e := xferPte d x.part a
          if e.remote then (((gotGran x (a / granSize)).getD [])[a % granSize]?).getD 0
          else d.mem.ddr.get 0 (ddrAddr e.pfn (a % frameSize))))

/-- The byte run around a destination offset that one transfer writes without a gap: rows packed end to end, or one row. -/
def XferDesc.dstRun (v : XferDesc) (o m : Nat) : Nat × Nat :=
  let row := bytesOf v.fmtDst (v.size 0)
  if v.pitch = row then (0, v.dstSpan m) else (o / v.pitch * v.pitch, o / v.pitch * v.pitch + row)

/-- Write bytes at a local device virtual address; `lo`, `hi`: the run of bytes that the transfer writes around them, which
tells a whole granule's write from a part's (R129, R365). -/
def writeDva (d : Dev) (part dva : Nat) (bs : List Byte) (lo hi : Nat) : Dev × Option (Nat × Nat) :=
  let key := fun g => (xferPte d part (g * granSize)).key + 2
  let whole := fun g => lo ≤ g * granSize && (g + 1) * granSize ≤ hi
  match (dvaGrans dva bs.length).find? (fun g =>
      let e := xferPte d part (g * granSize)
      treeFailed d e.pfn || (!whole g && !granReads d (localGran e g) (key g))) with
  | some g => (d, some (6, max dva (g * granSize)))
  | none =>
    let d := forEach ((dvaGrans dva bs.length).filter whole) d (fun d g =>
      granWhole d (localGran (xferPte d part (g * granSize)) g) (key g))
    (forEach bs.zipIdx d (fun d y =>
      let a := dva + y.2
      let e := xferPte d part a
      { d with mem := { d.mem with ddr := d.mem.ddr.set 0 (ddrAddr e.pfn (a % frameSize)) y.1 } }), none)

/-! ## The engine's queue -/

/-- The executing transfer leaves the engine; the staged one executes. -/
def teNext (d : Dev) (c : Nat) : Dev :=
  match (teQueue d c).tail with
  | [] => setTe d c []
  | y :: r =>
    let y := { y with st := 2 }
    recordXfer (setTe d c (y :: r)) y

/-- The executing transfer ends SHORT (R148) (DESIGN CHOICE: log entry 42). -/
def shortXfer (d : Dev) (c : Nat) (x : Xfer) : Dev :=
  let v : XferDesc := x.desc
  let d := teNext (recordXfer (headBack d x) { x with st := 6 }) c
  let d := bumpPart d 0x2051 x.part 1
  let d := raiseReport d (partSrc x.part (12 + c % 4)) 0
    (BitVec.ofNat 512 (packBits [(0, 40, x.cursor), (40, 16, v.tag), (56, 8, x.cause)]))
  let d := if v.sigEn then poisonSem d c v.sigSem else d
  let d := if v.dstKind = 2 then
      let r := bring d c v.ring
      poisonSem (setBring d c v.ring (setField r 74 1 1)) c r.full
    else d
  let d := match x.fill with
    | some n => fillShort d n x.task
    | none => d
  failTask d x.task .quiet

/-- The causes that end a transfer at once (R145, R147): a device declared lost answers no more. -/
def unresolvable (d : Dev) (x : Xfer) (cause : Nat) : Bool :=
  cause == 2 || cause == 5 || cause == 6 || cause == 7 ||
    (cause == 4 && d.lig.lost.contains (xferPte d x.part x.dva).device)

/-- The executing transfer faults at its cursor; HEAD of its stream's ring lies at it again (R146). -/
def faultXfer (d : Dev) (c : Nat) (x : Xfer) (cause dva : Nat) : Dev :=
  let x := { x with st := 4, cause := cause, dva := dva, got := [], acked := [], waits := [], run := [], ahead := streamHead d x.stream }
  let d := setStreamHead (recordXfer (setTeHead d c x) x) x.stream x.head
  let d := bumpPart d 0x2050 x.part 1
  let d := raise d (partSrc x.part (8 + c % 4)) cause (XferDesc.tag x.desc)
  if unresolvable d x cause then shortXfer d c x else d

/-- A local uncorrectable granule is counted at its channel; the transfer faults. -/
def faultLocal (d : Dev) (c : Nat) (x : Xfer) (cause dva : Nat) : Dev :=
  let e := xferPte d x.part dva
  let d := if cause = 6 ∧ !e.remote then
      let d := memError d x.part (localGran e (dva / granSize))
      { d with mem := { d.mem with dataLost := d.mem.dataLost ++ [((appOfPart d x.part).getD 0, dva, e.key)] } }
    else d
  faultXfer d c x cause dva

/-- The executing transfer completes: SIG_SEM, its task's count, and the next transfer (R143). -/
def completeXfer (d : Dev) (c : Nat) (x : Xfer) : Dev :=
  let v : XferDesc := x.desc
  let d := teNext (recordXfer d { x with st := 5 }) c
  let d := x.fill.elim d (fun n => fillCopied d c n x.desc)
  let d := signal d c x.task v.sigEn v.sigSem
  completeOne d x.task (engTe c)

/-- CLASS of a task's messages (R277). -/
def clsCode (d : Dev) (id : Nat) : Nat :=
  match task d id with
  | some t => match t.plan.cls with
    | .decode => 0
    | .training => 1
    | .housekeeping => 2
  | none => 2

/-! ## Remote granules (R128, R280) -/

/-- Send a request for one granule and wait for its answer (DEDUCED: log entry 44). -/
def askRemote (d : Dev) (c : Nat) (x : Xfer) (g : Nat) (write : Option (List Byte)) : Dev :=
  let e := xferPte d x.part (g * granSize)
  let tag := d.mem.nextTag
  let addr := ddrAddr e.pfn (g % 8192 * granSize)
  let app := (appOfPart d x.part).getD 0
  let m : Msg :=
    { kind := if write.isSome then 0x11 else 0x10, vc := 1,
      cls := clsCode d x.task,
      dstUnit := e.pfn / 524288, dstDevice := e.device, srcDevice := reg d 0x4001 0x00, srcUnit := x.part, tag := tag,
      hops := 15, epoch := reg d 0x4001 0x01, stamp := d.mem.sysApp.get 0 app, addr := addr, seg := 0, segs := 1, arg := 1,
      body := write.getD [] }
  let w : RemoteWait := ⟨tag, g, e.device, addr, write.isSome, c, now d⟩
  let d := { d with mem := { d.mem with remote := d.mem.remote ++ [w], nextTag := (tag + 1) % 65536 } }
  setTeHead (sendMsg d m .tag) c { x with waits := x.waits ++ [g] }

/-- Ask for the granules among `gs` that are neither here nor asked for. -/
def askMissing (d : Dev) (c : Nat) (x : Xfer) (gs : List Nat) : Dev :=
  forEach (gs.filter (fun g => (xferPte d x.part (g * granSize)).remote && (gotGran x g).isNone && !x.waits.contains g)) d
    (fun d g => match (teQueue d c).head? with
      | some y => askRemote d c y g none
      | none => d)

/-! ## Buffer rings elsewhere (R137, R281) -/

/-- A cluster lies in a unit under its reset proper: its network interfaces answer in its place (R456). -/
def clusterReset (d : Dev) (c : Nat) : Bool :=
  d.pow.resets.any (fun r => r.phase == .under && (r.scope == .cluster c || r.scope == .partition (c / 4)))

/-- A slot that arrives for a buffer ring of this device: accepted before its stamped edge into a carried ring with a free
slot, and published; else dropped, counted and raised. The second part tells whether it was accepted. -/
def acceptSlot (d : Dev) (c r stamp : Nat) (bytes : List Byte) : Dev × Bool :=
  let x := bring d c r
  let drop := (raise (bumpPart d 0x2053 (partOfCluster c) 1) (partSrc (partOfCluster c) 18) 0 (c * 64 + r), false)
  if clusterReset d c ∨ opReset d (8 * c + x.wellHearth) x.base ∨ stamp ≤ d.frame.no ∨ !x.enabled ∨ !x.carry ∨ sem d c x.empty = 0 ∨ x.slotBytes < bytes.length then drop
  else
    let h := 8 * c + x.wellHearth
    let d1 := setSem d c x.empty (sem d c x.empty - 1)
    let d1 := opPutAll d1 h (x.base + x.tail * x.slotBytes) bytes
    match ringPublish d1 c r 1 with
    | .error _ => drop
    | .ok d2 => ({ d2 with mem := { d2.mem with stamps := d2.mem.stamps.modify [] (64 * c + r) (· ++ [stamp]) } }, true)

/-- A remote ring name's ring on its device: cluster and ring (R139). -/
def nameRing (a : Nat) : Nat × Nat := (4 * (a / 2 ^ 18 % 8) + a / 2 ^ 21 % 4, a / 2 ^ 23 % 64)

/-- The bytes of an outgoing slot; a byte that no element wrote is a free value. -/
def slotBytesOf (d : Dev) (buf : Table Byte) (n : Nat) : List Byte :=
  (List.range n).map (fun k => match (buf.find? (fun y => y.1 == k)) with
    | some y => y.2
    | none => Config.freeByte (d.fresh + k))

/-- The fabric takes a finished slot: RING_SLOT messages of at most 4,096 bytes, or a delivery on this device (DESIGN CHOICE: log
entry 45). The stamp is that of the frame in which its first segment is sent, plus 1, plus STAMP_SKIP (R137). -/
def sendSlot (d : Dev) (x : Xfer) : Dev :=
  let v : XferDesc := x.desc
  let n := v.dstSpan v.n
  let bytes := slotBytesOf d x.slotBuf n
  let d := { d with fresh := d.fresh + n }
  let (c, r) := nameRing v.dst
  let stamp := d.frame.no + 1 + v.skip
  if bit v.dst 29 ∨ v.dst % 2 ^ 18 = reg d 0x4001 0x00 then (acceptSlot d c r stamp bytes).1
  else
    let segs := (n + 4095) / 4096
    let d := match task d x.task with
      | some t => { d with lig := { d.lig with sent := d.lig.sent ++ [⟨v.dst, stamp, t.plan, sentChunk d t.plan, sentTries d t.plan v.dst, stamp + 1⟩] } }
      | none => d
    sendSlotMsgs d (v.dst % 2 ^ 18) ((List.range segs).map (fun k =>
      { kind := 0x20, vc := 3,
        cls := clsCode d x.task,
        dstUnit := c / 4, dstDevice := v.dst % 2 ^ 18, srcDevice := reg d 0x4001 0x00, srcUnit := x.part, tag := 0,
        hops := 15, epoch := reg d 0x4001 0x01, stamp := stamp, addr := v.dst, seg := k, segs := segs, arg := 0,
        body := (bytes.drop (4096 * k)).take 4096 }))

/-! ## One unit of elements (R139 to R141, R143) -/

/-- Conversion of a unit's source bytes (R140). -/
def convertUnit (s t n : Nat) (bs : List Byte) : List Byte :=
  if s = t then bs
  else
    let v := leNat bs
    let codes := (List.range n).map (fun k => (v >>> (fmtBits s * k)) % 2 ^ fmtBits s)
    let enc := fun c => match t with
      | 0 => fp32.round (elemValue s c)
      | 1 => bf16.round (elemValue s c)
      | _ => fp16.round (elemValue s c)
    codes.flatMap (fun c => leBytes (fmtBits t / 8) (enc c))

/-- The bytes that FILL writes for a unit (R141). -/
def fillUnit (v : XferDesc) : List Byte :=
  let b := fmtBits v.fmtDst
  packElems v.fmtDst (List.replicate (packUnit v.fmtDst) (v.src % 2 ^ 32 % 2 ^ b))

/-- Bytes of the operand space of a cluster at a transfer's operand-space address. -/
def readOp (d : Dev) (c a n : Nat) : List Byte := opBytes d (xferHearth c a) (xferOff a) n

/-- The list entry of GATHER for the index that element x belongs to. -/
def gatherEntry (d : Dev) (c : Nat) (v : XferDesc) (x : Nat) : Nat := leNat (readOp d c (v.src + 8 * v.coord x v.n) 8)

/-- An operand-space list entry, with every element address of its index, lies in R39 (R141). -/
def gatherOk (v : XferDesc) (e : Nat) : Bool :=
  let (lo, hi) := v.srcSpan v.n
  spanOk e lo hi

/-- Bytes for a transfer, or the answer of a Hearth under reset: such an access has no DVA (DESIGN CHOICE: log entry 134). -/
def readOpAt (d : Dev) (h a n : Nat) : Access1 := if opReset d h a then .fault 7 0 else .bytes (opBytes d h a n)

/-- The GATHER list lies in a Well whose Hearth is under reset. -/
def listReset (d : Dev) (c : Nat) (v : XferDesc) : Bool :=
  v.isGather && opReset d (xferHearth c v.src) (xferOff v.src)

/-- Read n bytes at an address formed from a list entry and signed strides: one outside the 2^48 bytes of the address space names no
page, and faults as an absent one (R141) (DEDUCED: log entry 157). -/
def readDvaAt (d : Dev) (x : Xfer) (a : Int) (n : Nat) : Access1 :=
  if a < 0 ∨ (2 ^ 48 : Int) < a + n then .fault 1 (a % 2 ^ 48).toNat else readDva d x a.toNat n

/-- Read and convert the unit at the cursor. -/
def readUnit (d : Dev) (c : Nat) (x : Xfer) : Access1 :=
  let v : XferDesc := x.desc
  let u := v.unit
  let n := bytesOf v.fmtSrc u
  if v.isFill then .bytes (fillUnit v)
  else
    let conv := fun (a : Access1) => match a with
      | .bytes bs => Access1.bytes (convertUnit v.fmtSrc v.fmtDst u bs)
      | a => a
    if listReset d c v then .fault 7 0
    else if v.isGather then
      let e := gatherEntry d c v x.cursor
      if e = 2 ^ 64 - 1 then .bytes (List.replicate (bytesOf v.fmtDst u) 0)
      else
        let a := (e : Int) + v.srcOff x.cursor v.n
        if v.srcKind = 0 then conv (readDvaAt d x a n) else conv (readOpAt d (xferHearth c a.toNat) (xferOff a.toNat) n)
    else match v.srcKind with
      | 0 => conv (readDva d x ((v.src : Int) + v.srcOff x.cursor (v.n + 1)).toNat n)
      | 1 =>
        let a := ((v.src : Int) + v.srcOff x.cursor (v.n + 1)).toNat
        conv (readOpAt d (xferHearth c a) (xferOff a) n)
      | _ =>
        let r := bring d c v.ring
        conv (readOpAt d (8 * c + r.wellHearth) (r.base + r.head * r.slotBytes + (v.srcOff x.cursor v.n).toNat) n)

/-- The unit's slot is finished when the next element has another index of dimension n: it is published, released or sent. -/
def finishIndex (d : Dev) (c : Nat) (x : Xfer) : Dev × Option FailKind :=
  let v : XferDesc := x.desc
  if x.cursor % v.inner ≠ 0 then (setTeHead d c x, none)
  else
    let x := { x with inSlot := false }
    if v.srcRing then
      match ringRelease (setTeHead d c x) c v.ring 1 with
      | .ok d => (d, none)
      | .error k => (d, some k)
    else match v.dstKind with
      | 2 => match ringPublish (setTeHead d c x) c v.ring 1 with
        | .ok d => (d, none)
        | .error k => (d, some k)
      | 3 => (sendSlot (setTeHead d c { x with slotBuf := [] }) x, none)
      | _ => (setTeHead d c x, none)

/-- The remote granules [g] that a run of units from the cursor fills: the run's units and the granules it touches. -/
def remoteRun (v : XferDesc) (x o : Nat) : Nat × List Nat :=
  let w := bytesOf v.fmtDst v.unit
  let a := v.dst + o
  let leftRow := (v.size 0 - v.coord x 0) / v.unit
  let k := max 1 (min leftRow ((granSize - a % granSize) / w))
  (k, dvaGrans a (k * w))

/-- Destination bytes of at most k units from the cursor on: of those before the first that faults or still waits. -/
def readUnits (d : Dev) (c : Nat) (x : Xfer) : Nat → List Byte
  | 0 => []
  | k + 1 =>
    match readUnit d c x with
    | .bytes bs => bs ++ readUnits d c { x with cursor := x.cursor + XferDesc.unit x.desc } k
    | _ => []

/-- Merge bytes at an address into a granule. -/
def mergeGran (old : List Byte) (g a : Nat) (bs : List Byte) : List Byte :=
  (List.range granSize).map (fun k =>
    let p := g * granSize + k
    if a ≤ p ∧ p < a + bs.length then (bs[p - a]?).getD 0 else (old[k]?).getD 0)

/-- The DVA granules that the source of the unit at the cursor reads. -/
def srcGrans (d : Dev) (c : Nat) (x : Xfer) : List Nat :=
  let v : XferDesc := x.desc
  let n := bytesOf v.fmtSrc v.unit
  if v.isFill ∨ v.srcKind ≠ 0 then []
  else if v.isGather then
    (if gatherEntry d c v x.cursor = 2 ^ 64 - 1 then [] else dvaGrans ((gatherEntry d c v x.cursor : Int) + v.srcOff x.cursor v.n).toNat n)
  else dvaGrans ((v.src : Int) + v.srcOff x.cursor (v.n + 1)).toNat n

/-- Write the bytes of a run at `a` that lie on pages of this device: [a + lo, a + lo + …) part by part. -/
def writeLocals (d : Dev) (part a : Nat) (bs : List Byte) : Dev × Option (Nat × Nat) :=
  (dvaGrans a bs.length).foldl (fun (r : Dev × Option (Nat × Nat)) g =>
    if r.2.isSome || (xferPte d part (g * granSize)).remote then r
    else
      let lo := max a (g * granSize)
      let hi := min (a + bs.length) ((g + 1) * granSize)
      writeDva r.1 part lo ((bs.drop (lo - a)).take (hi - lo)) lo hi) (d, none)

/-- The remote writes of a run are all acknowledged: what of it lies here is written, and the cursor moves past it. -/
def runWritten (d : Dev) (c : Nat) (x : Xfer) (a : Nat) : Dev × Bool :=
  match writeLocals d x.part a x.run with
  | (d, some (cz, f)) => (faultLocal d c x cz f, false)
  | (d, none) =>
    let gs := dvaGrans a x.run.length
    let (d, f) := finishIndex d c { landed x with acked := [], got := x.got.filter (fun y => !gs.contains y.1) }
    match f with
    | some e => (failTask d x.task e, false)
    | none => (d, true)

/-- Write a unit of which a byte lies on a remote page, with those that follow it in its granule: whole granules go out as WRITE_REQ,
and the cursor moves when they are acknowledged (R128, R143). -/
def writeRemote (d : Dev) (c : Nat) (x : Xfer) (o : Nat) : Dev × Bool :=
  let v : XferDesc := x.desc
  let a := v.dst + o
  let bs := if x.run.isEmpty then readUnits d c x (remoteRun v x.cursor o).1 else x.run
  let gs := (dvaGrans a bs.length).filter (fun g => (xferPte d x.part (g * granSize)).remote)
  if !x.run.isEmpty ∧ gs.all (fun g => x.acked.contains g) then runWritten d c x a
  else
    let part := gs.filter (fun g => !(a ≤ g * granSize && (g + 1) * granSize ≤ a + bs.length))
    if part.any (fun g => (gotGran x g).isNone) then (askMissing d c x part, false)
    else match writeLocals d x.part a bs with
      | (_, some (cz, f)) => (faultLocal d c x cz f, false)
      | (_, none) =>
        (forEach (gs.filter (fun g => !x.acked.contains g && !x.waits.contains g)) (setTeHead d c { x with run := bs }) (fun d g =>
          match (teQueue d c).head? with
          | some y => askRemote d c y g (some (mergeGran ((gotGran y g).getD []) g a bs))
          | none => d), false)

/-- A cluster's TE has translated the pages of granules. -/
def cacheGrans (d : Dev) (c part : Nat) (gs : List Nat) : Dev :=
  match appOfPart d part with
  | none => d
  | some a => forEach (gs.map (· * granSize / frameSize)).eraseDups d (fun d p => cachePage d a c p)

/-- Move the unit at the cursor of the executing transfer, its ring slot taken: the device after it, and whether it may go on. The
source is read first: where both sides of a unit would fault, the source's fault is the one taken (DESIGN CHOICE: log entry 159). -/
def moveUnit (d : Dev) (c : Nat) (x : Xfer) : Dev × Bool :=
  let v : XferDesc := x.desc
  if !x.run.isEmpty then writeRemote d c x (v.dstOff x.cursor (v.n + 1)) else
  let d := cacheGrans d c x.part (srcGrans d c x)
  let badEntry := v.isGather && v.srcKind == 1 && !listReset d c v &&
    (let e := gatherEntry d c v x.cursor; e != 2 ^ 64 - 1 && !gatherOk v e)
  if badEntry then (failTask (setTeHead d c x) x.task .descInvalid, false)
  else match readUnit d c x with
  | .pend => (askMissing d c x (srcGrans d c x), false)
  | .fault cz a => (faultLocal d c x cz a, false)
  | .done => (d, false)
  | .bytes bs =>
    let m := if v.dstRing then v.n else v.n + 1
    let o := v.dstOff x.cursor m
    let adv := { x with cursor := x.cursor + v.unit }
    let go := fun (r : Dev × Option FailKind) => match r.2 with
      | some e => (failTask r.1 x.task e, false)
      | none => (r.1, true)
    match v.dstKind with
    | 0 =>
      let a := v.dst + o
      let d := cacheGrans d c x.part (dvaGrans a bs.length)
      match translateRun d x.part a bs.length true with
      | some (cz, f) => (faultLocal d c x cz f, false)
      | none =>
        if (dvaGrans a bs.length).any (fun g => (xferPte d x.part (g * granSize)).remote) then writeRemote d c x o
        else
          let (lo, hi) := v.dstRun o m
          match writeDva d x.part a bs (v.dst + lo) (v.dst + hi) with
          | (d, some (cz, f)) => (faultLocal d c x cz f, false)
          | (d, none) => go (finishIndex d c { adv with got := if adv.got.length ≤ 2 then adv.got else adv.got.drop 1 })
    | 1 =>
      if opReset d (xferHearth c v.dst) (xferOff v.dst) then (faultLocal d c x 7 0, false)
      else go (finishIndex (opPutAll d (xferHearth c v.dst) (xferOff v.dst + o) bs) c adv)
    | 2 =>
      let r := bring d c v.ring
      if opReset d (8 * c + r.wellHearth) r.base then (faultLocal d c x 7 0, false)
      else go (finishIndex (opPutAll d (8 * c + r.wellHearth) (r.base + r.tail * r.slotBytes + o) bs) c adv)
    | _ => go (finishIndex d c { adv with slotBuf := bs.zipIdx.foldl (fun t y => t.put (o + y.2) y.1) adv.slotBuf })

/-- Take the ring slot of a new index of dimension n (R135); a wait on a poisoned semaphore fails the task (R132). -/
def takeSlot (d : Dev) (c : Nat) (x : Xfer) : Option (Dev × Xfer) × Dev :=
  let v : XferDesc := x.desc
  if x.inSlot then (some (d, x), d)
  else if v.srcRing ∨ v.dstKind = 2 then
    let r := bring d c v.ring
    let n := if v.srcRing then r.full else r.empty
    if poisoned d c n then (none, failTask d x.task (.xferShort c))
    else if sem d c n = 0 then
      let x := { x with st := 3 }
      (none, recordXfer (setTeHead d c x) x)
    else
      let x := { x with st := 2, inSlot := true }
      let d := setTeHead (setSem d c n (sem d c n - 1)) c x
      (some (d, x), d)
  else if v.dstKind = 3 then
    let x := { x with inSlot := true, slotBuf := [] }
    let d := setTeHead d c x
    (some (d, x), d)
  else (some (d, x), d)

/-- The executing transfer goes on in its task's window: one unit, or its completion (R33). -/
def teStep (d : Dev) (c limit : Nat) : Dev × Bool :=
  match (teQueue d c).head? with
  | none => (d, false)
  | some x =>
    let v : XferDesc := x.desc
    if (x.st ≠ 2 ∧ x.st ≠ 3) ∨ limit ≤ x.cursor ∨ !inWindow d x.task (engTe c) d.frame.off then (d, false)
    else if v.total ≤ x.cursor then (completeXfer d c x, false)
    else match takeSlot d c x with
      | (none, d) => (d, false)
      | (some (d, x), _) => moveUnit d c x

/-- It goes on as far as it can, up to element `limit`. -/
def teRun (c limit : Nat) : Nat → Dev → Dev
  | 0, d => d
  | n + 1, d =>
    let (d, more) := teStep d c limit
    if more then teRun c limit n d else d

/-- Units still to come, and the completion. -/
def teFuel (d : Dev) (c : Nat) : Nat :=
  match (teQueue d c).head? with
  | some x => XferDesc.total x.desc - x.cursor + 2
  | none => 0

def teGo (d : Dev) (c limit : Nat) : Dev :=
  let d := teRun c limit (teFuel d c) d
  match (teQueue d c).head? with
  | some x => recordXfer d x
  | none => d

/-! ## Issue, faults, carry (R143 to R149) -/

/-- A transfer descriptor at its stream's head (R49, R143). -/
def xferStep (d : Dev) (s : Nat) (v : XferDesc) : Dev :=
  match atHead d s with
  | none => d
  | some (id, t) =>
    let c := clusterOfStream s
    if !windowOpen t (engTe c) d.frame.off then d
    else if !xferOk d c v then failTask d id .descInvalid
    else if t.plan.fill.isSome && (fillOf (assignWindow d t.plan.part (t.plan.fill.getD 0)) t.plan).isNone then d
    else match waitOne d c v.waitEn v.waitSem with
      | .poison => failTask d id (.xferShort c)
      | .wait => d
      | .go d1 =>
        if 2 ≤ (teQueue d c).length then d
        else
          let d := match t.plan.fill with
            | some w => assignWindow d1 t.plan.part w
            | none => d1
          let x : Xfer := { desc := v, task := id, stream := s, part := t.plan.part, cursor := 0,
                            st := if (teQueue d c).isEmpty then 2 else 1, cause := 0, dva := 0, inSlot := false,
                            slotBuf := [], got := [], acked := [], waits := [], run := [],
                            fill := fillOf d t.plan, frame := d.frame.no, head := ringHead (ring d (stream d s).ring), ahead := 0 }
          issueOne (recordXfer (setTe d c (teQueue d c ++ [x])) x) id s (engTe c) true

/-- The access of an element meets a physical cause (R145): every element below it is moved first. -/
def xferFault (d : Dev) (c elem cause : Nat) : Dev :=
  let d := teGo d c elem
  match (teQueue d c).head? with
  | none => d
  | some x =>
    let v : XferDesc := x.desc
    if x.cursor ≠ elem ∨ (x.st ≠ 2 ∧ x.st ≠ 3) ∨ !(4 ≤ cause && cause ≤ 7) ∨ v.total ≤ elem then d
    else
      let read := !v.isFill && v.srcKind == 0
      let a := if !read then v.dst + v.dstOff elem (v.n + 1)
        else if v.isGather then (((gatherEntry d c v elem : Int) + v.srcOff elem v.n) % 2 ^ 48).toNat
        else ((v.src : Int) + v.srcOff elem (v.n + 1)).toNat
      if !read ∧ v.dstKind ≠ 0 then d else faultLocal d c x cause a

/-- RESUME or ABANDON of a stream's transfer (R147). -/
def resumeXfer (d : Dev) (c s : Nat) (abandon : Bool) : Dev :=
  let ignored := bumpPart d 0x2056 (partOfCluster c) 1
  match (teQueue d c).head? with
  | some x =>
    if x.stream = s ∧ x.st = 4 then
      if abandon then shortXfer d c x else resumeHead d c x
    else carried ignored
  | none => carried ignored
where
  /-- RESUME is accepted of a carried transfer whose fault is pending (R149). -/
  carried (ignored : Dev) : Dev :=
    let q := d.mem.carriedX.get [] c
    if !abandon ∧ q.any (fun x => x.stream == s && x.cause != 0) then
      { d with mem := { d.mem with
        carriedX := d.mem.carriedX.set [] c (q.map (fun x => if x.stream = s then { x with cause := 0, dva := 0 } else x)) } }
    else ignored

/-- A housekeeping transfer stops at its window's close and is carried (R149). -/
def carryXfer (d : Dev) (c : Nat) (x : Xfer) : Dev :=
  let d := headBack d x
  let x := { x with st := 8, got := [], acked := [], waits := [] }
  let d := recordXfer d x
  { d with mem := { d.mem with carriedX := d.mem.carriedX.modify [] c (· ++ [x]) } }

/-- The executing transfer of a task stops: what its remote writes carried is delivered, with the ring slot that they finished. -/
def landHead (d : Dev) (id c : Nat) : Dev :=
  match (teQueue d c).head? with
  | some x => if x.task = id ∧ !x.run.isEmpty then (finishIndex d c (landed x)).1 else d
  | none => d

/-- The transfers of a task whose window on a TE closes: carried if housekeeping, else CUT (R149) (DEDUCED: log entry 46). -/
def closeXfers (d : Dev) (id c : Nat) : Dev :=
  match clsCode d id with
  | 2 =>
    let d := landHead d id c
    let q := teQueue d c
    let d := forEach (q.filter (·.task == id)) d (fun d x => carryXfer d c x)
    setTe d c (q.filter (fun x => !(x.task == id)))
  | _ => cutTask d id c

/-- The task of a fill window that takes a carried fill on a cluster: its window is open and no other fill has it (R172). -/
def fillHost (d : Dev) (c n : Nat) : Option (Nat × Task) :=
  (d.frame.tasks.filterMap (fun y => y.2.map (fun t => (y.1, t)))).find? (fun y =>
    y.2.status == .live && windowOpen y.2 (engTe c) d.frame.off && y.2.plan.fill.isSome && y.2.order.isEmpty &&
      (fillOf d y.2.plan).all (· == n))

/-- A carried fill goes on in a fill window: the window's task takes over the carried work and its transfers. -/
def hostFill (d : Dev) (c n : Nat) (x : Xfer) : Dev :=
  match fillHost d c n, d.frame.carry.find? (fun k => k.frame == x.frame && k.id == x.task) with
  | some (id, t), some k =>
    let d := resumeFill d t.plan.part (t.plan.fill.getD 0) n
    let d := setTask d id (resumeTask t k ((resumePoints k).headD 0))
    let d := { d with frame := { d.frame with carry := d.frame.carry.filter (fun y => y != k) } }
    let d := { d with mem := { d.mem with carriedX := d.mem.carriedX.mapVals [] (fun l => l.map (fun y =>
      if y.task = x.task ∧ y.frame = x.frame then { y with task := id, frame := d.frame.no } else y)) } }
    if streamTask d t.plan.stream = some id then seekStream d t.plan.stream else d
  | _, _ => d

/-- A carried transfer resumes from its cursor when its next window opens, its fault resolved (R149). -/
def resumeCarried (d : Dev) (c : Nat) : Dev :=
  let d := match (d.mem.carriedX.get [] c).head? with
    | some x => if x.frame = d.frame.no then d else x.fill.elim d (fun n => hostFill d c n x)
    | none => d
  match d.mem.carriedX.get [] c with
  | [] => d
  | x :: r =>
    match task d x.task with
    | none => d
    | some t =>
      if x.frame ≠ d.frame.no ∨ t.status ≠ .live ∨ !windowOpen t (engTe c) d.frame.off ∨ x.cause ≠ 0 ∨ 2 ≤ (teQueue d c).length then d
      else
        let x := { x with st := if (teQueue d c).isEmpty then 2 else 1 }
        let d := { d with mem := { d.mem with carriedX := d.mem.carriedX.set [] c r } }
        recordXfer (setTe d c (teQueue d c ++ [x])) x

/-! ## The commands -/

def execCopy (op : Desc64Op) (s : State) : Host.Outcome State Fault Refusal :=
  onDevIf (streamOk op.stream) s (fun d => xferStep (atOff d op.off) op.stream op.desc)

def execFill (op : Desc64Op) (s : State) : Host.Outcome State Fault Refusal :=
  onDevIf (streamOk op.stream) s (fun d => xferStep (atOff d op.off) op.stream op.desc)

def execGather (op : Desc64Op) (s : State) : Host.Outcome State Fault Refusal :=
  onDevIf (streamOk op.stream) s (fun d => xferStep (atOff d op.off) op.stream op.desc)

/-- The executing transfer goes as far as its rings and its accesses let it, and completes if its last element is moved. -/
def execTransferComplete (op : ClusterOp) (s : State) : Host.Outcome State Fault Refusal :=
  onDevIf (op.cluster < 32) s (fun d => let d := atOff d op.off; teGo d op.cluster (2 ^ 41))

def execTransferFault (op : XferFaultOp) (s : State) : Host.Outcome State Fault Refusal :=
  onDevIf (op.cluster < 32) s (fun d => xferFault (atOff d op.off) op.cluster op.elem op.cause)

def execResume (op : ResumeOp) (s : State) : Host.Outcome State Fault Refusal :=
  onDevIf (op.cluster < 32 && streamOk op.stream) s (fun d => resumeXfer (atOff d op.off) op.cluster op.stream false)

def execAbandon (op : ResumeOp) (s : State) : Host.Outcome State Fault Refusal :=
  onDevIf (op.cluster < 32 && streamOk op.stream) s (fun d => resumeXfer (atOff d op.off) op.cluster op.stream true)

def execTransferCarryResume (op : ClusterOp) (s : State) : Host.Outcome State Fault Refusal :=
  onDevIf (op.cluster < 32) s (fun d => resumeCarried (atOff d op.off) op.cluster)

end Sys2Proof.Machine
end

