-- ==== Sys2Proof/Machine/Intake.lean ====
section
/-!
DEFINITION. Intake and publication (R183 to R190, R208 to R210, R422 to R424): envelopes and the checks on them, the rings of the
intake, what the device seals, and how responses leave.
-/
namespace Sys2Proof.Machine
open Sys2Proof

/-! ## Applications and key slots -/

def appAt (d : Dev) (a : Nat) : Option App := d.gen.apps.get none a
def setApp (d : Dev) (a : Nat) (x : App) : Dev := { d with gen := { d.gen with apps := d.gen.apps.set none a (some x) } }
def chainLen (x : App) : Nat := max 1 x.place.len

def keyIdle : KeySlot :=
  { tenant := 0, st := 0, genCur := 0, genPrev := none, trkCur := [], trkPrev := [], tdk := [], rotated := 0, edgeW := none, retire := false }
def keySlot (d : Dev) (k : Nat) : KeySlot := d.keys.get keyIdle k
def setKey (d : Dev) (k : Nat) (x : KeySlot) : Dev := { d with keys := d.keys.set keyIdle k x }
/-- The key slot that a tenant holds: neither FREE nor REVOKING (R360). -/
def slotOfTenant (d : Dev) (t : Nat) : Option Nat :=
  (d.keys.find? (fun x => x.2.tenant == t && (x.2.st == 1 || x.2.st == 2))).map (·.1)
/-- The tenant key of a generation, if the slot holds it (R360). -/
def keyOfGen (k : KeySlot) (g : Nat) : Option (List Byte) :=
  if g = k.genCur then some k.trkCur else if k.genPrev = some g then some k.trkPrev else none

def ownDevice (d : Dev) : Nat := reg d 0x4001 0x00

/-! ## Sealed texts (R183, R184, R209) -/

/-- The nonce: REQUEST_ID, then SEQ. -/
def nonceOf (id seq : Nat) : List Byte := leBytes 8 id ++ leBytes 4 seq

/-- The clear header of an envelope (R183). -/
def header (kind tenant keyGen seq id notAfter len frame code : Nat) : BitVec 512 :=
  BitVec.ofNat 512 (packBits [(0, 16, 0xA256), (16, 8, 1), (24, 8, kind), (32, 16, tenant), (64, 32, keyGen), (96, 32, seq), (128, 64, id),
    (192, 64, notAfter), (256, 32, len), (288, 64, frame), (504, 8, code)])

/-- The bytes of an envelope: header, ciphertext and tag. -/
def envBytes (e : Env) : List Byte := leBytes 64 e.hdr.toNat ++ e.box.bytes

/-- The tag verifies under a key: it was made with that key, this nonce and this header (DEDUCED: log entry 161). -/
def opensUnder (e : Env) (key : List Byte) : Bool :=
  e.box.key == key && e.box.nonce == nonceOf e.id e.seq && e.box.aad == leBytes 64 e.hdr.toNat &&
    e.box.bytes.length == e.box.plain.length + 16

/-- A response's plaintext (R209): the 16-byte block, its tokens, and the report where it has one; a notice has none. -/
def plainOf (r : Resp) : List Byte :=
  match r.sealed with
  | some x => x.2
  | none =>
    if r.kind = 0x8F then []
    else leBytes 1 r.status ++ [0] ++ leBytes 2 r.toks.length ++ leBytes 4 r.firstT ++ leBytes 8 r.ref ++
      r.toks.flatMap (fun t => leBytes 4 t.1 ++ leBytes 4 t.2) ++ r.report

/-- Its frame stamp (R210). -/
def stampOf (r : Resp) : Nat :=
  match r.sealed with
  | some x => x.1
  | none => r.made + 1

/-- A response as it leaves. -/
def sentOf (r : Resp) : Sent :=
  { hdr := header r.kind r.tenant r.keyGen r.seq r.id 0 (plainOf r).length (stampOf r) (if r.kind = 0x8F then r.status else 0)
    nonce := if r.kind = 0x8F then [] else nonceOf r.id r.seq
    plain := plainOf r }

/-- Bytes of a response: header, ciphertext and tag; a notice is its header alone. -/
def respLen (r : Resp) : Nat := if r.kind = 0x8F then 64 else 80 + (plainOf r).length

/-! ## Responses in waiting -/

/-- The key of a REQUEST_ID of a key slot. -/
def idKey (slot id : Nat) : Nat := slot * 2 ^ 192 + id

def keepResp (d : Dev) (r : Resp) : Dev := { d with gen := { d.gen with resps := d.gen.resps ++ [r] } }

/-- A new response takes the next SEQ of its REQUEST_ID (R183, R184). -/
def addResp (d : Dev) (r : Resp) : Dev :=
  let k := idKey r.slot r.id
  let n := d.gen.sent.get 0 k
  keepResp { d with gen := { d.gen with sent := d.gen.sent.set 0 k (n + 1) } } { r with seq := 0x80000000 + n }

/-- A notice (R186): clear, with its status code. -/
def notice (d : Dev) (e : Env) (slot code : Nat) : Dev :=
  keepResp (bump d 0x3030 0x03 1)
    { kind := 0x8F, slot := slot, tenant := e.tenant, id := e.id, seq := 0, keyGen := 0, status := code, final := true,
      firstT := 0, ref := 0, toks := [], report := [], source := e.source, reply := e.reply, origin := e.origin,
      made := d.frame.no, waits := false, sealed := none }

/-- A sealed response to an envelope (R209). -/
def envResp (e : Env) (slot code ref made : Nat) (report : List Byte) : Resp :=
  { kind := 0x81, slot := slot, tenant := e.tenant, id := e.id, seq := 0, keyGen := e.keyGen, status := code, final := true, firstT := 0,
    ref := ref, toks := [], report := report, source := e.source, reply := e.reply, origin := e.origin, made := made, waits := false,
    sealed := none }
def answerEnv (d : Dev) (e : Env) (slot code ref made : Nat) (report : List Byte) : Dev := addResp d (envResp e slot code ref made report)

/-! ## Intake rings and entries (R186, R188, R190) -/

/-- The intake ring of a key slot (R186). -/
def keyRing (d : Dev) (k : Nat) : Option Nat :=
  findRing d (fun c => ringEnabled c && ringKind c == 0 && !ringPool c && !ringShared c && ringTenant c == k && ringLoc c != 2)

/-- The rings of the front-end on a PCIe function (R188). -/
def frontRing (d : Dev) (vf : Nat) : Option Nat :=
  findRing d (fun c => ringEnabled c && ringKind c == 0 && !ringPool c && ringLoc c == 2 && ringVf c == vf)
def poolRing (d : Dev) (vf : Nat) : Option Nat :=
  findRing d (fun c => ringEnabled c && ringKind c == 0 && ringPool c && ringLoc c == 2 && ringVf c == vf)
def completionRing (d : Dev) (vf : Nat) : Option Nat :=
  findRing d (fun c => ringEnabled c && ringKind c == 1 && ringLoc c == 2 && ringVf c == vf)
/-- The completion ring of the responses that Ethernet carries: on the management die, the key slot's or a shared one (DESIGN CHOICE:
log entry 165). -/
def portRing (d : Dev) (k : Nat) : Option Nat :=
  findRing d (fun c => ringEnabled c && ringKind c == 1 && ringLoc c != 2 && (ringShared c || ringTenant c == k))

/-- The entry at an index of a ring, as its producer wrote it. -/
def ringEntry (d : Dev) (n k : Nat) : List Byte := d.ev.ringData.get [] (n * 131072 + k % ringSize (ring d n))
def putEntry (d : Dev) (n k : Nat) (bs : List Byte) : Dev :=
  { d with ev := { d.ev with ringData := d.ev.ringData.set [] (n * 131072 + k % ringSize (ring d n)) bs } }

/-- The producer has written the entries that a new TAIL publishes. -/
def putEntries (d : Dev) (n idx : Nat) (entries : List (List Byte)) : Dev :=
  let c := ring d n
  forEach (entries.take (ringAhead c (ringTail c) idx)).zipIdx d (fun d x => putEntry d n (ringTail c + x.2) x.1)

/-- The route back to an intake device's carriage, in REPLY_HANDLE's 64 bits (DESIGN CHOICE: log entry 166). -/
def replyHandle (source reply : Nat) : Nat := reply * 4 + source

/-- The intake entry of an envelope (R190). -/
def intakeEntry (d : Dev) (e : Env) : BitVec 1024 :=
  BitVec.ofNat 1024 (packBits [(0, 8, e.kind), (8, 4, e.source), (16, 16, e.tenant), (32, 25, (envBytes e).length), (64, 64, e.id),
    (128, 64, e.addr), (192, 64, d.frame.no), (256, 64, if e.source = 3 then e.reply else replyHandle e.source e.reply),
    (320, 64, e.notAfter), (384, 32, e.keyGen), (416, 18, e.origin)])

/-- An entry that is no GENERATE is served as it is taken: it leaves its intake ring at once. -/
def unring (d : Dev) (e : Env) (k : Nat) : Dev :=
  if e.source = 2 then d
  else match keyRing d k with
    | some n => let c := ring d n; setRing d n (setField c 113 17 ((ringTail c + 2 * ringSize c - 1) % (2 * ringSize c)))
    | none => d

/-! ## The checks (R186, R424) -/

/-- The replay filter of a key slot: an entry stays until FRAME_NO exceeds its NOT_AFTER. -/
def filterOf (d : Dev) (k : Nat) : List Replay := (d.gen.filters.get [] k).filter (fun r => d.frame.no ≤ r.notAfter)
def setFilter (d : Dev) (k : Nat) (l : List Replay) : Dev := { d with gen := { d.gen with filters := d.gen.filters.set [] k l } }

/-- The service procedure answers every new envelope with INTAKE_BUSY (R458) (DEDUCED: log entry 58). -/
def serviceHolds (d : Dev) : Bool := d.pow.svc != .none

/-- A device that hosts the application drains for service (R458); the mark of another lapses with the epoch it was made in. -/
def appServiced (d : Dev) (a : Nat) : Bool :=
  serviceHolds d || d.gen.serviced.any (fun x => x.1 == a && deviceEpoch d x.2.1 == x.2.2)

/-- Check 1 but for the key slot: the fields, the kind that the row names, and the lengths (R183, R185) (DESIGN CHOICE: log entry 167). -/
def headerOk (e : Env) (kind : Nat) : Bool :=
  e.magic == 0xA256 && e.version == 1 && e.kind == kind && e.seq == b2n (kind == 2) &&
    e.payloadLen + 16 == e.box.bytes.length && e.payloadLen + 80 ≤ 2 ^ 24 && (kind != 2 || e.payloadLen == 0)

/-- Checks 1 to 3 of R186 in order: the key slot, or the device after the drop or the notice (DESIGN CHOICE: log entry 125). -/
def envChecks (d : Dev) (e : Env) (kind : Nat) : Except Dev Nat :=
  if !headerOk e kind then .error (bump d 0x3030 0x01 1)
  else match slotOfTenant d e.tenant with
    | none => .error (bump d 0x3030 0x01 1)
    | some k =>
      if !(keyOfGen (keySlot d k) e.keyGen).any (opensUnder e) then .error (bump d 0x3030 0x02 1)
      else if e.notAfter < d.frame.no ∨ d.frame.no + reg d 0x3004 0x00 < e.notAfter then .error (notice d e k 0x1A)
      else .ok k

/-- An envelope that passed: counted, its entry on the ring, its payload opened (DESIGN CHOICE: log entry 168). -/
def placed (d : Dev) (e : Env) (k : Nat) (ring : Option Nat) : Dev × Env × Nat × List Byte :=
  let d := match ring with
    | some n => ringPush d n (leBytes 128 (intakeEntry d e).toNat)
    | none => d
  (timing (bump d 0x3030 0x00 1) k 5 (envBytes e).length, e, k, e.box.plain)

/-- Checks 4 and 5, the ring's room, and the filter: a CANCEL is marked in the entry of the GENERATE it names, if that still stands
(DEDUCED: log entry 55); any other envelope gets an entry. -/
def acceptEnv (d : Dev) (e : Env) (kind k : Nat) : Except Dev (Dev × Env × Nat × List Byte) :=
  let f := filterOf d k
  let ring := if e.source = 2 then none else keyRing d k
  let busy := serviceHolds d || ring.any (fun n => ringFull (Machine.ring d n))
  let same := fun (r : Replay) => r.id == e.id
  if f.any (fun r => same r && (kind != 2 || r.cancelled)) then .error (notice d e k 0x19)
  else if kind ≠ 2 ∧ reg d 0x3004 0x01 ≤ f.length then .error (notice d e k 0x1B)
  else if busy then .error (notice d e k 0x1B)
  else if kind = 2 then .ok (placed (setFilter d k (f.map (fun r => if same r then { r with cancelled := true } else r))) e k ring)
  else .ok (placed (setFilter d k (f ++ [⟨e.id, e.notAfter, false, false⟩])) e k ring)

/-! ## Carriage (R187 to R189) -/

/-- A front-end's envelope: the entry at the HEAD of its intake ring names it by its address; the device writes the entry's read-only
fields and serves it. False: an entry of another tenant on a ring with SHARED 0, dropped and counted (R422). -/
def fetchPcie (d : Dev) (e : Env) : Option (Dev × Bool) :=
  match frontRing d (e.reply % 16) with
  | none => none
  | some n =>
    let c := ring d n
    let x : BitVec 1024 := BitVec.ofNat 1024 (leNat (ringEntry d n (ringHead c)))
    if ringFill c = 0 ∨ ringEntry d n (ringHead c) = [] ∨ field x 128 64 ≠ e.addr then none
    else
      let mine := ringShared c || slotOfTenant d (field x 16 16) == some (ringTenant c)
      let y := setField (setField (setField x 192 64 d.frame.no) 256 64 (replyHandle 2 e.reply)) 416 18 (ownDevice d)
      let d := doorbellHead (putEntry d n (ringHead c) (leBytes 128 y.toNat)) n (ringNext c (ringHead c))
      some (if mine then d else bump d 0x7004 0x05 1, mine)

/-- An envelope leaves its carriage: it is whole after reassembly (R187), or lies where a front-end's entry says (R188); none: no
carriage has it (DESIGN CHOICE: log entry 169). -/
def fetch (d : Dev) (e : Env) : Option (Dev × Bool) :=
  match e.source with
  | 2 => fetchPcie d e
  | 3 => none
  | s =>
    let x := (s, e.reply, envBytes e)
    if d.gen.ready.contains x then some ({ d with gen := { d.gen with ready := d.gen.ready.erase x } }, true) else none

/-- A forwarded envelope that has lain opened on this device (R189). -/
def takeOpened (d : Dev) (e : Env) (kind : Nat) : Except Dev (Dev × Env × Nat × List Byte) :=
  match d.gen.opened.find? (fun x => x.1.tenant == e.tenant && x.1.id == e.id && x.1.kind == kind) with
  | some x => .ok ({ d with gen := { d.gen with opened := d.gen.opened.erase x } }, x)
  | none => .error d

/-- An arriving envelope of a kind: what is left of it once every check is passed, or the device without it. -/
def takeEnv (d : Dev) (e : Env) (kind : Nat) : Except Dev (Dev × Env × Nat × List Byte) :=
  if e.source = 3 then takeOpened d e kind
  else match fetch d e with
    | none => .error d
    | some (d, false) => .error d
    | some (d, true) =>
      let e := { e with origin := ownDevice d }
      match envChecks d e kind with
      | .error d => .error d
      | .ok k => acceptEnv d e kind k

/-! ## Forwarding (R189) -/

/-- Other devices are in reach. -/
def inSystem (d : Dev) : Bool := d.lig.tables.any (fun t => !t.routes.isEmpty)

/-- This device is the first of some chain. -/
def servesSome (d : Dev) : Bool := (List.range 8).any (fun a => (appAt d a).any (fun x => x.place.stage == 0))

/-- Where an application's first device is another one: it serves on this device at a later stage, or it is not here while other devices
are and this one begins no chain (DESIGN CHOICE: log entry 170). -/
def goesOn (d : Dev) (app : Option Nat) : Bool :=
  match app.bind (appAt d) with
  | some x => x.place.stage != 0
  | none => inSystem d && !servesSome d

/-- An envelope that another device serves goes on, with the entry that it has here. -/
def forwardEnv (d : Dev) (e : Env) (k : Nat) (body : List Byte) : Dev :=
  let d := setFilter d k ((filterOf d k).map (fun r => if r.id = e.id then { r with away := true } else r))
  emit d (.forward (intakeEntry d e) body)

/-- The envelope that a forwarded entry stands for. -/
def envOf (x : BitVec 1024) (body : List Byte) : Env :=
  { source := 3, reply := field x 256 64, origin := field x 416 18, addr := field x 128 64
    hdr := header (field x 0 8) (field x 16 16) (field x 384 32) (b2n (field x 0 8 == 2)) (field x 64 64) (field x 320 64) body.length 0 0
    box := { bytes := body ++ List.replicate 16 0, key := [], nonce := [], aad := [], plain := body } }

/-! ## Publication (R187, R188, R208, R210) -/

/-- By key slot, then REQUEST_ID, then SEQ. -/
def respFirst (a b : Resp) : Bool :=
  a.slot < b.slot || (a.slot == b.slot && (a.id < b.id || (a.id == b.id && a.seq ≤ b.seq)))
def insertResp (x : Resp) : List Resp → List Resp
  | [] => [x]
  | y :: r => if respFirst x y then x :: y :: r else y :: insertResp x r
def sortResps (l : List Resp) : List Resp := l.foldr insertResp []

/-- The completion entry (R208); `addr` is the DVA of the response buffer, or the pool buffer's address ÷ 16. -/
def completionEntry (r : Resp) (addr : Nat) : List Byte :=
  leBytes 32 (packBits [(0, 8, r.kind), (8, 1, b2n r.final), (16, 16, r.tenant), (32, 32, respLen r), (64, 64, r.id),
    (128, 64, stampOf r), (192, 48, addr)])

/-- Segments of a response of `n` bytes: the segment header (R187), the first byte, and how many. -/
def segments (r : Resp) (n : Nat) : List (BitVec 128 × Nat × Nat) :=
  let c := (n + 8191) / 8192
  (List.range c).map (fun k =>
    (BitVec.ofNat 128 (packBits [(0, 64, r.id), (64, 16, r.tenant), (80, 16, k), (96, 16, c)]), 8192 * k, min 8192 (n - 8192 * k)))

/-- A response waits, counted once (R188, R424). -/
def respWaits (d : Dev) (r : Resp) : Dev := keepResp (if r.waits then d else bump d 0x3030 0x0A 1) { r with waits := true }

/-- The buffer that the HEAD entry of a pool ring names: its ENV_ADDR (DESIGN CHOICE: log entry 171). -/
def poolBuffer (d : Dev) (p : Nat) : Nat × Dev :=
  match ringEntry d p (ringHead (ring d p)) with
  | [] => drawNat d
  | bs => (field (BitVec.ofNat 1024 (leNat bs)) 128 64, d)

/-- A response for a front-end: into the next pool buffer, named in the completion ring; it waits while either ring has none. -/
def publishPcie (d : Dev) (r : Resp) : Dev :=
  let vf := r.reply % 16
  if reg d 0x8010 vf = 3 then bump d 0x8160 0x03 1
  else match poolRing d vf, completionRing d vf with
    | some p, some c =>
      let pc := ring d p
      if ringFill pc = 0 ∨ ringFull (ring d c) then respWaits d r
      else
        let (addr, d) := poolBuffer d p
        let d := doorbellHead d p (ringNext pc (ringHead pc))
        emit (ringPush d c (completionEntry r (addr / 16))) (.pooled vf addr (sentOf r))
    | _, _ =>
      if d.ev.rings.any (fun x => !ringEnabled x.2 && ringLoc x.2 == 2 && ringVf x.2 == vf) then bump d 0x8160 0x03 1 else respWaits d r

/-- A response by Ethernet: its completion entry, whose buffer lies at a DVA that the rule leaves open, and its datagrams. -/
def publishPort (d : Dev) (r : Resp) : Dev :=
  let send := fun (d : Dev) => forEach (segments r (respLen r)) d (fun d x => emit d (.datagram r.source r.reply x.1 x.2.1 x.2.2 (sentOf r)))
  match portRing d r.slot with
  | none => send d
  | some c =>
    if ringFull (ring d c) then respWaits d r
    else
      let (a, d) := drawNat d
      send (ringPush d c (completionEntry r a))

/-- One response leaves: back over Ligature to its intake device, through a pool buffer, or by its port (R188, R189). -/
def publishOne (d : Dev) (r : Resp) : Dev :=
  let d := if r.waits then d else timing d r.slot 6 (respLen r)
  if r.origin ≠ ownDevice d then emit d (.returned r.origin r.reply r.final (sentOf r))
  else if r.source = 2 then publishPcie d r
  else publishPort d r

/-- Those that wait leave first, in their order; then those of a test, by key slot and REQUEST_ID. -/
def publish (d : Dev) (due : Resp → Bool) : Dev :=
  let go := d.gen.resps.filter (·.waits) ++ sortResps (d.gen.resps.filter (fun r => !r.waits && due r))
  forEach go { d with gen := { d.gen with resps := d.gen.resps.filter (fun r => !r.waits && !due r) } } publishOne

/-- At offset 1,700 the responses of earlier frames are published. -/
def responsePublish (d : Dev) : Dev := if d.frame.off < 1700 then d else publish d (fun r => r.made < d.frame.no)

/-- A pool or completion ring that has been served lets the waiting responses go, in order. -/
def publishWaiting (d : Dev) : Dev := publish d (fun _ => false)

/-- A response that returned over Ligature: it leaves by the carriage of its envelope at the next publication (R189) (DESIGN CHOICE: log
entry 172). -/
def takeReturned (d : Dev) (op : ReturnOp) : Dev :=
  let h := op.hdr
  let kind := field h 24 8
  keepResp d
    { kind := kind, slot := (slotOfTenant d (field h 32 16)).getD 0, tenant := field h 32 16, id := field h 128 64, seq := field h 96 32,
      keyGen := field h 64 32, status := if kind = 0x8F then field h 504 8 else ((op.plain.headD 0).toNat), final := op.final, firstT := 0,
      ref := 0, toks := [], report := [], source := op.handle % 4, reply := op.handle / 4, origin := ownDevice d, made := d.frame.no,
      waits := false, sealed := some (field h 288 64, op.plain) }

/-! ## The commands -/

/-- A doorbell (R423) moves its ring's TAIL or HEAD; buffers given back let responses go that wait for them (R188, R424). -/
def execDoorbellTail (op : DoorbellOp) (s : State) : Host.Outcome State Fault Refusal :=
  onDev s (fun d =>
    let d := atOff d op.off
    match doorbellRing d op.pcie op.owner op.slot with
    | some n => publishWaiting (doorbellTail (putEntries d n op.index op.entries) n op.index)
    | none => d)

def execDoorbellHead (op : DoorbellOp) (s : State) : Host.Outcome State Fault Refusal :=
  onDev s (fun d =>
    let d := atOff d op.off
    match doorbellRing d op.pcie op.owner op.slot with
    | some n => publishWaiting (doorbellHead d n op.index)
    | none => d)

def execResponsePublish (op : AtOp) (s : State) : Host.Outcome State Fault Refusal :=
  onDev s (fun d => responsePublish (atOff d op.off))

def execResponseReturn (op : ReturnOp) (s : State) : Host.Outcome State Fault Refusal :=
  onDev s (fun d => takeReturned (atOff d op.off) op)

end Sys2Proof.Machine
end

