-- ==== Sys2Proof/Machine/Sampling.lean ====
section
/-!
DEFINITION. Sampling of one token from the logits of a row (R205 to R207): FP32 throughout, one rounding an operation.
-/
namespace Sys2Proof.Machine
open Sys2Proof

/-- Which of two (score, index) pairs comes first: the larger score, then the lower index. -/
def scoreFirst (a b : Word × Nat) : Bool :=
  orderKey b.1 < orderKey a.1 || (orderKey a.1 == orderKey b.1 && a.2 ≤ b.2)

/-- Put a score in its place. -/
def insertScore (x : Word × Nat) : List (Word × Nat) → List (Word × Nat)
  | [] => [x]
  | y :: r => if scoreFirst x y then x :: y :: r else y :: insertScore x r

/-- Scores by descending value, ties by ascending index. -/
def sortScores (l : List (Word × Nat)) : List (Word × Nat) := l.foldr insertScore []

/-- The lowest index with the largest score; 0 where there is none. -/
def argmax (l : List (Word × Nat)) : Nat :=
  match l with
  | [] => 0
  | x :: r => (r.foldl (fun b y => if scoreFirst b y then b else y) x).2

/-- 2^(a − m), which is 1 where a equals m. -/
def expTerm (a m : Word) : Word := if a = m then 0x3F800000#32 else fexp2 (fsub a m)

/-- The shortest prefix whose running sum reaches the target. -/
def prefixTo (target : Word) (m : Word) : Word → List (Word × Nat) → List (Word × Nat)
  | _, [] => []
  | acc, x :: r =>
    let acc := fadd acc (expTerm x.1 m)
    if orderKey target ≤ orderKey acc then [x] else x :: prefixTo target m acc r

/-- The kept set under TOP_P, from scores in descending order. -/
def keepTopP (topP : Word) (l : List (Word × Nat)) : List (Word × Nat) :=
  match l with
  | [] => []
  | (m, _) :: _ =>
    let total := l.foldl (fun s x => fadd s (expTerm x.1 m)) 0
    prefixTo (fmul topP total) m 0 l

/-- The Gumbel term of vocabulary index i at token index t: log2(−log2(u)) with u exact (R207). -/
def gumbel (sk i t : Nat) : Word :=
  let w := (philox (sk % 2 ^ 32) (sk / 2 ^ 32) (i % 2 ^ 32) (t % 2 ^ 32) 1 0).1
  let u : Num := .fin false (2 * (w >>> 8) + 1) (-25)
  flog2 (fneg (log2Num u))

/-- log2 probability of token k under the tempered distribution (R218): a[k] − m − log2(Σ 2^(a[i] − m)), ascending i. -/
def logProb (temp : Word) (logits : List Word) (k : Nat) : Word :=
  let ct := fdiv 0x3FB8AA3B#32 temp
  let a := logits.map (fun l => fmul l ct)
  match sortScores a.zipIdx with
  | [] => 0
  | (m, _) :: _ => fsub (fsub ((a[k]?).getD 0) m) (flog2 (a.foldl (fun s x => fadd s (expTerm x m)) 0))

/-- TOP_P selects a subset: 0 < top_p < 1. -/
def topPActive (p : Word) : Bool := orderKey 0 < orderKey p && orderKey p < orderKey 0x3F800000#32

/-- The sampled token (R207) (DESIGN CHOICE: log entry 124). -/
def sampleToken (sk t : Nat) (temp : Word) (topK : Nat) (topP : Word) (logits : List Word) : Nat :=
  let all := logits.zipIdx
  if temp.toNat % 2 ^ 31 = 0 then argmax all
  else
    let ct := fdiv 0x3FB8AA3B#32 temp
    let sorted := sortScores all
    let keep := match topK, sorted[topK - 1]? with
      | 0, _ => all
      | _, none => all
      | _, some k => all.filter (fun x => orderKey k.1 ≤ orderKey x.1)
    let scaled := keep.map (fun x => (fmul x.1 ct, x.2))
    let scaled := if topPActive topP then keepTopP topP (sortScores scaled) else scaled
    argmax (scaled.map (fun x => (fsub x.1 (gumbel sk x.2 t), x.2)))

end Sys2Proof.Machine
end

