-- ==== Sys2Proof/Machine/Generation.lean ====
section
/-!
DEFINITION. The generation path (R191 to R204, R210): requests and their admission, the sequences in a frame, their key/value blocks
and their tokens.
-/
namespace Sys2Proof.Machine
open Sys2Proof

/-! ## Requests -/

def findReq (d : Dev) (slot id : Nat) : Option GenReq := d.gen.reqs.find? (fun q => q.slot == slot && q.id == id)
def setReqs (d : Dev) (l : List GenReq) : Dev := { d with gen := { d.gen with reqs := l } }
def setReq (d : Dev) (q : GenReq) : Dev :=
  setReqs d (d.gen.reqs.map (fun x => if x.slot = q.slot ∧ x.id = q.id then q else x))
def seqKey (q : GenReq) : Nat := idKey q.slot q.id
def GenReq.isHolder (q : GenReq) (d : Dev) : Bool := q.holder == ownDevice d

/-! ## Key/value blocks (R202 to R204) -/

/-- Bytes of a block: 64 token positions of one layer, keys and values of every head. -/
def blockBytes (c : Copybook) : Nat := 2 * c.kvHeads * 64 * c.kvWidth * fmtBits c.kvFormat / 8

/-- Where channel `ch` of a token's key (`kind` 0) or value (1) lies in a block, in bits: heads ascending, each with its keys, then its
values, token-major, channels contiguous (R202). -/
def kvBit (c : Copybook) (head kind pos ch : Nat) : Nat := (((2 * head + kind) * 64 + pos % 64) * c.kvWidth + ch) * fmtBits c.kvFormat

/-- An unused entry of a block table. -/
def unusedEntry : Nat := 2 ^ 64 - 1

def poolOf (d : Dev) (app k : Nat) : List Nat := d.gen.kvFree.get [] (4096 * app + k)
def setPool (d : Dev) (app k : Nat) (l : List Nat) : Dev :=
  { d with gen := { d.gen with kvFree := d.gen.kvFree.set [] (4096 * app + k) l } }

/-- Blocks in a page. -/
def blocksPerPage (c : Copybook) : Nat := frameSize / max 1 (blockBytes c)

/-- A block of the tenant: one that was released, else the first of a page made of a given frame (R204, R369). -/
def takeBlock (d : Dev) (c : Copybook) (app k : Nat) : Dev × Nat :=
  match poolOf d app k with
  | b :: r => (setPool d app k r, b)
  | [] => match takeData d app k with
    | none => (d, unusedEntry)
    | some (d, page) => match (List.range (blocksPerPage c)).map (fun i => page * frameSize + i * blockBytes c) with
      | b :: r => (setPool d app k r, b)
      | [] => (d, unusedEntry)

/-- Block positions a request can need: ceil((PROMPT_LEN + MAX_NEW) / 64) (R195). -/
def GenReq.spans (q : GenReq) : Nat := (q.prompt.length + q.maxNew + 63) / 64

/-- The block table in memory: a list a layer, an entry a position, the unused ones all ones (R204). -/
def tableBytes (q : GenReq) : List Byte :=
  q.blocks.flatMap (fun l => (l ++ List.replicate (q.spans - l.length) unusedEntry).flatMap (leBytes 8))
def writeTable (d : Dev) (q : GenReq) : Dev := q.tableAt.elim d (fun a => pokeDva d q.app a (tableBytes q))

/-- A sequence begins with an empty table in a page of its own (R204) (DESIGN CHOICE: log entry 57). -/
def openBlocks (d : Dev) (x : App) (q : GenReq) : Dev × GenReq :=
  let q := { q with blocks := x.book.layers.map (fun _ => []) }
  match takeData d q.app q.slot with
  | some (d, page) =>
    let q := { q with tableAt := some (page * frameSize) }
    (writeTable d q, q)
  | none => (d, q)

/-- A run of appended rows: at each position t with t mod 64 = 0 every held layer takes a block (R204). -/
def addBlocks (d : Dev) (q : GenReq) (n : Nat) : Dev × GenReq :=
  match appAt d q.app with
  | none => (d, q)
  | some x =>
    let starts := (List.range n).filter (fun k => (q.rows + k) % 64 == 0)
    let (d, bs) := forEach starts (d, q.blocks) (fun y _ =>
      forEach y.2 (y.1, []) (fun z l => let (d, b) := takeBlock z.1 x.book q.app q.slot; (d, z.2 ++ [l ++ [b]])))
    let q := { q with blocks := bs }
    (if starts.isEmpty then d else writeTable d q, q)

/-- Its blocks return to the tenant's pool, and the page of its table to the given frames. -/
def releaseBlocks (d : Dev) (q : GenReq) : Dev :=
  let d := setPool d q.app q.slot (poolOf d q.app q.slot ++ (q.blocks.flatMap id).filter (· ≠ unusedEntry))
  q.tableAt.elim d (fun a => writePte d q.app (a / frameSize) 0)

/-- The pages of an application's free blocks return to the given frames: its blocks change their size (R202). -/
def clearPools (d : Dev) (app : Nat) : Dev :=
  let mine := d.gen.kvFree.filter (fun x => x.1 / 4096 == app)
  let pages := ((mine.flatMap (·.2)).map (· / frameSize)).eraseDups
  forEach pages { d with gen := { d.gen with kvFree := d.gen.kvFree.filter (fun x => x.1 / 4096 != app) } } (fun d p => writePte d app p 0)

def dropReq (d : Dev) (q : GenReq) : Dev :=
  setReqs (releaseBlocks d q) (d.gen.reqs.filter (fun x => !(x.slot == q.slot && x.id == q.id)))

/-! ## Responses of a request (R209) -/

/-- Tokens by responses of at most 1,024 (R209). -/
def chunks : Nat → List (Nat × Nat) → List (List (Nat × Nat))
  | 0, l => [l]
  | n + 1, l => if l.length ≤ 1024 then [l] else l.take 1024 :: chunks n (l.drop 1024)

/-- Report a request's tokens not yet reported: OK responses of full length, then one with `status` (DESIGN CHOICE: log entry 56). -/
def respond (d : Dev) (q : GenReq) (status : Nat) (final : Bool) (ref made : Nat) : Dev :=
  let toks := q.out.drop q.reported
  let cs := chunks (toks.length / 1024) toks
  let n := cs.length
  let d := forEach cs.zipIdx d (fun d x =>
    let last := x.2 + 1 == n
    addResp d
      { kind := 0x81, slot := q.slot, tenant := q.tenant, id := q.id, seq := 0, keyGen := q.keyGen,
        status := if last then status else 0, final := last && final,
        firstT := if x.1.isEmpty then 0 else q.prompt.length + q.reported + 1024 * x.2, ref := if last then ref else 0,
        toks := x.1.map (fun t => (t.1, t.2 % 2 ^ 32)), report := [], source := q.source, reply := q.reply, origin := q.origin,
        made := made, waits := false, sealed := none })
  setReq d { q with reported := q.out.length }

/-- Nothing of it has left the first device yet. -/
def GenReq.isQueued (q : GenReq) : Bool :=
  match q.stage with
  | .queued _ => true
  | _ => false

/-- The chain's other devices release a request that the first device ends: its last stage has told them of the ends of R201 itself. -/
def tellEnd (d : Dev) (q : GenReq) (code : Nat) : Dev :=
  if q.isHolder d && !q.isQueued && (appAt d q.app).any (fun x => 1 < chainLen x) && !(2 ≤ code && code ≤ 3 || code == 5) then
    emit d (.endRecord q.slot q.id code none)
  else d

/-- A request ends at this edge with a status (R197, R201, R209): its blocks, pins and state go, here and along its chain; its responses
are those of the frame that ended. A rollout is left for its job. -/
def endReq (d : Dev) (q : GenReq) (code : Nat) : Dev :=
  let d := tellEnd (releaseUse d (.request q.slot q.id)) q code
  let d := if code = 0x11 then bump d 0x3130 0x06 1 else d
  let d := if code = 0x12 then bump d 0x3130 0x07 1 else d
  match q.rollout with
  | some _ => dropReq { d with gen := { d.gen with ended := d.gen.ended ++ [{ q with stage := .ending code }] } } q
  | none =>
    let d := if q.isHolder d then respond d q code true d.frame.no (d.frame.no - 1) else d
    dropReq d q

/-- A request is refused at this edge (R196). -/
def refuseReq (d : Dev) (q : GenReq) (code : Nat) : Dev :=
  let d := timing (bump d 0x3030 0x05 1) q.slot (16 + code) 1
  let d := if code = 0x13 then bump d 0x3130 0x08 1 else d
  endReq d q code

/-! ## The GENERATE payload (R191, R192) -/

def tokensOf : Nat → List Byte → List Nat
  | 0, _ => []
  | n + 1, l => leNat (l.take 4) :: tokensOf n (l.drop 4)

/-- The Capacity Table's maximum context (R192, R294): the system's, or this device's own where the system has no table. -/
def maxContext (d : Dev) : Nat := if reg d 0x0100 0x02 = 0 then reg d 0x0101 0x11 else reg d 0x0100 0x11

/-- The code that a payload is refused with (R192); 0: none. -/
def genBad (d : Dev) (v : Option Nat) (body : List Byte) : Nat :=
  let h : BitVec 768 := BitVec.ofNat 768 (leNat (body.take 96))
  let np := field h 64 32
  let nStop := field h 144 8
  let temp := BitVec.ofNat 32 (field h 96 32)
  let topP := BitVec.ofNat 32 (field h 160 32)
  let badF := fun (w : Word) => !isFinite w || (w.toNat / 2 ^ 31 = 1 && w.toNat % 2 ^ 31 ≠ 0)
  let stops := (List.range (min 8 nStop)).map (fun k => field h (512 + 32 * k) 32)
  let ended := fun t => match v with
    | some v => v ≤ t
    | none => false
  if body.length < 96 ∨ field h 152 8 ≠ 0 ∨ field h 272 240 ≠ 0 ∨ field h 32 32 = 0 ∨ np = 0 ∨ body.length ≠ 96 + 4 * np ∨ 8 < nStop ∨
      1024 < field h 128 16 ∨ (tokensOf np (body.drop 96)).any ended ∨ stops.any ended ∨ badF temp ∨ badF topP then 0x18
  else if maxContext d < np + field h 32 32 then 0x17
  else 0

/-- The application that serves a request: its variant's, or for no variant the first that gives its key slot a share. -/
def appFor (d : Dev) (k v : Nat) : Option Nat :=
  match (if v = 0 then none else variant d v) with
  | some r => some r.app
  | none => match ((List.range 8).filter (fun a => (appAt d a).isSome)).find? (fun a => 0 < d.gen.tokenShare.get 0 (4096 * a + k)) with
    | some a => some a
    | none => (List.range 8).find? (fun a => (appAt d a).isSome)

/-- The request that an opened GENERATE payload spells. -/
def genReq (d : Dev) (e : Env) (k : Nat) (body : List Byte) (onRing : Bool) : GenReq :=
  let h : BitVec 768 := BitVec.ofNat 768 (leNat (body.take 96))
  let v := field h 0 32
  let a := appFor d k v
  let vocab := a.bind (fun a => (appAt d a).map (·.book.vocab))
  { slot := k, tenant := e.tenant, id := e.id, keyGen := e.keyGen, app := a.getD 8, source := e.source, reply := e.reply,
    origin := e.origin, handle := 0, holder := ownDevice d, variant := v, maxNew := field h 32 32,
    prompt := tokensOf (field h 64 32) (body.drop 96), temp := BitVec.ofNat 32 (field h 96 32), topK := field h 128 16,
    topP := BitVec.ofNat 32 (field h 160 32),
    stops := (List.range (min 8 (field h 144 8))).map (fun j => field h (512 + 32 * j) 32), seed := field h 192 64,
    streamFrames := field h 256 16, bad := genBad d vocab body, sk := 0, arrived := d.frame.no, onRing := onRing, waited := 0,
    stage := .queued 0, phase := 0, order := 0, reserved := 0, tableAt := none, blocks := [], rows := 0, out := [], reported := 0,
    asked := [], waiting := [], parked := 0, cancel := false, cancelSeen := false, first := 0, planned := 0, sampled := false, lps := [],
    rollout := none }

/-! ## Admission (R193 to R196) -/

/-- Sequences that hold a place, or have passed checks 5 and 6. -/
def GenReq.holds (q : GenReq) : Bool :=
  match q.stage with
  | .active => true
  | .ending _ => true
  | .binding => true
  | .decided c => c == 1
  | .queued _ => false

/-- Admitted, and still held. -/
def GenReq.admitted (q : GenReq) : Bool :=
  match q.stage with
  | .active => true
  | .ending _ => true
  | _ => false

/-- The next frame of a phase at stage 0 at or after a frame. -/
def phaseFrame (l phi f : Nat) : Nat := f + (phi + l - f % l) % l

/-- Check 5 for a phase. -/
def phaseFree (d : Dev) (q : GenReq) (phi : Nat) : Bool :=
  (d.gen.reqs.filter (fun x => x.holds && x.app == q.app && x.slot == q.slot && x.phase == phi)).length <
    d.gen.tokenShare.get 0 (4096 * q.app + q.slot)

/-- Admitted requests of a request's tenant. -/
def sameSlot (d : Dev) (q : GenReq) : List GenReq := d.gen.reqs.filter (fun y => y.holds && y.slot == q.slot)

/-- Check 6 for a phase by KV_QUOTA: on every device of the chain the phase's blocks stay within KV_QUOTA / L. -/
def quotaRoom (d : Dev) (x : App) (q : GenReq) (phi : Nat) : Bool :=
  let inPhase := ((sameSlot d q).filter (fun y => y.app == q.app && y.phase == phi)).map GenReq.spans
  let h := max x.book.maxLayers x.book.layers.length
  decide (h * (inPhase.sum + q.spans) ≤ d.gen.kvQuota.get 0 (4096 * q.app + q.slot) / chainLen x)

/-- Blocks that a request has reserved and not yet taken. -/
def GenReq.untaken (q : GenReq) : Nat := q.reserved - (q.blocks.map List.length).sum

/-- Given frames that an application's admitted requests of a tenant still need, and `n` blocks more. -/
def framesFor (d : Dev) (q : GenReq) (a n : Nat) : Nat :=
  match appAt d a with
  | none => 0
  | some x =>
    let mine := (sameSlot d q).filter (fun y => y.app == a)
    let blocks := (mine.map GenReq.untaken).sum + n - (poolOf d a q.slot).length
    let per := max 1 (blocksPerPage x.book)
    (mine.filter (fun y => y.tableAt.isNone)).length + (blocks + per - 1) / per

/-- No block of a request needs a frame of this device that has not been given (R369). -/
def framesRoom (d : Dev) (x : App) (q : GenReq) : Bool :=
  let need := (List.range 8).map (fun a => framesFor d q a (if a = q.app then x.book.layers.length * q.spans else 0))
  decide (need.sum + 1 ≤ (givenFrames d q.app q.slot).length)

/-- Check 6 for a phase. -/
def phaseRoom (d : Dev) (x : App) (q : GenReq) (phi : Nat) : Bool := quotaRoom d x q phi && framesRoom d x q

/-- The phase that a request takes, or the pending code of the check no phase passes. -/
def choosePhase (d : Dev) (x : App) (q : GenReq) : Except Nat Nat :=
  let l := chainLen x
  let free := (List.range l).filter (phaseFree d q)
  let room := free.filter (phaseRoom d x q)
  if free.isEmpty then .error 0x15
  else match room with
    | [] => .error 0x16
    | a :: r => .ok (r.foldl (fun b p => if phaseFrame l p (d.frame.no + 1 - haltTotal d q.app) < phaseFrame l b (d.frame.no + 1 - haltTotal d q.app) then p else b) a)

/-- Admission is held without counting ADMIT_WAIT: the switch fence (R331), the service procedure (R458), a replacement of the
variant not yet in force (R478). -/
def heldUncounted (d : Dev) (q : GenReq) : Bool :=
  (appAt d q.app).any (·.fence) || appServiced d q.app || haltedNext d q.app || (q.variant != 0 && (variant d q.variant).any (fun r => !r.next.isEmpty))

/-- Nothing is admitted: EXPIRED (R16), at the Flue's floor (R438), after FATAL (R421), or while the application is stopped. -/
def admissionClosed (d : Dev) (q : GenReq) : Bool :=
  d.frame.tick == .expired || d.pow.hold || d.pow.fatal || (appAt d q.app).any (·.stopped)

/-- Admission checks 1 to 6 of one request, then its bind (R195): the device, and whether the request stays pending. -/
def checkReq (d : Dev) (q : GenReq) : Dev × Bool :=
  let refuse := fun c => (setReq d { q with stage := .decided c }, false)
  let r := variant d q.variant
  if q.bad ≠ 0 then refuse q.bad
  else if q.variant ≠ 0 ∧ r.all (fun r => r.key != q.slot || !r.ready) then refuse 0x10
  else if q.variant ≠ 0 ∧ r.any VarRec.withdrawn then refuse stWithdrawn
  else match appAt d q.app with
    | none => refuse 0x14
    | some x =>
      if heldUncounted d q || admissionClosed d q then (d, true)
      else if r.any (fun r => q.variant != 0 && (field r.hdr 64 32 != x.book.baseId || field r.hdr 96 16 != x.book.baseGen)) then
        refuse 0x14
      else match choosePhase d x q with
        | .error c => (setReq d { q with stage := .queued c }, true)
        | .ok phi =>
          let others := if q.variant = 0 then [] else (r.map (·.others)).getD []
          let q := { q with phase := phi, reserved := x.book.layers.length * q.spans, asked := others, waiting := others, stage := .binding }
          let d := setReq d q
          if q.variant = 0 then (setReq d { q with stage := .decided 1 }, false)
          else
            let d := if others.isEmpty then d else emit d (.bindAsk q.tenant q.id q.variant q.app)
            (bindPass d { use := .request q.slot q.id, variant := q.variant, key := q.slot, app := q.app, wait := none, claims := false }, false)

/-- The answer to the first device of a chain (R195, R237). -/
def askAnswer (d : Dev) (u : Use) (code : Nat) : Out :=
  match u with
  | .request k id => .bindAnswer (keySlot d k).tenant id code
  | _ => .pinAnswer u code

/-- Binds asked for by the first device of a chain that have come to an answer (R195, R237). -/
def answerAsks (d : Dev) : Dev :=
  forEach d.gen.asks d (fun d u =>
    let code := if d.ink.bound.any (fun y => y.1 == u) then some 0 else (d.ink.refused.find? (fun y => y.1 == u)).map (·.2)
    match code with
    | some c => emit { d with
        gen := { d.gen with asks := d.gen.asks.filter (· != u) }
        ink := { d.ink with refused := d.ink.refused.filter (fun y => y.1 != u) } } (askAnswer d u c)
    | none => d)

/-- A bind that has come to an answer, here and on every device asked, decides its request. -/
def bindAnswers (d : Dev) : Dev :=
  let d := forEach ((answerAsks d).gen.reqs.filter (fun q => q.stage == .binding)) (answerAsks d) (fun d q =>
    let u := Use.request q.slot q.id
    match d.ink.refused.find? (fun x => x.1 == u) with
    | some (_, c) => setReq d { q with stage := .decided c }
    | none =>
      if q.asked.isEmpty && (!holdsRec d q.variant || d.ink.bound.any (fun x => x.1 == u)) then setReq d { q with stage := .decided 1 } else d)
  { d with ink := { d.ink with refused := d.ink.refused.filter (fun x => match x.1 with | .request _ _ => false | _ => true) } }

/-- Another device's answer to a bind (R195): a refusal decides the request. -/
def takeBindAnswer (d : Dev) (src tenant id code : Nat) : Dev :=
  match (slotOfTenant d tenant).bind (fun k => findReq d k id) with
  | some q =>
    if q.stage ≠ .binding then d
    else if code = 0 then setReq d { q with asked := q.asked.filter (· ≠ src) }
    else setReq (releaseUse d (.request q.slot q.id)) { q with stage := .decided code }
  | none => d

/-- The first device of a chain asks for a slot for a use; a device without a record of the variant for its own layers needs none
(R171). -/
def takeAsk (d : Dev) (u : Use) (variant k app : Nat) : Dev :=
  if !holdsRec d variant then emit d (askAnswer d u 0)
  else answerAsks (bindFor { d with gen := { d.gen with asks := d.gen.asks ++ [u] } } u variant k app)

/-- The first device asks for a request's bind (R195). -/
def takeBindAsk (d : Dev) (tenant id variant app : Nat) : Dev :=
  match slotOfTenant d tenant with
  | none => d
  | some k => takeAsk d (.request k id) variant k app

/-- Take a request's entry off its ring. -/
def unringReq (d : Dev) (q : GenReq) : Dev :=
  if !q.onRing then d
  else
    let d := setReq d { q with onRing := false }
    match keyRing d q.slot with
    | some n => doorbellHead d n (ringNext (ring d n) (ringHead (ring d n)))
    | none => d

/-- The requests of one key slot in arrival order, up to the first that stays pending (DEDUCED: log entry 54). -/
def admitQueue (slot : Nat) : Dev → List GenReq → Dev
  | d, [] => d
  | d, q :: r =>
    let d := unringReq d q
    let (d, pending) := checkReq d { q with onRing := false }
    if pending then d else admitQueue slot d r

/-- Check a tenant's queued requests (R195). -/
def admitSlot (d : Dev) (k : Nat) : Dev :=
  bindAnswers (admitQueue k d (d.gen.reqs.filter (fun q => q.slot == k && q.isQueued)))

/-- A reservation waits for scrubbed frames (R426): some phase would pass but for them. -/
def awaitsFrames (d : Dev) (q : GenReq) : Bool :=
  match q.stage, appAt d q.app with
  | .queued 0x16, some x =>
    !framesRoom d x q && (List.range (chainLen x)).any (fun phi => phaseFree d q phi && quotaRoom d x q phi)
  | _, _ => false

/-- Frames that a reservation has waited for a scrubbed frame; the scrub returns to its place once none waits (R426) (DEDUCED: log entry 110). -/
def scrubCut (d : Dev) : Dev :=
  let n := if d.gen.reqs.any (awaitsFrames d) then d.ev.scrubWait + 1 else 0
  { d with ev := { d.ev with scrubWait := n, scrubPlace := if n = 0 then 0 else d.ev.scrubPlace } }

/-- The admission cut-off: every tenant's queue is checked, and what stays queued has waited a frame more. -/
def admitCut (d : Dev) : Dev :=
  let slots := (d.gen.reqs.filter GenReq.isQueued).map (·.slot) |>.eraseDups
  let d := forEach slots d admitSlot
  let d := scrubCut (bindAnswers d)
  setReqs d (d.gen.reqs.map (fun q =>
    let q := if q.isQueued && !heldUncounted d q then { q with waited := q.waited + 1 } else q
    if q.cancel then { q with cancelSeen := true } else q))

/-- A pending request has waited ADMIT_WAIT frames: refused with its check's code, and those behind it are checked. -/
def admitExpire (d : Dev) (q : GenReq) : Dev :=
  match q.stage with
  | .queued c =>
    if reg d 0x3006 0x00 ≤ q.waited ∧ (c = 0x15 ∨ c = 0x16) then
      let d := setReq d { q with stage := .decided c }
      if d.frame.cut then d else admitSlot d q.slot
    else d
  | _ => d

/-- A variant whose withdrawal has taken effect by step 5 of this edge (R25, R176), or whose record is gone. -/
def variantGone (d : Dev) (q : GenReq) : Bool := q.variant != 0 && (variant d q.variant).all (fun r => r.wd == .done)

/-- Admission: SK is derived, the slot's generation noted, and the tenant told its first planned frame (R196, R206). -/
def activate (d : Dev) (q : GenReq) : Dev :=
  match appAt d q.app with
  | none => refuseReq d q 0x14
  | some x =>
    let key := (keyOfGen (keySlot d q.slot) q.keyGen).getD []
    let sk := leNat ((Config.hmac512 key ([0x53, 0x41, 0x4D, 0x50, 0x4C, 0x45] ++ leBytes 8 q.seed)).take 8)
    let h := haltTotal d q.app
    let first := phaseFrame (chainLen x) q.phase (d.frame.no - h) + h
    let (h, d) := drawNat d
    let (d, q) := openBlocks d x { q with stage := .active, order := d.gen.admitted, sk := sk, first := first, handle := h }
    let d := { d with gen := { d.gen with admitted := d.gen.admitted + 1 } }
    let d := bump (setReq d q) 0x3030 0x04 1
    let d := if 1 < chainLen x then emit d (.admission q.slot q.id) else d
    if q.rollout.isSome then d else respond d q 1 false first (d.frame.no - 1)

/-- Step 7 of R25: endings, cancels and admission results apply; then streamed tokens are reported (R210). -/
def genEdge (d : Dev) : Dev :=
  let d := bindAnswers d
  let d := forEach d.gen.reqs d (fun d q =>
    match q.stage with
    | .ending c => endReq d q c
    | .active =>
      if q.cancelSeen then endReq d q 0x04
      else if d.ink.failed.any (fun s => d.ink.bound.any (fun x => x.1 == Use.request q.slot q.id && x.2.1 == s)) then
        endReq d q stUnavailable
      else d
    | .decided 1 =>
      if variantGone d q then refuseReq d q stWithdrawn
      else if d.frame.tick = .expired then setReq (releaseUse d (.request q.slot q.id)) { q with stage := .queued 0, reserved := 0 }
      else activate d q
    | .decided c => refuseReq d q c
    | _ => d)
  let d := { d with ink := { d.ink with failed := [] } }
  forEach d.gen.reqs d (fun d q =>
    if q.stage = .active ∧ q.rollout.isNone ∧ q.isHolder d ∧ 0 < q.streamFrames ∧ d.frame.no % q.streamFrames = 0 ∧
        q.reported < q.out.length then respond d q 0 false 0 (d.frame.no - 1)
    else d)

/-! ## The sequences in a frame (R173, R198, R204) -/

/-- Slots that a request needs are LIVE on every device (R171, R173). -/
def slotsLive (d : Dev) (q : GenReq) : Bool :=
  q.waiting.isEmpty &&
    (!holdsRec d q.variant ||
      d.ink.bound.any (fun x => x.1 == Use.request q.slot q.id && (slot d x.2.1).st == 2))

/-- A sequence's phase calls for it in a frame (R193). -/
def phaseDue (d : Dev) (q : GenReq) (f : Nat) : Bool :=
  match appAt d q.app with
  | some x => !haltedNext d q.app && (f - haltTotal d q.app) % chainLen x == (q.phase + x.place.stage) % chainLen x
  | none => false

/-- Sequences that are admitted, or will be at the next edge. -/
def GenReq.plannable (q : GenReq) : Bool :=
  match q.stage with
  | .active => true
  | .decided c => c == 1
  | _ => false

/-- The cut-off parks the requests of the next frame whose slots are not LIVE (R173). -/
def parkCut (d : Dev) : Dev :=
  forEach d.gen.reqs d (fun d q =>
    if q.plannable && phaseDue d q (d.frame.no + 1) && q.isHolder d then
      if slotsLive d q then setReq d { q with parked := 0 }
      else timing (bump (setReq d { q with parked := q.parked + 1 }) 0x3130 0x05 1) q.slot 2 1
    else d)

/-- Sequences whose unit the next frame may hold: due and not parked, late in this frame, or slipped with a place (R198, R200). -/
def plannableSeqs (d : Dev) (slips : List Nat) : List Nat :=
  ((d.gen.reqs.filter (fun q => q.plannable && (phaseDue d q (d.frame.no + 1) && (!q.isHolder d || slotsLive d q)))).map seqKey) ++
    d.frame.retry ++ slips.take (reg d 0x3008 0x00)

/-- Rows that a frame plans for a sequence at most: a prefill chunk in prompt order within PREFILL_CHUNK, or one decode row. -/
def unitRows (d : Dev) (q : GenReq) : Nat :=
  if q.rows < q.prompt.length then min (reg d 0x3007 0x00) (q.prompt.length - q.rows) else 1

/-- Every task that works on a sequence has completed. -/
def unitDone (d : Dev) (q : GenReq) : Bool :=
  let mine := (d.frame.tasks.filterMap (·.2)).filter (fun t => t.plan.seqs.contains (seqKey q))
  !mine.isEmpty && mine.all (fun t => t.status == .done)

/-- A plan's end: the rows of units that completed are appended; late ones are not (R32). -/
def seqsEnd (d : Dev) : Dev :=
  forEach d.gen.reqs d (fun d q =>
    if q.planned = 0 then d
    else if unitDone d q then
      let d := if q.rows < q.prompt.length then timing d q.slot 1 q.planned else d
      let (d, q) := addBlocks d q q.planned
      setReq d { q with rows := q.rows + q.planned, planned := 0, sampled := false }
    else setReq d { q with planned := 0, sampled := false })

/-- A plan comes into force: the rows of its sequences. -/
def seqsStart (d : Dev) (rows : Nat → Nat) : Dev :=
  setReqs d (d.gen.reqs.map (fun q =>
    if q.stage = .active ∧ 0 < rows (seqKey q) then { q with planned := rows (seqKey q), sampled := false } else q))

/-! ## Tokens (R199 to R201, R207) -/

/-- The 16-byte record of a sampled token: handle, token, t (R200). -/
def tokenRecord (handle tok t : Nat) : List Byte := leBytes 8 handle ++ leBytes 4 tok ++ leBytes 4 t

/-- A token reaches the chain's first device. -/
def addToken (d : Dev) (q : GenReq) (tok frame : Nat) : Dev := setReq d { q with out := q.out ++ [(tok, frame)] }

/-- An end of a sequence at the last stage: its last token, if it has one, and its status (R201). -/
def endSequence (d : Dev) (q : GenReq) (code : Nat) (last : Option Nat) (many : Bool) : Dev :=
  let d := if many then emit d (.endRecord q.slot q.id code (last.map (fun t => (t, d.frame.no)))) else d
  let out := match last with
    | some t => if q.isHolder d then q.out ++ [(t, d.frame.no)] else q.out
    | none => q.out
  setReq d { q with out := out, stage := .ending code, sampled := true }

/-- Stage L − 1 samples the token of a completed unit (R207): the last prompt chunk's or a decode row's; an earlier chunk's row
gives none. -/
def tokenSample (d : Dev) (q : GenReq) (logits : List Word) : Dev :=
  match appAt d q.app with
  | none => d
  | some x =>
    let l := chainLen x
    if q.stage ≠ .active ∨ q.planned = 0 ∨ q.sampled ∨ x.place.stage + 1 ≠ l ∨ logits.length ≠ x.book.vocab ∨ !unitDone d q then d
    else
      let t := q.rows + q.planned
      if t < q.prompt.length then setReq d { q with sampled := true }
      else if logits.any (fun w => !isFinite w) then endSequence d q 0x05 none (1 < l)
      else
        let tok := sampleToken q.sk t q.temp q.topK q.topP logits
        let d := timing (bump d 0x3030 0x06 1) q.slot 0 1
        let q := if q.rollout.isSome then { q with lps := q.lps ++ [logProb q.temp logits tok] } else q
        if q.stops.contains tok then endSequence d q 0x02 (some tok) (1 < l)
        else if q.maxNew ≤ t + 1 - q.prompt.length then endSequence d q 0x03 (some tok) (1 < l)
        else
          let q := { q with sampled := true }
          if q.isHolder d then addToken d q tok d.frame.no
          else emit (setReq d q) (.token (tokenRecord q.handle tok t)
            (phaseFrame l q.phase (d.frame.no + 1 - haltTotal d q.app) + haltTotal d q.app))

/-- A sampled token's record arrives at stage 0 (R200): it was sampled in the frame before its stamp, or, where its phase comes later, in
this one (DEDUCED: log entry 174). -/
def tokenArrives (d : Dev) (handle tok t stamp : Nat) : Dev :=
  match d.gen.reqs.find? (fun q => q.handle == handle && q.stage == .active) with
  | some q => if q.isHolder d ∧ t = q.prompt.length + q.out.length then addToken d q tok (min (stamp - 1) d.frame.no) else d
  | none => d

/-- An end record arrives (R201): the sequence ends at the next edge. -/
def endArrives (d : Dev) (q : GenReq) (status : Nat) (last : Option (Nat × Nat)) : Dev :=
  if q.stage ≠ .active then d
  else
    let out := match last with
      | some x => if q.isHolder d then q.out ++ [x] else q.out
      | none => q.out
    setReq d { q with out := out, stage := .ending status }

/-! ## The commands -/

/-- A GENERATE that another device serves goes on (R189); else it is queued, and checked unless the cut-off of the frame is past or an
earlier request of its tenant is pending. -/
def queueGenerate (d : Dev) (e : Env) (k : Nat) (body : List Byte) : Dev :=
  let q := genReq d e k body (e.source != 2 && (keyRing d k).isSome)
  let d := setReqs d (d.gen.reqs ++ [q])
  if d.frame.cut then d else admitSlot d k

def generate (d : Dev) (e : Env) (k : Nat) (body : List Byte) : Dev :=
  if goesOn d (appFor d k (leNat (body.take 4))) then forwardEnv (unring d e k) e k body else queueGenerate d e k body

/-- The request that a CANCEL names is another device's (R189): it went on, or is another chain's, or this device serves it at a later
stage. -/
def cancelGoesOn (d : Dev) (e : Env) (k : Nat) : Bool :=
  match findReq d k e.id with
  | some q => !q.isHolder d
  | none => match (filterOf d k).find? (fun r => r.id == e.id) with
    | some r => r.away
    | none => goesOn d none

/-- A CANCEL that has passed intake (R197): a request not yet admitted goes at once; an admitted one ends at the edge after the next
admission cut-off. -/
def cancel (d : Dev) (e : Env) (k : Nat) : Dev :=
  let d := unring d e k
  if cancelGoesOn d e k then forwardEnv d e k []
  else match findReq d k e.id with
    | none => answerEnv d e k 0x06 0 d.frame.no []
    | some q =>
      match q.stage with
      | .ending _ => d
      | .active => setReq d { q with cancel := true }
      | _ =>
        let d := releaseUse (tellEnd (unringReq d q) q 0x04) (.request k e.id)
        dropReq (respond d q 0x04 true d.frame.no d.frame.no) q

/-- An intake entry forwarded over Ligature enters this device's intake ring, its envelope opened (R189): a GENERATE is queued and a CANCEL
served at once; the other kinds wait for their commands. -/
def intakeForward (d : Dev) (x : BitVec 1024) (body : List Byte) : Dev :=
  let e := envOf x body
  match slotOfTenant d e.tenant with
  | none => bump d 0x3030 0x01 1
  | some k =>
    let ring := keyRing d k
    if e.kind < 1 ∨ 0x0B < e.kind then bump d 0x3030 0x01 1
    else if ring.any (fun n => ringFull (Machine.ring d n)) then notice d e k 0x1B
    else
      let d := match ring with
        | some n => ringPush d n (leBytes 128 (intakeEntry d e).toNat)
        | none => d
      match e.kind with
      | 1 => queueGenerate d e k body
      | 2 => cancel d e k
      | _ => { d with gen := { d.gen with opened := d.gen.opened ++ [(e, k, body)] } }

/-- An envelope command: what it does with an envelope that passes intake. -/
def onEnvelope (op : EnvOp) (kind : Nat) (s : State) (f : Dev → Env → Nat → List Byte → Dev) : Host.Outcome State Fault Refusal :=
  onDev s (fun d => match takeEnv (atOff d op.off) op.env kind with
    | .error d => d
    | .ok (d, e, k, body) => f d e k body)

def execGenerate (op : EnvOp) (s : State) : Host.Outcome State Fault Refusal := onEnvelope op 0x01 s generate

def execCancel (op : EnvOp) (s : State) : Host.Outcome State Fault Refusal := onEnvelope op 0x02 s (fun d e k _ => cancel d e k)

def execIntakeForward (op : ForwardOp) (s : State) : Host.Outcome State Fault Refusal :=
  onDev s (fun d => intakeForward (atOff d op.off) op.entry op.body)

def execAdmitWaitExpiry (op : ReqOp) (s : State) : Host.Outcome State Fault Refusal :=
  onDev s (fun d =>
    let d := atOff d op.off
    match findReq d op.slot op.id with
    | some q => admitExpire d q
    | none => d)

/-- A request parked PARK_LIMIT planned frames in a row ends at the next edge (R173). -/
def execParkLimitExpiry (op : ReqOp) (s : State) : Host.Outcome State Fault Refusal :=
  onDev s (fun d =>
    let d := atOff d op.off
    match findReq d op.slot op.id with
    | some q => if q.stage = .active ∧ d.ink.parkLimit ≤ q.parked then setReq d { q with stage := .ending stUnavailable } else d
    | none => d)

def execTokenSample (op : SampleOp) (s : State) : Host.Outcome State Fault Refusal :=
  onDev s (fun d =>
    let d := atOff d op.off
    match findReq d op.slot op.id with
    | some q => tokenSample d q op.logits
    | none => d)

def execEndRecord (op : EndOp) (s : State) : Host.Outcome State Fault Refusal :=
  onDev s (fun d =>
    let d := atOff d op.off
    match findReq d op.slot op.id with
    | some q => endArrives d q op.status op.last
    | none => releaseUse d (.request op.slot op.id))

/-- A chain device's report that its slot is LIVE (R171), taken into account at the next cut-off. -/
def execSlotLiveReport (op : LiveReportOp) (s : State) : Host.Outcome State Fault Refusal :=
  onDev s (fun d =>
    let d := atOff d op.off
    match findReq d op.slot op.id with
    | some q => setReq d { q with waiting := q.waiting.filter (· ≠ op.device) }
    | none => d)

end Sys2Proof.Machine
end

