-- ==== Sys2Proof/Machine/Variants.lean ====
section
/-!
DEFINITION. Variant records: their layout in DDR and the Blotter's banks (R158 to R162, R180, R241, R242, R248), registration,
replacement, release, withdrawal and the version flip (R157, R176, R177, R478, R479).
-/
namespace Sys2Proof.Machine
open Sys2Proof

/-! ## Fields (R158, R160, R242) -/

def VarRec.id (r : VarRec) : Nat := field r.hdr 0 32
def VarRec.baseId (r : VarRec) : Nat := field r.hdr 64 32
def VarRec.baseGen (r : VarRec) : Nat := field r.hdr 96 16
def VarRec.isReward (r : VarRec) : Bool := field r.hdr 161 1 = 1
def VarRec.trainable (r : VarRec) : Bool := field r.hdr 162 1 = 1
def VarRec.width (r : VarRec) : Nat := field r.hdr 192 16
def VarRec.layer (r : VarRec) (i : Nat) : Nat := field r.hdr (256 + 8 * i) 8
def VarRec.masterDva (r : VarRec) : Nat := field r.hdr 384 48
def VarRec.optDva (r : VarRec) : Nat := field r.hdr 432 48
def VarRec.patchDva (r : VarRec) : Nat := field r.hdr 480 48
def VarRec.liveDva (r : VarRec) (b : Bool) : Nat := if b then field r.hdr 576 48 else field r.hdr 528 48
def VarRec.setHdr (r : VarRec) (lo len x : Nat) : VarRec := { r with hdr := setField r.hdr lo len x }

abbrev PatchDef := BitVec 256
def PatchDef.layer (p : PatchDef) : Nat := field p 0 8
def PatchDef.matrix (p : PatchDef) : Nat := field p 8 4
def PatchDef.blocks (p : PatchDef) : Bool := field p 12 1 = 1
def PatchDef.count (p : PatchDef) : Nat := field p 16 7
def PatchDef.masterOff (p : PatchDef) : Nat := field p 80 32
def PatchDef.liveOff (p : PatchDef) : Nat := field p 112 32

abbrev BankHdr := BitVec 512
def BankHdr.version (b : BankHdr) : Nat := field b 0 32
def BankHdr.step (b : BankHdr) : Nat := field b 32 32
def BankHdr.updates (b : BankHdr) : Nat := field b 64 32
def BankHdr.valid (b : BankHdr) : Bool := field b 96 1 = 1
def BankHdr.held (b : BankHdr) : Bool := field b 97 1 = 1
/-- A bank header before anything has been written in it (R242). -/
def bankReset : BankHdr := BitVec.ofNat 512 (0xFFFFFFFF <<< 32)

/-- The header of bank A (false) or B (true). -/
def VarRec.bank (r : VarRec) (b : Bool) : BankHdr := if b then r.bankB else r.bankA
def VarRec.setBank (r : VarRec) (b : Bool) (h : BankHdr) : VarRec := if b then { r with bankB := h } else { r with bankA := h }

/-! ## Matrices and optimiser rows -/

def bookMatrix (c : Copybook) (layer number : Nat) : Option MatrixInfo :=
  c.matrices.find? (fun m => m.layer == layer && m.number == number)

/-- N of the matrix a definition patches. -/
def patchN (c : Copybook) (p : PatchDef) : Nat := ((bookMatrix c p.layer p.matrix).map (·.n)).getD 0

/-- Master elements of a definition. -/
def patchElems (c : Copybook) (p : PatchDef) : Nat := if p.blocks then 16384 * p.count else patchN c p * p.count

/-- An optimiser row (R242): first master element, length, the row key ρ of R247, its first column position, and the tensor it
belongs to: steering vector i, or nLayers + definition. -/
structure OptRow where
  start : Nat
  len : Nat
  rho : Nat
  j0 : Nat
  tensor : Nat
  deriving DecidableEq, Repr

/-- Pieces of at most 65,536 elements of a ROWS patch's row. -/
def rowPieces (start len rho tensor : Nat) : List OptRow :=
  (List.range ((len + 65535) / 65536)).map (fun k =>
    { start := start + 65536 * k, len := min 65536 (len - 65536 * k), rho := rho, j0 := 65536 * k, tensor := tensor })

/-- Optimiser rows of a definition whose masters begin at an element. -/
def patchRows (c : Copybook) (p : PatchDef) (start tensor : Nat) : List OptRow :=
  let key := p.layer * 2 ^ 24 + (1 + p.matrix) * 2 ^ 19
  if p.blocks then
    (List.range (128 * p.count)).map (fun q => { start := start + 128 * q, len := 128, rho := key + q, j0 := 0, tensor := tensor })
  else (List.range p.count).flatMap (fun i => rowPieces (start + i * patchN c p) (patchN c p) (key + i) tensor)

def steerRows (r : VarRec) : List OptRow :=
  (List.range r.nLayers).map (fun i =>
    { start := i * r.width, len := r.width, rho := r.layer i * 2 ^ 24, j0 := 0, tensor := i })

/-- Definitions with their numbers, in master order: by MASTER_OFF (R159). -/
def byMaster (ps : List PatchDef) : List (PatchDef × Nat) := sortBy (fun x => PatchDef.masterOff x.1) ps.zipIdx

/-- First master element of a definition (R159). -/
def PatchDef.start (p : PatchDef) : Nat := p.masterOff / 4

/-- The masters of the definitions follow those of the steering vectors without a gap or an overlap, E elements in all (R159, R241)
(DEDUCED: log entry 162). -/
def mastersTile (c : Copybook) : Nat → List PatchDef → Bool
  | _, [] => true
  | k, p :: r => PatchDef.masterOff p == 4 * k && mastersTile c (k + patchElems c p) r

/-- Every optimiser row of a record in master order. -/
def optRows (c : Copybook) (r : VarRec) : List OptRow :=
  steerRows r ++ (byMaster r.patches).flatMap (fun x => patchRows c x.1 x.1.start (r.nLayers + x.2))

/-- E of R241. -/
def masterElems (c : Copybook) (r : VarRec) : Nat := r.nLayers * r.width + (r.patches.map (patchElems c)).sum

def pad256 (n : Nat) : Nat := (n + 255) / 256 * 256

/-- Master and optimiser bank lengths, and where banks begin (R241, R242). -/
def masterBank (c : Copybook) (r : VarRec) (b : Bool) : Nat :=
  r.masterDva + if b then pad256 (4 * masterElems c r) else 0
def optBank (c : Copybook) (r : VarRec) (b : Bool) : Nat :=
  r.optDva + if b then pad256 (64 + 2 * masterElems c r + 8 * (optRows c r).length) else 0
/-- Code run of an optimiser row: its first-moment codes, then its second-moment codes. -/
def momentAt (c : Copybook) (r : VarRec) (b : Bool) (o : OptRow) : Nat := optBank c r b + 64 + 2 * o.start
def scaleAt (c : Copybook) (r : VarRec) (b : Bool) (q : Nat) : Nat := optBank c r b + 64 + 2 * masterElems c r + 8 * q

/-! ## Records in DDR -/

/-- FP32 words at a DVA. -/
def peekWords (d : Dev) (app a n : Nat) : List Word :=
  (List.range n).map (fun k => BitVec.ofNat 32 (leNat (peekDva d app (a + 4 * k) 4)))
def wordBytes (ws : List Word) : List Byte := ws.flatMap (fun w => leBytes 4 w.toNat)

/-- The master at element k of a list, +0 beyond. -/
def wordAt (ws : List Word) (k : Nat) : Word := (ws[k]?).getD 0

/-! ## Copies that tasks read (R180, R248) -/

/-- E4M3 codes of a column with their EXACT scale at h = 0; a column of zeros takes 1.0. -/
def codeColumn (xs : List Word) : List Byte × Word :=
  let m := maxAbs xs
  let s := if fabs m = 0 then 0x3F800000#32 else scaleWord (clog m - 8)
  (xs.map (fun x => BitVec.ofNat 8 (encodeElem 3 x (toNum s) (.fin false 1 0) 0).code), s)

/-- One definition's live copy (R180). -/
def liveCopy (c : Copybook) (p : PatchDef) (ms : List Word) : List Byte :=
  if p.blocks then
    (List.range p.count).flatMap (fun b =>
      let cols := (List.range 128).map (fun n => codeColumn ((ms.drop (16384 * b + 128 * n)).take 128))
      cols.flatMap (·.1) ++ wordBytes (cols.map (·.2)))
  else
    let n := patchN c p
    let pad := if p.count ≤ 32 then 32 else 64
    let cols := (List.range n).map (fun j => codeColumn ((List.range p.count).map (fun i => wordAt ms (i * n + j))))
    cols.flatMap (fun x => x.1 ++ List.replicate (pad - p.count) 0) ++ wordBytes (cols.map (·.2))

/-- Write a bank's patch live buffer from its masters. -/
def writeLive (d : Dev) (c : Copybook) (r : VarRec) (b : Bool) (masters : List Word) : Dev :=
  forEach r.patches d (fun d p =>
    pokeDva d r.app (r.liveDva b + PatchDef.liveOff p) (liveCopy c p ((masters.drop (PatchDef.start p)).take (patchElems c p))))

/-- Write a slot half from the steering masters (R162, R248). -/
def writeSlotHalf (d : Dev) (r : VarRec) (s : Nat) (b : Bool) (masters : List Word) : Dev :=
  let parts := partsOf d r.app
  let p := parts.length
  let rank := (appSlots d r.app).idxOf s
  let per := r.width / (4 * p)
  let base := reg d 0x3101 (r.app + 1) - inkBase + rank * (16384 / p) + (if b then 8192 / p else 0)
  { d with mem := { d.mem with ink := ((masters.take (r.nLayers * r.width)).zipIdx).foldl (fun t x =>
      let i := x.2 / r.width
      let col := x.2 % r.width
      let k := col / per
      let cl := ((appClusters d r.app)[k]?).getD 0
      writeBytes t (cl * inkSize + base + i * (2 * per) + 2 * (col % per)) (leBytes 2 (bf16.round (toNum x.1)))) d.mem.ink } }

/-! ## Fills (R172, R177, R329) -/

/-- The copies that fill a half of a slot from its master bank: cluster, source DVA, operand-space address, elements. -/
def halfCopies (d : Dev) (r : VarRec) (s : Nat) (b : Bool) : List (Nat × Nat × Nat × Nat) :=
  match appAt d r.app with
  | none => []
  | some x =>
    let p := (partsOf d r.app).length
    let per := r.width / (4 * p)
    let base := reg d 0x3101 (r.app + 1) + (appSlots d r.app).idxOf s * (16384 / p) + (if b then 8192 / p else 0)
    (appClusters d r.app).zipIdx.flatMap (fun y => (List.range r.nLayers).map (fun i =>
      (y.1, masterBank x.book r b + 4 * (i * r.width + y.2 * per), base + i * (2 * per), per)))

/-- Every copy of a slot's fill. -/
def fillCopies (d : Dev) (s : Nat) : List (Nat × Nat × Nat × Nat) :=
  match variant d (slot d s).owner with
  | none => []
  | some r => [false, true].flatMap (fun b => if d.ink.halves.get 0 s / halfBit b % 2 = 1 then halfCopies d r s b else [])

/-- A descriptor is one of these copies: FP32 to BF16, in one run (R140, R172). -/
def isFillCopy (x : Nat × Nat × Nat × Nat) (y : Nat × BitVec 512) : Bool :=
  let v : XferDesc := y.2
  y.1 == x.1 && v.opcode == 0x30 && v.srcKind == 0 && v.dstKind == 1 && v.fmtSrc == 0 && v.fmtDst == 1 && v.n == 0 &&
    (v.strideRaw 0 == 0 || v.strideRaw 0 == 4) && v.src == x.2.1 && v.dst % 2 ^ 26 == x.2.2.1 && v.size 0 == x.2.2.2

def fillWhole (d : Dev) (s : Nat) : Bool :=
  (fillCopies d s).all (fun x => (d.ink.fillDone.get [] s).any (isFillCopy x))

/-- A fill has completed on every cluster of the application: the slot is LIVE, and chain devices report it (R171). A check fill
(R329) leaves the slot LIVE as it is. One that copies nothing needs no window. -/
def fillComplete (d : Dev) (s : Nat) : Dev :=
  let e := slot d s
  let copies := fillCopies d s
  let done := { d with ink := { d.ink with fills := d.ink.fills.filter (fun f => f.slot != s), fillDone := d.ink.fillDone.set [] s [] } }
  if (slotApp d s).isNone || (d.ink.fills.any (fun f => f.slot == s) && !copies.isEmpty) || !fillWhole d s || d.ink.halves.get 0 s == 0 then d
  else if e.st = 2 then bump { done with ink := { done.ink with halves := done.ink.halves.set 0 s 0 } } 0x3130 0x03 1
  else if e.st = 1 then
    let d := setSlot { done with ink := { done.ink with halves := done.ink.halves.set 0 s 0 } } s
      (setField (setField e 48 2 2) 96 32 d.frame.no)
    let d := raise (bump d 0x3130 0x03 1) (partSrc (s / 512) 16) 0 s
    reportLive d (fun u => d.ink.bound.any (fun x => x.1 == u && x.2.1 == s))
  else d

/-- Fills at an edge: unfinished ones are carried; one that a task failed is queued again, from its start (R64, R172); the windows of
the frame end. -/
def fillsEdge (d : Dev) : Dev :=
  let filling := (d.ink.windows.map (fun x => x.2 - 1)).eraseDups.filter (fun s => (slot d s).st == 1 || (slot d s).st == 2)
  let carried := ((d.frame.carried.filterMap (fun id => (task d id).bind (fun t => fillOf d t.plan))).eraseDups).filter (filling.contains ·)
  let again := filling.filter (fun s => !carried.contains s && !fillWhole d s && d.ink.halves.get 0 s != 0 &&
    d.ink.fills.all (fun f => f.slot != s))
  let d := { d with ink := { d.ink with
    fills := carried.map (fun s => ⟨s, true⟩) ++ d.ink.fills.filter (fun f => !carried.contains f.slot), windows := [] } }
  forEach again d (fun d s => queueFill d s (d.ink.halves.get 0 s))

/-! ## Registration (R154 to R162) -/

/-- Records that the device holds: those with a part for a layer of its own (R157); the others say only that the variant is
registered on the chain (R195) (DEDUCED: log entry 163). -/
def recsHeld (d : Dev) : Nat := (d.ink.recs.filter (fun x => x.2.any VarRec.held)).length
def countRecs (d : Dev) : Dev := setReg d 0x3110 0x00 (recsHeld d)

/-- Strictly rising. -/
def rising : List Nat → Bool
  | a :: b :: r => a < b && rising (b :: r)
  | _ => true

/-- A definition and its list (R156, R160). -/
def patchOk (c : Copybook) (p : PatchDef) (l : List Nat) : Bool :=
  match bookMatrix c p.layer p.matrix with
  | none => false
  | some m =>
    c.layers.contains p.layer && 1 ≤ p.count && p.count ≤ 64 && l.length == p.count && m.k % 128 == 0 && m.n % 128 == 0 && rising l &&
      (if p.blocks then l.all (fun x => x / 256 < m.k / 128 && x % 256 < m.n / 128) else l.all (· < m.k))

/-- A check set as R328 lays it out: its header, then its probes. -/
def checkBytes (c : CheckSet) : List Byte :=
  leBytes 2 c.probes.length ++ leBytes 2 0 ++ wordBytes [c.tolLp, c.tolMatch] ++ leBytes 20 0 ++
    c.probes.flatMap (fun p => leBytes 4 p.prompt.length ++ leBytes 4 p.ref.length ++ wordBytes [p.expLp, p.expMatch] ++
      (p.prompt ++ p.ref).flatMap (leBytes 4))

/-- The ranges of a check set: 1 to 256 probes, TOL_LP at least 0, TOL_MATCH in [0, 1] (R328). -/
def checkOk (c : CheckSet) : Bool :=
  let atLeast0 := fun (w : Word) => !isNan w && (decide (w.toNat < 2 ^ 31) || w == 0x80000000#32)
  decide (1 ≤ c.probes.length) && decide (c.probes.length ≤ 256) && atLeast0 c.tolLp && atLeast0 c.tolMatch &&
    decide (orderKey c.tolMatch ≤ orderKey 0x3F800000#32)

/-- The record meets R154, R156, R158, R160 and the width conditions of R162, and its check set is whole (R157, R328). A BLOCKS pair is 256·kb + nb. -/
def recordOk (d : Dev) (x : App) (tenant key : Nat) (op : RegOp) (fresh : Bool) : Bool :=
  let h := op.header
  let c := x.book
  let n := field h 163 5
  let np := field h 168 5
  let w := field h 192 16
  let p := (partsOf d op.app).length
  let layers := (List.range 16).map (fun i => field h (256 + 8 * i) 8)
  let v := field h 0 32
  op.whole && v != 0 && v != 0xFFFFFFFF && (!fresh || (variant d v).isNone) && field h 32 16 == tenant && field h 48 12 == key &&
    field h 208 16 == op.pages.length && n ≤ 16 && np ≤ 16 && w == c.hidden && rising (layers.take n) && (layers.take n).all (fun l => c.layers.contains l) &&
    (layers.drop n).all (· == 255) && np == op.patches.length && op.lists.length == np &&
    (op.patches.zip op.lists).all (fun y => patchOk c y.1 y.2) &&
    ((op.patches.map (fun y => (PatchDef.layer y, PatchDef.matrix y))).eraseDups).length == np &&
    op.check.isSome == (field h 624 48 != 0) && op.check.all checkOk &&
    w % (64 * p) == 0 && n * w ≤ 16384 && mastersTile c (n * w) ((byMaster op.patches).map (·.1)) &&
    op.masters.length == n * w + (op.patches.map (patchElems c)).sum

/-- A word with runs of bits zero: reserved bits read as zero (R11). -/
def clearBits {w : Nat} (v : BitVec w) (l : List (Nat × Nat)) : BitVec w := l.foldl (fun v x => setField v x.1 x.2 0) v
def cleanHdr (h : BitVec 2048) : BitVec 2048 := clearBits h [(60, 4), (112, 16), (174, 18), (224, 32), (672, 1376)]
def cleanPatch (p : PatchDef) : PatchDef := clearBits p [(13, 3), (23, 9), (144, 112)]

/-- The pages of a record in the frames that firmware gives them, under its key, its patch definitions with their lists, and its check
set (R159, R160, R328). -/
def placeRec (d : Dev) (r : VarRec) (frames : List (Nat × Nat)) : Dev :=
  let d := forEach frames d (fun d y =>
    writePte d r.app y.1 (BitVec.ofNat 64 (packBits [(0, 1, 1), (1, 1, 1), (8, 12, r.key), (20, 22, y.2)])))
  let d := pokeDva d r.app r.patchDva (r.patches.flatMap (fun p => leBytes 32 p.toNat))
  let d := pokeDva d r.app (field r.hdr 624 48) (r.check.elim [] checkBytes)
  forEach (r.patches.zip r.lists) d (fun d y =>
    pokeDva d r.app (field y.1 32 48) (y.2.flatMap (fun x =>
      if PatchDef.blocks y.1 then leBytes 1 (x / 256) ++ leBytes 1 (x % 256) else leBytes 2 x)))

/-- Put a record in force (R158, R242): VERSION 0 in bank A, bound to the live base; the moments zero with scales 1.0. -/
def installRec (d : Dev) (x : App) (op : RegOp) : Dev :=
  let c := x.book
  let op := { op with patches := op.patches.map cleanPatch }
  let h := setField (setField (setField (setField (cleanHdr op.header) 64 32 c.baseId) 96 16 c.baseGen) 128 33 0) 173 1 0
  let r : VarRec :=
    { hdr := h, app := op.app, home := op.home, patches := op.patches, lists := op.lists,
      bankA := setField (setField bankReset 96 1 1) 224 32 0x3F800000, bankB := bankReset, ready := op.patches.isEmpty,
      others := op.others, wd := .none, release := [], next := [], flipAt := 0, flipSeen := false, check := op.check,
      pages := op.pages.map (·.1) }
  let d := pokeDva (placeRec d r op.pages) op.app (masterBank c r false) (wordBytes op.masters)
  let d := pokeDva d op.app (optBank c r false + 64) (List.replicate (2 * masterElems c r) 0)
  let d := pokeDva d op.app (scaleAt c r false 0) (wordBytes (List.replicate (2 * (optRows c r).length) 0x3F800000#32))
  let d := writeLive d c r false op.masters
  countRecs (setVariant d r.id (some r))

/-- Free a record's pages (R478, R479). -/
def freeRecord (d : Dev) (r : VarRec) : Dev :=
  forEach r.pages d (fun d page =>
    let e := pte d r.app page
    freeFrame (writePte d r.app page 0) e.pfn)

/-- The report that an answer to a registration, replacement or release carries: 8 bytes with REGISTERED, RELEASED, REGISTER_REFUSED and
REGISTRY_FULL (R209), 64 with JOB_ACTIVE (R217), else none. -/
def regReport (code v : Nat) : List Byte :=
  if code = 0x1E ∨ code = 0x25 ∨ code = 0x1D ∨ code = 0x1C then leBytes 8 v else if code = 0x36 then leBytes 64 v else []

/-- An answer to an envelope, for an edge to come. -/
def envAnswer (e : Env) (slot code v : Nat) : Resp := envResp e slot code 0 0 (regReport code v)

/-- The chain's first device answers for the whole chain (R195): the others take their parts of a record without an answer. -/
def sayFirst (d : Dev) (app : Nat) (e : Env) (k code v : Nat) : Dev :=
  if (appAt d app).any (fun x => x.place.stage != 0) then d else answerEnv d e k code d.frame.no d.frame.no (regReport code v)

/-- A registration that has come through intake: refused, or in force at once. -/
def registerNow (d : Dev) (k : Nat) (op : RegOp) : Dev :=
  let say := fun d => sayFirst d op.app op.env k
  match appAt d op.app with
  | none => say d 0x1D 0
  | some x =>
    if !recordOk d x op.env.tenant k op true then say d 0x1D 0
    else if 262144 ≤ recsHeld d then say d 0x1C 0
    else say (installRec d x op) 0x1E (field op.header 0 32)

def hasJob (d : Dev) (v : Nat) : Bool := d.train.jobs.any (fun j => j.variant == v)

/-- A replacement that has come through intake (R478). -/
def replaceNow (d : Dev) (k : Nat) (op : RegOp) : Dev :=
  let v := field op.header 0 32
  let say := fun code => sayFirst d op.app op.env k code v
  match variant d v with
  | none => say 0x10
  | some r =>
    if r.key ≠ k then say 0x10
    else if r.withdrawn then say 0x11
    else if hasJob d v then say 0x36
    else match appAt d op.app with
      | none => say 0x1D
      | some x =>
        if !recordOk d x op.env.tenant k op false then say 0x1D
        else
          setVariant d v (some { r with next := r.next ++ [{ reg := op, answer := envAnswer op.env k 0x1E v, cutPassed := false }] })

/-- A base replacement of the application holds registrations (R325). -/
def holdsRegs (d : Dev) (app : Nat) : Bool := d.base.any (fun x => x.1 == app && x.2.holdRegs)

def holdReg (d : Dev) (op : RegOp) (k : Nat) (rep : Bool) : Dev :=
  { d with ink := { d.ink with heldRegs := d.ink.heldRegs ++ [(op, k, rep)] } }

/-! ## Withdrawal (R176) and release (R479) -/

/-- Order a withdrawal. -/
def orderWithdraw (d : Dev) (v : Nat) : Dev :=
  match variant d v with
  | none => d
  | some r =>
    if r.wd ≠ .none then d
    else withdrawSlot (setVariant d v (some { r with wd := .ordered })) v

/-- Every variant of a key slot (R176, R362). -/
def withdrawSlotVariants (d : Dev) (k : Nat) : Dev :=
  forEach (d.ink.recs.filterMap (fun x => match x.2 with
    | some r => if r.key = k then some x.1 else none
    | none => none)) d orderWithdraw

/-- A RELEASE_VARIANT that has come through intake. -/
def releaseNow (d : Dev) (e : Env) (k : Nat) (v : Nat) : Dev :=
  match variant d v with
  | none => answerEnv d e k 0x10 d.frame.no d.frame.no []
  | some r =>
    if r.key ≠ k then answerEnv d e k 0x10 d.frame.no d.frame.no []
    else
      let wd := if r.wd = .done then Withdrawal.none else r.wd
      orderWithdraw (setVariant d v (some { r with release := r.release ++ [envAnswer e k 0x25 v], wd := wd })) v

/-- The cut-off sees withdrawals, replacements and flips (R176, R177, R478), and takes the plan's parameters (R182). -/
def variantsCut (d : Dev) : Dev :=
  { d with ink := { d.ink with retries := reg d 0x3105 0x00, parkLimit := reg d 0x3104 0x00, recs := d.ink.recs.map (fun x => (x.1, x.2.map (fun r =>
      { r with wd := if r.wd = .ordered then .seen else r.wd,
               flipSeen := r.flipSeen || (r.flip && r.flipAt ≤ d.frame.no + 1),
               next := r.next.map (fun n => { n with cutPassed := true }) }))) } }

/-- An answer made at this edge for the frame that ended (R210), by the chain's first device. -/
def answerEdge (app : Nat) (d : Dev) (r : Resp) : Dev :=
  if (appAt d app).any (fun x => x.place.stage != 0) then d else addResp d { r with ref := d.frame.no, made := d.frame.no - 1 }

/-- Variants whose withdrawal takes effect at this edge. -/
def withdrawSeen (d : Dev) : List Nat :=
  d.ink.recs.filterMap (fun x => match x.2 with
    | some r => if r.wd = .seen then some x.1 else none
    | none => none)

/-- Requests of a variant end with a status: the active ones, and those that this edge was to admit. -/
def endVariantReqs (d : Dev) (v code : Nat) : Dev :=
  forEach (d.gen.reqs.filter (fun q => q.variant == v && (match q.stage with
    | .active => true
    | .ending _ => true
    | .decided c => c == 1
    | _ => false))) d (fun d q => if q.stage = .decided 1 then refuseReq d q code else endReq d q code)

/-- Requests of a variant that wait for their slot are checked again, against the new record (R478). -/
def requeueBinds (d : Dev) (v : Nat) : Dev :=
  forEach (d.gen.reqs.filter (fun q => q.variant == v && q.stage == .binding)) d (fun d q =>
    setReq (releaseUse d (.request q.slot q.id)) { q with stage := .queued 0, reserved := 0, waiting := [] })

/-- A withdrawal takes effect (R176): requests end, the flip is dropped, the slot drains, a released record goes. -/
def withdrawEffect (d : Dev) (v : Nat) : Dev :=
  match variant d v with
  | none => d
  | some r =>
    let d := endVariantReqs d v stWithdrawn
    let d := if r.flip then bump d 0x6050 0x02 1 else d
    let r' := { (r.setHdr 173 1 0) with wd := .done, flipSeen := false, release := [] }
    let d := match ownedSlot d v with
      | some s => drainSlot (setSlot d s (setField (slot d s) 51 1 0)) s
      | none => d
    if r.release.isEmpty then setVariant d v (some r')
    else countRecs (forEach r.release (setVariant (freeRecord d r) v none) (answerEdge r.app))

/-- One accepted replacement takes effect; those accepted after it stay with the new record. -/
def replaceOne (d : Dev) (v : Nat) (n : NextRec) : Dev :=
  match variant d v, appAt d n.reg.app with
  | some r, some x =>
    let d := requeueBinds (endVariantReqs d v stWithdrawn) v
    let d := match ownedSlot d v with
      | some s => drainSlot (setSlot d s (setField (slot d s) 51 1 0)) s
      | none => d
    let d := installRec (setVariant (freeRecord d r) v none) x n.reg
    answerEdge n.reg.app (setVariant d v ((variant d v).map (fun y => { y with next := r.next.tail }))) n.answer
  | _, _ => d

/-- Accepted replacements take effect once a cut-off has passed since (R478). -/
def replaceEffect (d : Dev) (v : Nat) : Dev :=
  forEach ((variant d v).elim [] (fun r => r.next.filter (·.cutPassed))) d (fun d n => replaceOne d v n)

/-- Version 0 of a record's patches is written by the housekeeping pass of the frame (R180). -/
def readyEdge (d : Dev) : Dev :=
  { d with ink := { d.ink with recs := d.ink.recs.map (fun x => (x.1, x.2.map (fun r => { r with ready := true }))) } }

/-! ## The flip (R177, R250) -/

/-- A flip becomes pending for an edge. -/
def makeFlip (d : Dev) (v edge : Nat) : Dev :=
  match variant d v with
  | none => d
  | some r =>
    if !(r.bank (!r.liveB)).valid || r.wd == .done then d
    else
      let d := setVariant d v (some { (r.setHdr 173 1 1) with flipAt := edge })
      match ownedSlot d v with
      | some s => if (slot d s).st = 3 then d else setSlot d s (setField (slot d s) 51 1 1)
      | none => d

/-- Variants whose flip takes place at this edge (step 6). -/
def flipsDue (d : Dev) : List Nat :=
  d.ink.recs.filterMap (fun x => match x.2 with
    | some r => if r.flip ∧ r.flipSeen then some x.1 else none
    | none => none)

/-- The flip: LIVE_BUF toggles in record and slot, VERSION rises by one, the new live bank's LIVE_FRAME is written. -/
def flipEffect (d : Dev) (v : Nat) : Dev :=
  match variant d v with
  | none => d
  | some r =>
    let b := !r.liveB
    let r1 := ((r.setHdr 173 1 0).setHdr 160 1 (b2n b)).setHdr 128 32 (r.version + 1)
    let r2 := { r1.setBank b (setField (r.bank b) 128 64 d.frame.no) with flipSeen := false }
    let d := bump (setVariant d v (some r2)) 0x6050 0x01 1
    match ownedSlot d v with
    | some s =>
      let e := slot d s
      if e.flip then setSlot d s (setField (setField e 51 1 0) 50 1 (b2n b)) else d
    | none => d

/-! ## The commands -/

/-- The first device of a chain passes an envelope on to the devices that hold parts of its variant (R157, R195). -/
def alongChain (d : Dev) (app : Nat) (others : List Nat) (e : Env) (body : List Byte) : Dev :=
  if others.isEmpty || (appAt d app).any (fun x => x.place.stage != 0) then d else emit d (.forward (intakeEntry d e) body)

/-- A registration or replacement that has passed intake (R157, R478): an application that begins on another device is served there
(R189); a base replacement holds it (R325). -/
def regEnv (kind : Nat) (rep : Bool) (op : RegOp) (f : Dev → Nat → RegOp → Dev) (s : State) : Host.Outcome State Fault Refusal :=
  onDevIf (op.app < 8) s (fun d => match takeEnv (atOff d op.off) op.env kind with
    | .error d => d
    | .ok (d, e, k, body) =>
      let d := unring d e k
      let op := { op with env := e }
      if e.source ≠ 3 ∧ goesOn d (some op.app) then forwardEnv d e k body
      else
        let d := alongChain d op.app op.others e body
        if holdsRegs d op.app then holdReg d op k rep else f d k op)

def execRegisterVariant (op : RegOp) (s : State) : Host.Outcome State Fault Refusal := regEnv 0x03 false op registerNow s

def execReplaceVariant (op : RegOp) (s : State) : Host.Outcome State Fault Refusal := regEnv 0x04 true op replaceNow s

/-- The payload is a VARIANT_ID. -/
def execReleaseVariant (op : EnvOp) (s : State) : Host.Outcome State Fault Refusal :=
  onEnvelope op 0x05 s (fun d e k body =>
    let d := unring d e k
    let v := leNat (body.take 4)
    let r := variant d v
    if e.source ≠ 3 ∧ goesOn d (appFor d k v) then forwardEnv d e k body
    else releaseNow (alongChain d ((r.map (·.app)).getD 8) ((r.map (·.others)).getD []) e body) e k v)

def execFillComplete (op : SlotOp) (s : State) : Host.Outcome State Fault Refusal :=
  onDevIf (op.slot < 4096) s (fun d => fillComplete (atOff d op.off) op.slot)

/-- A flip notice arrives (R250). -/
def execFlipNotice (op : FlipOp) (s : State) : Host.Outcome State Fault Refusal :=
  onDev s (fun d => makeFlip (atOff d op.off) op.variant op.edge)

end Sys2Proof.Machine
end

