-- ==== Sys2Proof/Machine/Scribe.lean ====
section
/-!
DEFINITION. The Scribe (R239 to R250): the step constants of an update, the update of every master element, the encoding of the
moments, and what a completed Scribe task leaves.
-/
namespace Sys2Proof.Machine
open Sys2Proof

/-! ## The optimiser block (R243) and the step constants (R244) -/

abbrev OptBlock := BitVec 512
def OptBlock.w (o : OptBlock) (lo : Nat) : Word := BitVec.ofNat 32 (field o lo 32)
def OptBlock.warmup (o : OptBlock) : Nat := field o 224 16
def OptBlock.restart (o : OptBlock) : Bool := field o 240 1 = 1
def OptBlock.decaySteering (o : OptBlock) : Bool := field o 241 1 = 1
def OptBlock.decaySteps (o : OptBlock) : Nat := field o 256 32

def fone : Word := 0x3F800000#32
/-- A whole number as FP32. -/
def fnat (n : Nat) : Word := ofNum (.ofInt n 0)

def fpos (w : Word) : Bool := isFinite w && orderKey 0 < orderKey w
def fnonneg (w : Word) : Bool := isFinite w && (fabs w == 0 || orderKey 0 < orderKey w)
/-- In [0, 1). -/
def funit (w : Word) : Bool := fnonneg w && orderKey w < orderKey fone

/-- The stated ranges of the block. -/
def OptBlock.ok (o : OptBlock) : Bool :=
  fpos (o.w 0) && fnonneg (o.w 32) && funit (o.w 64) && funit (o.w 96) && fpos (o.w 128) && fnonneg (o.w 160) && fpos (o.w 192)

/-- The constants of update u. -/
structure StepConst where
  lr : Word
  beta1 : Word
  beta2 : Word
  b1 : Word
  b2 : Word
  e2 : Word
  a : Word
  ip : Word
  kd : Word
  ap : Word
  kdp : Word
  deriving DecidableEq, Repr

def learningRate (o : OptBlock) (u : Nat) : Word :=
  if u ≤ o.warmup then fmul (o.w 0) (fdiv (fnat u) (fnat o.warmup))
  else if 0 < o.decaySteps then
    let k := min (u - o.warmup) o.decaySteps
    fadd (o.w 0) (fmul (fsub (o.w 32) (o.w 0)) (fdiv (fnat k) (fnat o.decaySteps)))
  else o.w 0

def stepConst (o : OptBlock) (u : Nat) : StepConst :=
  let lr := learningRate o u
  let beta1 := o.w 64
  let beta2 := o.w 96
  let c1 := fsub fone (fexp2 (fmul (fnat u) (flog2 beta1)))
  let c2 := fsub fone (fexp2 (fmul (fnat u) (flog2 beta2)))
  let a := fmul lr (fdiv fone c1)
  { lr := lr, beta1 := beta1, beta2 := beta2, b1 := fsub fone beta1, b2 := fsub fone beta2, e2 := fmul (o.w 128) (o.w 128), a := a,
    ip := fdiv fone c2, kd := fsub fone (fmul lr (o.w 160)), ap := fmul a (o.w 192),
    kdp := fsub fone (fmul (fmul lr (o.w 192)) (o.w 160)) }

/-! ## One element (R245) -/

/-- New master, m and v of an element (DEDUCED: log entry 60). -/
def updateElem (k : StepConst) (patch decay : Bool) (f gr w0 m0 v0 : Word) : Word × Word × Word :=
  let g := fmul f gr
  let m := ffma k.beta1 m0 (fmul k.b1 g)
  let v := ffma k.beta2 v0 (fmul k.b2 (fmul g g))
  let d := fmul (fmul m (if patch then k.ap else k.a)) (frsqrt (fadd (fmul v k.ip) k.e2))
  let kd := if patch then k.kdp else if decay then k.kd else fone
  (fsub (fmul w0 kd) d, m, v)

/-! ## The moments (R246, R247) -/

/-- A row's scale: 2^(c − p) of its max-abs; 1.0 for a row of zeros. -/
def momentScale (p : Int) (xs : List Word) : Word :=
  let m := maxAbs xs
  if fabs m = 0 then fone else scaleWord (clog m - p)

/-- E4M3 magnitudes in units of 2^−9, by code. -/
def e4m3Units (c : Nat) : Nat := if c < 8 then c else (8 + c % 8) * 2 ^ (c / 8 - 1)

/-- The highest E4M3 code whose magnitude does not exceed n × 2^e; codes below 0x7F. -/
def e4m3Floor (n : Nat) (e : Int) : Nat :=
  ((List.range 127).filter (fun c =>
    if 0 ≤ e + 9 then e4m3Units c ≤ n * 2 ^ (e + 9).toNat else e4m3Units c * 2 ^ (-(e + 9)).toNat ≤ n)).length - 1

/-- The first-moment code of m with scale S and draw r: the exact code, or one of its two neighbours. -/
def firstCode (m s : Word) (r : Nat) : Nat :=
  match (toNum (fabs m)).mul (Num.abs (toNum (fdiv fone s))) with
  | .fin _ n e =>
    let lo := e4m3Floor n e
    let l := e4m3Units lo
    let gap := e4m3Units (lo + 1) - l
    let bound := if 0 ≤ e + 9 then (n * 2 ^ (e + 9).toNat - l) * 2 ^ 24 / gap
      else (n - l * 2 ^ (-(e + 9)).toNat) * 2 ^ 24 / (gap * 2 ^ (-(e + 9)).toNat)
    (if r < bound then lo + 1 else lo) + (if m.toNat / 2 ^ 31 = 1 then 128 else 0)
  | _ => 0x7F

/-- The second-moment code of v with scale S and draw r. -/
def secondCode (v s : Word) (r : Nat) : Nat :=
  if fabs v = 0 then 0
  else match toNum (flog2 (fdiv v s)) with
    | .fin neg n e =>
      let scaled : Int := (if neg then -1 else 1) * (n : Int) * 16
      let (fl, bound) : Int × Int :=
        if 0 ≤ e then (scaled * 2 ^ e.toNat, 0)
        else (scaled / 2 ^ (-e).toNat, (scaled % 2 ^ (-e).toNat) * 2 ^ 24 / 2 ^ (-e).toNat)
      let y := fl + 128
      (max 1 (min 255 (if (r : Int) < bound then y + 1 else y))).toNat
    | _ => 255

/-- The draw of an element's moment (R247). -/
def momentDraw (seed v u rho j : Nat) (second : Bool) : Nat :=
  (philox ((seed % 2 ^ 32) ^^^ (v % 2 ^ 32)) ((seed / 2 ^ 32 % 2 ^ 32) ^^^ (u % 2 ^ 32)) (j + if second then 2 ^ 31 else 0) rho 3 0).1 >>> 8

/-- Decoded moments of a bank's row: E4M3 and LQ8 codes with their scales. -/
def decodeFirst (c : Nat) (s : Word) : Word := ofNum ((elemValue 3 c).mul (toNum s))
def decodeSecond (c : Nat) (s : Word) : Word := ofNum ((lqValue c).mul (toNum s))

/-! ## One optimiser row -/

/-- What an update makes of a row: masters, moment codes and scales, and whether anything in it is NaN or infinite. -/
structure RowOut where
  masters : List Word
  first : List Nat
  second : List Nat
  s1 : Word
  s2 : Word
  bad : Bool
  deriving DecidableEq, Repr

def updateRow (k : StepConst) (n : CommitNotice) (o : OptRow) (patch : Bool) (f : Word) (zeroMoments : Bool)
    (grads ws : List Word) (c1 c2 : List Nat) (s1 s2 : Word) : RowOut :=
  let decay := OptBlock.decaySteering n.opt
  let out := (List.range o.len).map (fun j =>
    let m0 := if zeroMoments then 0 else decodeFirst ((c1[j]?).getD 0) s1
    let v0 := if zeroMoments then 0 else decodeSecond ((c2[j]?).getD 0) s2
    updateElem k patch decay f (wordAt grads j) (wordAt ws j) m0 v0)
  let ms := out.map (·.2.1)
  let vs := out.map (·.2.2)
  let t1 := momentScale 8 ms
  let t2 := momentScale 7 vs
  { masters := out.map (·.1)
    first := ms.zipIdx.map (fun x => firstCode x.1 t1 (momentDraw n.seed n.variant n.u o.rho (o.j0 + x.2) false))
    second := vs.zipIdx.map (fun x => secondCode x.1 t2 (momentDraw n.seed n.variant n.u o.rho (o.j0 + x.2) true))
    s1 := t1, s2 := t2
    bad := out.any (fun x => !isFinite x.1 || !isFinite x.2.1 || !isFinite x.2.2) }

/-- Codes of a row in a bank. -/
def peekCodes (d : Dev) (app a n : Nat) : List Nat := (peekDva d app a n).map (·.toNat)

/-- Every row of an update from the live bank. -/
def updateRows (d : Dev) (c : Copybook) (r : VarRec) (n : CommitNotice) (grad : Table Word) : List (OptRow × RowOut) :=
  let k := stepConst n.opt n.u
  let b := r.liveB
  let zero := OptBlock.restart n.opt && n.u == 1
  (optRows c r).zipIdx.map (fun x =>
    let o := x.1
    let patch := r.nLayers ≤ o.tensor
    let f := match n.factors with
      | [f] => f
      | fs => (fs[o.tensor]?).getD fone
    let sc := peekWords d r.app (scaleAt c r b x.2) 2
    (o, updateRow k n o patch f zero ((List.range o.len).map (fun j => grad.get 0 (o.start + j)))
      (peekWords d r.app (masterBank c r b + 4 * o.start) o.len)
      (peekCodes d r.app (momentAt c r b o) o.len) (peekCodes d r.app (momentAt c r b o + o.len) o.len)
      (wordAt sc 0) (wordAt sc 1)))

/-- Write a bank from its rows: masters, moments and scales, the patch live buffer, and the slot half (R245 to R248). -/
def writeBank (d : Dev) (c : Copybook) (r : VarRec) (b : Bool) (rows : List (OptRow × RowOut)) : Dev :=
  let d := forEach rows.zipIdx d (fun d x =>
    let o := x.1.1
    let y := x.1.2
    let d := pokeDva d r.app (masterBank c r b + 4 * o.start) (wordBytes y.masters)
    let d := pokeDva d r.app (momentAt c r b o) (y.first.map (BitVec.ofNat 8) ++ y.second.map (BitVec.ofNat 8))
    pokeDva d r.app (scaleAt c r b x.2) (wordBytes [y.s1, y.s2]))
  let masters := rows.flatMap (·.2.masters)
  let d := writeLive d c r b masters
  match ownedSlot d r.id with
  | some s => if (slot d s).st = 3 then d else writeSlotHalf d r s b masters
  | none => d

/-- The header of the bank an update wrote (R250). -/
def updateHeader (r : VarRec) (n : CommitNotice) (valid : Bool) : BankHdr :=
  let clip := match n.factors with
    | [f] => f
    | _ => fone
  BitVec.ofNat 512 (packBits [(0, 32, r.version + 1), (32, 32, n.step), (64, 32, n.u), (96, 1, b2n valid),
    (192, 32, (learningRate n.opt n.u).toNat), (224, 32, clip.toNat)])

/-- A Scribe task completes: the idle bank and its copies are written; a NaN or an infinity leaves VALID at 0 (R250). The device,
and whether the update ended in a numeric fault. -/
def scribeUpdate (d : Dev) (c : Copybook) (r : VarRec) (n : CommitNotice) (grad : Table Word) : Dev × Bool :=
  let rows := updateRows d c r n grad
  let bad := rows.any (·.2.bad)
  let b := !r.liveB
  let d := writeBank d c r b rows
  let d := setVariant d r.id (some (r.setBank b (updateHeader r n (!bad))))
  let d := bump d 0x6050 0x00 1
  let d := if bad then bump d 0x6050 0x03 1 else d
  (raise d (partSrc r.home 17) 0 r.id, bad)

end Sys2Proof.Machine
end

