-- ==== Sys2Proof/Machine/Reduction.lean ====
section
/-!
DEFINITION. The fixed-tree reduction of a training step on this device and its late contributions (R300 to R316): contributions and
leaf positions, the device fold, the device tree, the norm tree and the clip factor, the manifests.
-/
namespace Sys2Proof.Machine
open Sys2Proof

/-! ## Reductions and late books -/

def setReduces (d : Dev) (l : List Reduce) : Dev := { d with train := { d.train with reduces := l } }
def findReduce (d : Dev) (job step : Nat) : Option Reduce :=
  d.train.reduces.find? (fun r => r.info.job == job && r.info.step == step)
def setReduce (d : Dev) (r : Reduce) : Dev :=
  setReduces d (d.train.reduces.map (fun x => if x.info.job = r.info.job ∧ x.info.step = r.info.step then r else x))
/-- Peat pages that satisfy a test return to the given frames at the next edge: their contents are released (R152). -/
def releasePeat (d : Dev) (gone : PeatUse → Bool) : Dev :=
  let d := forEach (d.mem.peatUsed.filter gone) d (fun d u => writePte d u.app u.page 0)
  { d with mem := { d.mem with peatUsed := d.mem.peatUsed.filter (fun u => !gone u) } }

def dropReduce (d : Dev) (job step : Nat) : Dev :=
  let d := releasePeat d (fun u => u.job == job && u.step == step)
  setReduces d (d.train.reduces.filter (fun x => !(x.info.job == job && x.info.step == step)))

def findBook (d : Dev) (job : Nat) : Option LateBook := d.train.late.find? (fun b => b.job == job)
def setBook (d : Dev) (b : LateBook) : Dev :=
  { d with train := { d.train with late := d.train.late.map (fun x => if x.job = b.job then b else x) } }

/-- The copybook a record is bound to: its application's, or the old one that EMBER keeps (R336). -/
def bookOf (d : Dev) (r : VarRec) : Option Copybook :=
  match appAt d r.app with
  | none => none
  | some x =>
    if x.book.baseId = r.baseId ∧ x.book.baseGen = r.baseGen then some x.book
    else match (d.base.find? (fun y => y.1 == r.app)).bind (·.2.old) with
      | some c => some c
      | none => some x.book

/-- The targets of a variant's reductions: its optimiser rows (R300). -/
def targetsOf (d : Dev) (v : Nat) : List OptRow :=
  match variant d v with
  | some r => ((bookOf d r).map (fun c => optRows c r)).getD []
  | none => []

/-- Peat pages of a step's rollout groups, by their token rows (R152). -/
def peatNeed (c : Copybook) (rows : List Nat) : Nat := (rows.map (fun n => (n * c.peatRow + frameSize - 1) / frameSize)).sum

/-- So many pages of the Peat range for a step, under its tenant's key. -/
def takePeat (job step app key : Nat) : Nat → Dev → Option Dev
  | 0, d => some d
  | n + 1, d =>
    let (lo, hi) := peatPages d app
    match takePage d app key lo hi true with
    | none => none
    | some (d, p) => takePeat job step app key n { d with mem := { d.mem with peatUsed := d.mem.peatUsed ++ [⟨job, step, app, p⟩] } }

/-- The Peat pages of a step whose training is admitted; none: pages lack (R152) (DESIGN CHOICE: log entry 181). -/
def holdPeat (d : Dev) (i : ReduceInfo) : Option Dev :=
  match appAt d i.app with
  | none => some d
  | some x =>
    if i.close.isNone ∨ d.mem.peatUsed.any (fun u => u.job == i.job && u.step == i.step) then some d
    else takePeat i.job i.step i.app (i.job / 2 ^ 32) (peatNeed x.book i.rows) d

/-- A reduction is opened, or learns its close frame (R307); its job has a late book from then on. -/
def openReduce (d : Dev) (i : ReduceInfo) : Dev :=
  let d := (holdPeat d i).getD d
  let d := match findReduce d i.job i.step with
    | some r => setReduce d { r with info := { r.info with close := i.close } }
    | none => setReduces d (d.train.reduces ++
        [{ info := i, expected := [], leaves := [], children := [], sums := [], closed := 0, rootGot := [], rootAt := none,
           norms := [], normClosed := 0, factors := [], norm := 0, factorAt := none, reported := false, loss := 0 }])
  if (findBook d i.job).isSome then d
  else { d with train := { d.train with late := d.train.late ++
    [{ job := i.job, outstanding := [], pending := [], folded := [], manifests := [], owed := [] }] } }

/-- Depth of a tree of runs of 16 over z leaves: ceil(log16 z) (R304). -/
def treeDepth (z : Nat) : Nat := if z ≤ 1 then 0 else Nat.log2 (z - 1) / 4 + 1
/-- Nodes at a level over z leaves. -/
def nodesAt (z k : Nat) : Nat := (z + 16 ^ k - 1) / 16 ^ k

/-! ## Contributions (R301, R302, R312) -/

/-- Bytes of a contribution are read where its drain has put them. -/
def contribLeaf (d : Dev) (c : Contrib) : Leaf :=
  { target := c.target, pos := c.pos, elem := c.elem,
    vals := (List.range c.n).map (fun k => opWord d c.hearth (c.addr + 4 * k)) }

/-- A contribution that arrives after its node has closed: pending if it is outstanding there, else discarded. -/
def lateArrive (d : Dev) (job : Nat) (n : LateName) (elem : Nat) (vals : List Word) : Dev :=
  match findBook d job with
  | none => d
  | some b =>
    if b.outstanding.contains n then
      setBook d { b with outstanding := b.outstanding.filter (· != n), pending := b.pending ++ [(n, elem, vals)] }
    else bump d 0x6048 0x06 1

/-- A contribution arrives at the device's leaf area. -/
def leafArrive (d : Dev) (job step : Nat) (l : Leaf) : Dev :=
  let late := fun d => lateArrive d job ⟨0, step, l.target, l.pos⟩ l.elem l.vals
  match findReduce d job step with
  | some r =>
    if r.closed = 0 then
      setReduce d { r with leaves := r.leaves.filter (fun x => !(x.target == l.target && x.pos == l.pos)) ++ [l] }
    else late d
  | none => late d

/-- The contributions of tasks that have ended are written to the leaf area, each task's once. -/
def sweepContribs (d : Dev) : Dev :=
  forEach d.frame.tasks d (fun d x => match x.2 with
    | some t =>
      if t.status = .done ∧ !t.taken ∧ t.plan.contribs ≠ [] then
        let d := forEach t.plan.contribs d (fun d c => leafArrive d c.job c.step (contribLeaf d c))
        { d with frame := { d.frame with tasks := d.frame.tasks.set none x.1 (some { t with taken := true }) } }
      else d
    | none => d)

/-- The positions that a plan's tasks are to contribute, and those of the reduction plans, are expected (R303) (DESIGN CHOICE: log entry 186). -/
def expectContribs (d : Dev) (p : Plan) : Dev :=
  forEach ((p.tasks.flatMap (·.contribs)).map (fun c => (c.job, c.step, c.target, c.pos)) ++ p.reduction) d (fun d c =>
    match findReduce d c.1 c.2.1 with
    | some r =>
      if r.closed = 0 ∧ !r.expected.contains c.2.2 then setReduce d { r with expected := r.expected ++ [c.2.2] }
      else d
    | none => d)

/-! ## Order -/

/-- By origin step, then target, then position. -/
def LateName.key (n : LateName) : Nat := n.origin * 2 ^ 80 + n.target * 2 ^ 48 + n.pos

/-! ## One close (R303, R310 to R313) -/

/-- Add values into the sums from a master element on. -/
def addVals (t : Table Word) (start : Nat) (vals : List Word) : Table Word :=
  vals.zipIdx.foldl (fun (t : Table Word) x => t.set 0 (start + x.2) (fadd (t.get 0 (start + x.2)) x.1)) t

def startOf (rows : List OptRow) (target : Nat) : Nat := ((rows[target]?).map (·.start)).getD 0

/-- A manifest entry (R311). -/
def manifestEntry (kind step : Nat) (n : LateName) : BitVec 128 :=
  BitVec.ofNat 128 (packBits [(0, 4, kind), (4, 4, n.level), (8, 8, step - n.origin), (16, 32, n.origin), (48, 32, n.target),
    (80, 48, n.pos)])

/-- A record joins the manifests; the last LATE_AGE + 1 closed steps stay. -/
def addManifest (b : LateBook) (lateAge : Nat) (m : Manifest) : LateBook :=
  let l := b.manifests ++ [m]
  let steps := (l.map (·.step)).eraseDups
  { b with manifests := l.filter (fun x => (steps.drop (steps.length - (lateAge + 1))).contains x.step) }

/-- A node's close after its children are folded: pending contributions are folded, the absent become outstanding, the old are
dropped, what is owed is entered; the record is written. The device, and the node's result. -/
def closeNode (d : Dev) (r : Reduce) (level : Nat) (sums : Table Word) (absent : List LateName) (rows : List OptRow) :
    Dev × Table Word :=
  match findBook d r.info.job with
  | none => (d, sums)
  | some b =>
    let s := r.info.step
    let age := r.info.lateAge
    let here := fun (n : LateName) => n.level == level
    let due := sortBy (fun x => x.1.key) (b.pending.filter (fun x => here x.1 && s ≤ x.1.origin + age))
    let sums := due.foldl (fun t x => addVals t (startOf rows x.1.target + x.2.1) x.2.2) sums
    let out := b.outstanding ++ absent
    let old := out.filter (fun n => here n && n.origin + age == s)
    let owed := b.owed.filter (fun x => here x.2)
    let es := absent.map (manifestEntry 1 s) ++ due.map (fun x => manifestEntry 2 s x.1) ++ old.map (manifestEntry 3 s) ++
      owed.map (fun x => manifestEntry x.1 s x.2)
    let b := { b with
      outstanding := out.filter (fun n => !old.contains n)
      pending := b.pending.filter (fun x => !due.contains x)
      folded := b.folded ++ due.map (fun x => (s, x))
      owed := b.owed.filter (fun x => !here x.2) }
    let b := addManifest b age { job := r.info.job, step := s, level := level, void := false, close := d.frame.no, entries := es }
    let d := bump d 0x6048 0x00 absent.length
    let d := bump d 0x6048 0x01 due.length
    let d := bump d 0x6048 0x02 old.length
    let d := bump d 0x6048 0x03 (owed.filter (fun x => x.1 == 4)).length
    let d := bump d 0x6048 0x04 (owed.filter (fun x => x.1 == 5)).length
    (setBook d b, sums)

/-- Values of a target in a table of sums. -/
def rowVals (t : Table Word) (o : OptRow) : List Word := (List.range o.len).map (fun k => t.get 0 (o.start + k))

/-- The device fold (R303). -/
def foldDevice (d : Dev) (r : Reduce) (rows : List OptRow) : Dev × Table Word :=
  let sums := (sortBy (·.pos) r.leaves).foldl (fun t l => addVals t (startOf rows l.target + l.elem) l.vals) []
  let absent := (r.expected.filter (fun x => !(r.leaves.any (fun l => l.target == x.1 && l.pos == x.2)))).map
    (fun x => (⟨0, r.info.step, x.1, x.2⟩ : LateName))
  closeNode d r 0 sums (sortBy LateName.key absent) rows

/-- A device-tree node at level k (R304): its first child is this device's own result of the level below. -/
def foldNode (d : Dev) (r : Reduce) (rows : List OptRow) (z n k : Nat) : Dev × Table Word :=
  let kids := (List.range 16).map (16 * n + ·) |>.filter (· < nodesAt z (k - 1))
  let got := fun c => r.children.filter (fun x => x.1 == k && x.2.pos == c)
  let sums := r.sums.foldl (fun (t : Table Word) x => t.set 0 x.1 (fadd 0 x.2)) []
  let sums := (kids.drop 1).foldl (fun t c =>
    (got c).foldl (fun t x => addVals t (startOf rows x.2.target) x.2.vals) t) sums
  let absent := (kids.drop 1).flatMap (fun c => ((List.range rows.length).filter (fun t =>
    !(got c).any (fun x => x.2.target == t))).map (fun t => (⟨k, r.info.step, t, c⟩ : LateName)))
  closeNode d r k sums absent rows

/-- What a result is. -/
def treeName : TreeIn → TreeName
  | .child j s l c t _ => ⟨0, j, s, l, c, t⟩
  | .root j s t _ => ⟨1, j, s, 0, 0, t⟩
  | .norm j s l c _ => ⟨2, j, s, l, c, 0⟩
  | .factor j s _ _ => ⟨3, j, s, 0, 0, 0⟩

/-- A result leaves as a remote ring slot stamped for a frame, and is kept until the edge that ends the frame after it (R288, R308). -/
def sendTree (d : Dev) (t : TreeIn) (stamp : Nat) : Dev :=
  emit { d with train := { d.train with
    treeSent := d.train.treeSent.filter (fun x => treeName x.2.1 != treeName t) ++ [(stamp, t, stamp + 1)] } } (.treeOut stamp t)

/-- A reported result is sent again, stamped for a later frame (R308). -/
def treeReported (d : Dev) (n : TreeName) : Dev :=
  match d.train.treeSent.find? (fun x => treeName x.2.1 == n) with
  | some (_, t, _) => sendTree d t (d.frame.no + 2)
  | none => d

/-- Results that are no longer kept. -/
def treeSentEdge (d : Dev) : Dev :=
  { d with train := { d.train with treeSent := d.train.treeSent.filter (fun x => decide (d.frame.no ≤ x.2.2)) } }

/-- A node's result leaves: the root's to every replica, another's to the host of its parent. -/
def sendResult (d : Dev) (r : Reduce) (rows : List OptRow) (replica depth k : Nat) : Dev :=
  let stamp := d.frame.no + 1
  if k = depth then
    if k = 0 then d else forEach rows.zipIdx d (fun d x => sendTree d (.root r.info.job r.info.step x.2 (rowVals r.sums x.1)) stamp)
  else if replica % 16 ^ (k + 1) = 0 then d
  else forEach rows.zipIdx d (fun d x => sendTree d (.child r.info.job r.info.step (k + 1) (replica / 16 ^ k) x.2 (rowVals r.sums x.1)) stamp)

/-- Close level k of a reduction, if this device hosts it. -/
def closeLevel (d : Dev) (r : Reduce) (p : Placement) (k : Nat) : Dev :=
  let z := max 1 p.replicas
  let depth := treeDepth z
  if r.closed ≠ k ∨ depth < k ∨ p.replica % 16 ^ k ≠ 0 then d
  else
    let rows := targetsOf d r.info.variant
    let (d, sums) := if k = 0 then foldDevice d r rows else foldNode d r rows z (p.replica / 16 ^ k) k
    let r := { r with sums := sums, closed := k + 1, rootAt := if k = depth then some (d.frame.no + 1) else r.rootAt }
    sendResult (setReduce d r) r rows p.replica depth k

/-! ## Norms and the clip factor (R235, R305) -/

/-- S6 RSSQ over a tensor: squares summed by a tree in each run of 256, the runs in order. -/
def tensorNorm (xs : List Word) : Word :=
  ((beatsOf (xs.length / 256 + 1) 256 (xs.map (fun x => fmul x x))).foldl (fun acc beat =>
    match (treeLevels fadd 8 beat).head? with
    | none => acc
    | some x => match acc with
      | none => some x
      | some a => some (fadd a x)) (none : Option Word)).getD 0

/-- Elements of tensor t. -/
def tensorVals (rows : List OptRow) (sums : Table Word) (t : Nat) : List Word :=
  (rows.filter (fun o => o.tensor == t)).flatMap (rowVals sums)

/-- Tensors of a record in (layer, tensor) order. -/
def tensorOrder (r : VarRec) : List Nat :=
  let steer := (List.range r.nLayers).map (fun i => (r.layer i * 32, i))
  let pat := r.patches.zipIdx.map (fun x => (PatchDef.layer x.1 * 32 + 1 + PatchDef.matrix x.1, r.nLayers + x.2))
  (sortBy (·.1) (steer ++ pat)).map (·.2)

/-- This device's sum for the global norm. -/
def normLeaf (d : Dev) (r : Reduce) : Word :=
  match variant d r.info.variant with
  | none => 0
  | some v =>
    let rows := targetsOf d v.id
    match (tensorOrder v).map (fun t => tensorNorm (tensorVals rows r.sums t)) with
    | [] => 0
    | x :: l => l.foldl fadd x

/-- f = min(1, round(τ / round(√N + 2^−20))). -/
def clipFactor (tau n : Word) : Word := fmin fone (fdiv tau (fadd (fsqrt n) 0x35800000#32))

/-- The factors of the other modes, from the root results: one a tensor, or 1. -/
def localFactors (d : Dev) (r : Reduce) : List Word :=
  if r.info.mode = 2 then
    match variant d r.info.variant with
    | none => [fone]
    | some v =>
      let rows := targetsOf d v.id
      (List.range (v.nLayers + v.patches.length)).map (fun t => clipFactor r.info.tau (tensorNorm (tensorVals rows r.sums t)))
  else [fone]

/-- The norm root has N: every device is sent f. -/
def rootFactor (d : Dev) (r : Reduce) (n : Word) : Dev :=
  let f := clipFactor r.info.tau n
  sendTree (setReduce d { r with factors := [f], norm := n, factorAt := some (d.frame.no + 1) })
    (.factor r.info.job r.info.step f n) (d.frame.no + 1)

/-- Norm-tree node at level k on this stage: absent leaves are entered NORM_MISSING. -/
def normNode (d : Dev) (r : Reduce) (l n k : Nat) : Dev × Word :=
  let kids := (List.range 16).map (16 * n + ·) |>.filter (· < nodesAt l (k - 1))
  let got := fun c => r.norms.find? (fun x => x.1 == k && x.2.1 == c)
  let v := kids.foldl (fun acc c => fadd acc (((got c).map (·.2.2)).getD 0)) 0
  let absent := kids.filter (fun c => (got c).isNone)
  let d := bump d 0x6048 0x05 absent.length
  match findBook d r.info.job with
  | none => (d, v)
  | some b =>
    let es := absent.map (fun c => manifestEntry 6 r.info.step ⟨15, r.info.step, 0xFFFFFFFF, c⟩)
    (setBook d (addManifest b r.info.lateAge
      { job := r.info.job, step := r.info.step, level := 15, void := false, close := d.frame.no, entries := es }), v)

/-- A norm leaves for its parent: kept if this stage hosts it. -/
def sendNorm (d : Dev) (r : Reduce) (stage k : Nat) (v : Word) : Dev :=
  if stage % 16 ^ (k + 1) = 0 then setReduce d { r with norms := r.norms ++ [(k + 1, stage / 16 ^ k, v)] }
  else sendTree (setReduce d r) (.norm r.info.job r.info.step (k + 1) (stage / 16 ^ k) v) (d.frame.no + 1)

/-- The norm node of level k closes, on replica 0 of a stage that hosts it; with one stage the leaf is the root (level 0). -/
def closeNorm (d : Dev) (r : Reduce) (p : Placement) (k : Nat) : Dev :=
  let l := max 1 p.len
  let depth := treeDepth l
  if r.info.mode ≠ 1 ∨ p.replica ≠ 0 ∨ depth < k ∨ p.stage % 16 ^ k ≠ 0 ∨ k < r.normClosed then d
  else if k = 0 then
    if depth ≠ 0 ∨ r.rootAt.all (d.frame.no < ·) then d
    else rootFactor d { r with normClosed := 1 } (normLeaf d r)
  else
    let (d, v) := normNode d r l (p.stage / 16 ^ k) k
    let r := { r with normClosed := k + 1 }
    if k = depth then rootFactor d r v else sendNorm d r p.stage k v

/-! ## Cut-off and edge -/

/-- The closes of a cut-off (R307). -/
def reduceCut (d : Dev) : Dev :=
  let d := sweepContribs d
  forEach d.train.reduces d (fun d r0 =>
    match r0.info.close, (appAt d r0.info.app).map (·.place) with
    | some close, some p =>
      let now := fun d => (findReduce d r0.info.job r0.info.step).getD r0
      let depth := treeDepth (max 1 p.replicas)
      let d := forEach (List.range (depth + 1)) d (fun d k =>
        if close + k ≤ d.frame.no then closeLevel d (now d) p k else d)
      forEach (List.range (treeDepth (max 1 p.len) + 1)) d (fun d k =>
        if close + depth + 1 + k ≤ d.frame.no then closeNorm d (now d) p k else d)
    | _, _ => d)

/-- What a remote slot holds arrives (R304, R305, R312). -/
def treeArrive (d : Dev) (t : TreeIn) : Dev :=
  match t with
  | .child job step level child target vals =>
    (match findReduce d job step with
    | some r =>
      if r.closed ≤ level then
        setReduce d { r with children := r.children.filter (fun x => !(x.1 == level && x.2.pos == child && x.2.target == target)) ++
          [(level, ⟨target, child, 0, vals⟩)] }
      else lateArrive d job ⟨level, step, target, child⟩ 0 vals
    | none => lateArrive d job ⟨level, step, target, child⟩ 0 vals)
  | .root job step target vals =>
    (match findReduce d job step with
    | none => d
    | some r =>
      let rows := targetsOf d r.info.variant
      let a := startOf rows target
      let sums := vals.zipIdx.foldl (fun (t : Table Word) x => t.set 0 (a + x.2) x.1) r.sums
      let got := if r.rootGot.contains target then r.rootGot else r.rootGot ++ [target]
      setReduce d { r with sums := sums, rootGot := got,
                           rootAt := if got.length = rows.length then some d.frame.no else r.rootAt })
  | .norm job step level child v =>
    (match findReduce d job step with
    | some r =>
      if r.normClosed ≤ level then setReduce d { r with norms := r.norms.filter (fun x => !(x.1 == level && x.2.1 == child)) ++ [(level, child, v)] }
      else d
    | none => d)
  | .factor job step f n =>
    (match findReduce d job step with
    | some r => setReduce d { r with factors := [f], norm := n, factorAt := some d.frame.no }
    | none => d)

/-- The root results are held from this edge: the norm leaf is formed, or the factors of the other modes. -/
def rootHeld (d : Dev) (r : Reduce) (p : Placement) : Dev :=
  if r.rootAt ≠ some d.frame.no then d
  else if r.info.mode = 1 then
    if p.replica = 0 ∧ 1 < p.len ∧ r.normClosed = 0 then sendNorm d { r with normClosed := 1 } p.stage 0 (normLeaf d r) else d
  else setReduce d { r with factors := localFactors d r, factorAt := some d.frame.no }

/-- A reduction is complete: it holds every root result and its factors (R309). -/
def Reduce.complete (r : Reduce) (no : Nat) : Bool := r.rootAt.any (· ≤ no) && r.factorAt.any (· ≤ no)

/-- Results stamped for this frame that a reduction's nodes here lack (R308). -/
def missingTrees (d : Dev) (r : Reduce) (p : Placement) (close : Nat) : List TreeName :=
  let z := max 1 p.replicas
  let l := max 1 p.len
  let (depth, ndepth) := (treeDepth z, treeDepth l)
  let (j, s, no) := (r.info.job, r.info.step, d.frame.no)
  let ts := List.range (targetsOf d r.info.variant).length
  let kids := fun (n k total : Nat) => ((List.range 16).map (16 * n + ·)).filter (· < nodesAt total (k - 1)) |>.drop 1
  let ks := (List.range depth).map (· + 1)
  let nks := (List.range ndepth).map (· + 1)
  ks.flatMap (fun k => if no = close + k ∧ p.replica % 16 ^ k = 0 then
      (kids (p.replica / 16 ^ k) k z).flatMap (fun c => (ts.filter (fun t => !r.children.any (fun x => x.1 == k && x.2.pos == c && x.2.target == t))).map
        (fun t => ⟨0, j, s, k, c, t⟩))
    else []) ++
  (if no = close + depth + 1 ∧ p.replica ≠ 0 then (ts.filter (fun t => !r.rootGot.contains t)).map (fun t => ⟨1, j, s, 0, 0, t⟩) else []) ++
  (if r.info.mode = 1 then
    nks.flatMap (fun k => if no = close + depth + 1 + k ∧ p.replica = 0 ∧ p.stage % 16 ^ k = 0 then
        ((kids (p.stage / 16 ^ k) k l).filter (fun c => !r.norms.any (fun x => x.1 == k && x.2.1 == c))).map (fun c => ⟨2, j, s, k, c, 0⟩)
      else []) ++
    (if no = close + depth + ndepth + 2 ∧ (p.replica ≠ 0 ∨ p.stage ≠ 0) ∧ r.factors.isEmpty then [⟨3, j, s, 0, 0, 0⟩] else [])
  else [])

/-- The results that have not arrived at this edge are reported. -/
def reportTrees (d : Dev) : Dev :=
  let l := d.train.reduces.flatMap (fun r => match r.info.close, (appAt d r.info.app).map (·.place) with
    | some close, some p => missingTrees d r p close
    | _, _ => [])
  if l.isEmpty then d else emit d (.treeReport l)

/-- The edge: slots stamped for this frame, then what they complete. The reductions to report, first complete now. -/
def reduceEdge (d : Dev) (tree : List TreeIn) : Dev × List Reduce :=
  let d := reportTrees (forEach tree (treeSentEdge d) treeArrive)
  let d := forEach d.train.reduces d (fun d r0 =>
    match findReduce d r0.info.job r0.info.step, (appAt d r0.info.app).map (·.place) with
    | some r, some p => rootHeld d r p
    | _, _ => d)
  let done := d.train.reduces.filter (fun r => r.complete d.frame.no && !r.reported)
  (forEach done d (fun d r => setReduce d { r with reported := true }), done)

/-! ## Voids, switches, restores (R315, R316) -/

/-- Schedules of another device's sequences that hold no more. -/
def dropNotes (d : Dev) (gone : SchedNote → Bool) : Dev :=
  { d with train := { d.train with notes := d.train.notes.filter (fun x => !gone x) } }

/-- A step commits nothing: what was folded into it returns to pending, its records are VOID. -/
def voidReduce (d : Dev) (job step : Nat) : Dev :=
  let d := forgetSteps (dropReduce d job step) (fun t => t == (job + 1, step))
  let d := dropNotes d (fun x => (x.use == .job (2 * job) || x.use == .job (2 * job + 1)) && x.step == step)
  match findBook d job with
  | none => d
  | some b => setBook d { b with
      pending := b.pending ++ (b.folded.filter (fun x => x.1 == step)).map (·.2)
      folded := b.folded.filter (fun x => x.1 != step)
      manifests := b.manifests.map (fun m => if m.step = step then { m with void := true } else m) }

/-- A step's update has been made: what was folded into it is spent. -/
def spendReduce (d : Dev) (job step : Nat) : Dev :=
  let d := dropReduce d job step
  match findBook d job with
  | none => d
  | some b => setBook d { b with folded := b.folded.filter (fun x => x.1 != step) }

/-- Pending and outstanding contributions of a job are dropped at a SWITCH (4). -/
def switchBook (b : LateBook) : LateBook :=
  { b with outstanding := [], pending := [],
           owed := b.owed ++ (b.outstanding ++ b.pending.map (·.1)).map (fun n => (4, n)) }
/-- Outstanding contributions after a restore are LOST (5). -/
def lostBook (b : LateBook) : LateBook :=
  { b with outstanding := [], owed := b.owed ++ b.outstanding.map (fun n => (5, n)) }

/-- A job ends: its reductions, contributions and manifests go (R315). -/
def dropJobReduces (d : Dev) (job : Nat) : Dev :=
  let d := releasePeat (forgetSteps d (fun t => t.1 == job + 1)) (fun u => u.job == job)
  let d := dropNotes d (fun x => x.use == .job (2 * job) || x.use == .job (2 * job + 1))
  { d with train := { d.train with
      reduces := d.train.reduces.filter (fun r => r.info.job != job)
      late := d.train.late.filter (fun b => b.job != job) } }

/-! ## The loss (R221, R222) -/

/-- The factor of the logit gradient of a loss token, and its term of the step's loss, for advantage a and weight w. -/
def lossTerm (i : ReduceInfo) (a w lpNew lpOld : Word) : Word × Word :=
  if i.template = 0 then
    let rho := fexp2 (fsub lpNew lpOld)
    let hi := fadd fone i.eps
    let lo := fsub fone i.eps
    let above := fun x y : Word => orderKey y < orderKey x
    let clipped := (above a 0 && above rho hi) || (above 0 a && above lo rho)
    let c := if clipped then (0 : Word) else fmul (fmul (fneg a) rho) w
    (c, fmul (fneg w) (fmin (fmul rho a) (fmul (fmax lo (fmin hi rho)) a)))
  else (fmul (fneg a) w, fmul (fmul (fmul (fneg w) a) lpNew) 0x3F317218#32)

/-- The tempered soft maximum p of a row of logits. -/
def softmax (temp : Word) (logits : List Word) : List Word :=
  let ct := fdiv 0x3FB8AA3B#32 temp
  let a := logits.map (fun l => fmul l ct)
  match sortScores a.zipIdx with
  | [] => []
  | (m, _) :: _ =>
    let inv := fdiv fone (a.foldl (fun s x => fadd s (expTerm x m)) 0)
    a.map (fun x => fmul (expTerm x m) inv)

/-- The logit gradient g of a loss row. -/
def logitGradient (temp c : Word) (token : Nat) (logits : List Word) : List Word :=
  let k := fmul c (fdiv fone temp)
  (softmax temp logits).zipIdx.map (fun x => fmul k (fsub (if x.2 = token then fone else 0) x.1))

/-- A loss row of the frame that ended adds its term. -/
def lossRow (d : Dev) (x : LossRow) : Dev :=
  match findReduce d x.job x.step with
  | none => d
  | some r =>
    match r.info.seqs.find? (fun y => y.1 == x.g && y.2.1 == x.i) with
    | none => d
    | some (_, _, a, w) =>
      let old := ((d.train.lpRecs.find? (fun y => y.job == x.job && y.g == x.g && y.i == x.i)).bind (fun y => y.lps[x.k]?)).getD 0
      let t := lossTerm r.info a w (logProb r.info.temp x.logits x.token) old
      setReduce d { r with loss := fadd r.loss t.2 }

/-! ## The command -/

/-- A Ductus descriptor completes; a partial it drained is a contribution, pending if its close is past (R107, R312). -/
def execDuctusComplete (op : HearthOp) (s : State) : Host.Outcome State Fault Refusal :=
  onDevIf (op.hearth < 256) s (fun d => sweepContribs (ductComplete (atOff d op.off) op.hearth))

end Sys2Proof.Machine
end

