-- ==== Sys2Proof/Machine/Training.lean ====
section
/-!
DEFINITION. Training jobs (R212 to R238) and the course of an update from its commit to its flip (R244, R249, R250, R253, R261).
-/
namespace Sys2Proof.Machine
open Sys2Proof

/-! ## The TRAIN_JOB payload (R216) -/

abbrev JobPar := BitVec 1024
def JobPar.variant (p : JobPar) : Nat := field p 32 32
def JobPar.reward (p : JobPar) : Nat := field p 64 32
def JobPar.template (p : JobPar) : Nat := field p 96 1
def JobPar.advNorm (p : JobPar) : Bool := field p 97 1 = 1
def JobPar.lossMeans (p : JobPar) : Bool := field p 98 1 = 1
def JobPar.lag (p : JobPar) : Nat := field p 99 1
def JobPar.clipMode (p : JobPar) : Nat := field p 100 2
def JobPar.groupSize (p : JobPar) : Nat := field p 112 16
def JobPar.groups (p : JobPar) : Nat := field p 128 16
def JobPar.w (p : JobPar) (lo : Nat) : Word := BitVec.ofNat 32 (field p lo 32)
def JobPar.eps (p : JobPar) : Word := p.w 160
def JobPar.temp (p : JobPar) : Word := p.w 224
def JobPar.maxNew (p : JobPar) : Nat := field p 256 32
def JobPar.advEps (p : JobPar) : Word := p.w 352
def JobPar.seed (p : JobPar) : Nat := field p 384 64
def JobPar.maxSteps (p : JobPar) : Nat := field p 448 32
def JobPar.opt (p : JobPar) : OptBlock := BitVec.ofNat 512 (field p 512 512)

/-- The payload keeps its table, and the optimiser block its ranges (R216, R243); reserved bits are ignored (R11). -/
def JobPar.ok (p : JobPar) : Bool :=
  2 ≤ p.groupSize && p.groupSize ≤ 64 && 1 ≤ p.groups && p.groups ≤ 4096 && fpos p.eps && funit p.eps && fnonneg (p.w 192) && fpos p.temp &&
    field p 288 32 != field p 320 32 && fnonneg p.advEps && p.opt.ok

/-- Mode and threshold of clipping in force (R235). -/
def clipMode (d : Dev) (p : JobPar) : Nat := if p.clipMode = 0 then reg d 0x6030 0x00 else p.clipMode
def clipTau (d : Dev) (p : JobPar) : Word :=
  if fabs (p.w 192) = 0 then BitVec.ofNat 32 (reg d 0x6030 0x01) else p.w 192

/-! ## Jobs -/

def jobKey (slot id : Nat) : Nat := slot * 2 ^ 32 + id
def Job.slot (j : Job) : Nat := j.key / 2 ^ 32
def Job.id (j : Job) : Nat := j.key % 2 ^ 32
def Job.p (j : Job) : JobPar := j.par
def Job.policyUse (j : Job) : Use := .job (2 * j.key)
def Job.rewardUse (j : Job) : Use := .job (2 * j.key + 1)

def findJob (d : Dev) (key : Nat) : Option Job := d.train.jobs.find? (fun j => j.key == key)
def setJobs (d : Dev) (l : List Job) : Dev := setReg { d with train := { d.train with jobs := l } } 0x6000 0x00 l.length
def setJob (d : Dev) (j : Job) : Dev := setJobs d (d.train.jobs.map (fun x => if x.key = j.key then j else x))
def Job.setStep (j : Job) (x : StepS) : Job := { j with steps := j.steps.map (fun y => if y.s = x.s then x else y) }
def Job.dropStep (j : Job) (s : Nat) : Job := { j with steps := j.steps.filter (fun y => y.s != s) }
def Job.step? (j : Job) (s : Nat) : Option StepS := j.steps.find? (fun y => y.s == s)

/-- Committed steps newer than those of the latest complete snapshot (R258). -/
def Job.unsecured (j : Job) : Nat := j.done + (if j.committed.isSome then 1 else 0) - j.secured

/-- Devices that run an application (R252: its system set). -/
def setSize (x : App) : Nat := max 1 x.place.len * max 1 x.place.replicas
def setSizeOf (d : Dev) (app : Nat) : Nat := ((appAt d app).map setSize).getD 1

/-- The 64-byte report of a training response (R217), packed in the order its table lists (log entry 18). -/
def report64 (bs : List Byte) : List Byte := (bs ++ List.replicate 64 0).take (max 64 bs.length)

/-- A job's response (R217). -/
def jobResp (d : Dev) (j : Job) (code made : Nat) (report : List Byte) : Dev :=
  setJob (addResp d { j.answer with status := code, final := code == 0x34, made := made, report := report64 report }) j

/-- Causes of STEP_ABANDONED and JOB_ENDED (log entry 18). -/
def causeMaxSteps : Nat := 1
def causeControl : Nat := 2
def causeWithdrawn : Nat := 3
def causeNumeric : Nat := 4
def causeSwitch : Nat := 5
def causeChain : Nat := 6
def causeRestore : Nat := 7
def causeQuiesce : Nat := 8

/-- Training work on the other devices of an application hears of it. -/
def tellOthers (d : Dev) (app : Nat) (x : Out) : Dev := if 1 < setSizeOf d app then emit d x else d

/-- The rollouts of a step, or of a job, are dropped with their pins and places. -/
def dropRollouts (d : Dev) (job : Nat) (s : Option Nat) : Dev :=
  forEach (d.gen.reqs.filter (fun q => match q.rollout with
    | some (k, s', _) => k == job && (s.isNone || s == some s')
    | none => false)) d (fun d q => dropReq (releaseUse d (.request q.slot q.id)) q)

/-- A step is abandoned with a cause (R215, R217); its partials are discarded, what was folded into it returns. -/
def abandonStep (d : Dev) (j : Job) (s cause made : Nat) : Dev :=
  let d := tellOthers (voidReduce (dropRollouts d j.key (some s)) j.key s) j.app (.reduceVoid j.key s)
  let d := { d with train := { d.train with scribe := d.train.scribe.filter (fun t =>
    !(jobKey t.notice.slot t.notice.job == j.key && t.notice.step == s)) } }
  let j := (findJob d j.key).getD j
  jobResp (bump (setJob d (j.dropStep s)) 0x6010 0x02 1) (j.dropStep s) 0x33 made
    (leBytes 4 j.id ++ leBytes 4 s ++ leBytes 4 cause)

/-- Every drawn step of a job that has not gone live is abandoned. -/
def abandonSteps (d : Dev) (j : Job) (cause made : Nat) : Dev :=
  forEach j.steps d (fun d x => match findJob d j.key with
    | some j => if x.phase = .empty then d else abandonStep d j x.s cause made
    | none => d)

/-- The other chain devices that hold a part of a variant, of which a job or an evaluation asks a pin (R237). -/
def pinsOf (d : Dev) (v : Nat) : List Nat := ((variant d v).map (·.others)).getD []
def askPins (d : Dev) (u : Use) (v app : Nat) : Dev := if (pinsOf d v).isEmpty then d else emit d (.pinAsk u v app)

/-- A pin ends here and along the chain (R237). -/
def releasePin (d : Dev) (u : Use) (app : Nat) : Dev := tellOthers (releaseUse d u) app (.pinRelease u)

/-- A pin is held, or none is needed here (R171). -/
def pinHeld (d : Dev) (u : Use) (v : Nat) : Bool := !holdsRec d v || d.ink.bound.any (fun x => x.1 == u)

/-- A job ends at this edge with a cause (R215, R217). -/
def endJob (d : Dev) (j : Job) (cause : Nat) : Dev :=
  let d := abandonSteps d j cause (d.frame.no - 1)
  let d := dropJobReduces (dropRollouts d j.key none) j.key
  let d := releasePin (releasePin d j.policyUse j.app) j.rewardUse j.app
  let j := (findJob d j.key).getD j
  let d := jobResp d j 0x34 (d.frame.no - 1) (leBytes 4 j.id ++ leBytes 4 (j.last.getD 0xFFFFFFFF) ++ leBytes 4 cause)
  tellOthers (setJobs d (d.train.jobs.filter (fun x => x.key != j.key))) j.app (.jobEnded j.key)

/-- Jobs of a policy end, committed or not, with the withdrawal of its variant (R215, R251). -/
def endJobsOf (d : Dev) (v cause : Nat) : Dev :=
  forEach (d.train.jobs.filter (fun j => j.variant == v)) d (fun d j => endJob d j cause)

/-! ## Orders of snapshots (R252, R258) -/

def snapIdle : Snap :=
  { order := none, boosted := false, number := 0, state := 0, current := none, toSend := [], sent := [], moved := 0, manifest := [],
    recorded := [], complete := none, costs := [], spent := 0, last := 0, stopAt := none, restored := [], resumeAt := none }
def snapOf (d : Dev) (a : Nat) : Snap := d.snap.apps.get snapIdle a
def setSnap (d : Dev) (a : Nat) (x : Snap) : Dev := { d with snap := { d.snap with apps := d.snap.apps.set snapIdle a x } }

/-- The first edge that every device of a set can reach with a message of this frame (log entry 19) (DESIGN CHOICE: log entry 101). -/
def reachableEdge (d : Dev) : Nat := d.frame.no + 1

/-- The manager names the edge of a capture; one order stands at a time, and none while a snapshot is in progress. -/
def orderSnap (d : Dev) (a edge : Nat) (boosted : Bool) : Dev :=
  let x := snapOf d a
  if x.order.isSome ∨ x.current.isSome ∨ (appAt d a).isNone then d
  else tellOthers (setSnap d a { x with order := some edge, boosted := boosted, number := x.number + 1 }) a (.snapOrder a (x.number + 1) edge boosted)

/-- A snapshot is ordered on the manager, asked of it elsewhere; a boosted one (R258). -/
def askSnap (d : Dev) (a : Nat) (boosted : Bool) : Dev :=
  if isManager d then orderSnap d a (reachableEdge d) boosted else emit d (.snapAsk a boosted)
def boostSnap (d : Dev) (a : Nat) : Dev := askSnap d a true

/-- A variant's part is drained next, ahead of every other (R253). -/
def promotePart (d : Dev) (a v : Nat) : Dev :=
  let x := snapOf d a
  if x.toSend.contains v then setSnap d a { x with toSend := v :: x.toSend.filter (· != v) } else d

/-! ## Training envelopes (R212, R216) -/

/-- The first device of the chain holds a policy's job (R212): an envelope for a variant whose chain begins elsewhere goes there. -/
def elsewhere (d : Dev) (v : Nat) : Bool := goesOn d ((variant d v).map (·.app))

/-- A job that this device does not hold may be another's: this device serves at a later stage of some chain, or begins none. -/
def jobElsewhere (d : Dev) : Bool :=
  goesOn d none || (List.range 8).any (fun a => (appAt d a).any (fun x => x.place.stage != 0))

/-- A sealed answer to a training envelope. -/
def trainAnswer (d : Dev) (e : Env) (k code : Nat) (report : List Byte) : Dev :=
  answerEnv d e k code 0 d.frame.no (report64 report)

/-- The policy and the reward variant of a TRAIN_JOB are the tenant's and stand ready for it (R212, R216). -/
def jobVariantsOk (d : Dev) (k : Nat) (p : JobPar) : Bool :=
  (variant d p.variant).any (fun r => r.key == k && r.trainable && !r.withdrawn) && !hasJob d p.variant &&
    (p.reward == 0 || (variant d p.reward).any (fun r => r.key == k && r.isReward && !r.withdrawn))

/-- TRAIN_JOB: the job's slots are bound; it is created, or refused, at an edge. -/
def trainJob (d : Dev) (e : Env) (k : Nat) (body : List Byte) : Dev :=
  let p : JobPar := BitVec.ofNat 1024 (leNat (body.take 128))
  if e.source ≠ 3 ∧ elsewhere d p.variant then forwardEnv d e k body
  else if body.length ≠ 128 ∨ !p.ok ∨ (findJob d (jobKey k (field p 0 32))).isSome ∨ 1024 ≤ d.train.jobs.length ∨ !jobVariantsOk d k p then
    trainAnswer d e k 0x35 []
  else match variant d p.variant with
    | none => d
    | some r =>
      let key := jobKey k (field p 0 32)
      let j : Job :=
        { key := key, tenant := e.tenant, app := r.app, variant := r.id, reward := p.reward, par := p,
          answer := { envAnswer e k 0x30 0 with report := [], final := false }, ledger := [], cursor := 0,
          groupCursor := 0, next := 0, live := 0, started := false,
          asked := (pinsOf d r.id).map (Use.job (2 * key), ·) ++ (pinsOf d p.reward).map (Use.job (2 * key + 1), ·), paused := false, pausedNext := none, ends := none, steps := [],
          offline := [], committed := none, done := 0, last := none, secured := 0 }
      let d := setJobs d (d.train.jobs ++ [j])
      let d := bindPass (askPins d j.policyUse r.id r.app) { use := j.policyUse, variant := r.id, key := k, app := r.app, wait := none, claims := false }
      if p.reward = 0 then d
      else bindPass (askPins d j.rewardUse p.reward r.app)
        { use := j.rewardUse, variant := p.reward, key := k, app := r.app, wait := none, claims := false }

/-- COUNT prompts, each a length and its token IDs; none where the bytes do not hold them. -/
def readPrompts : Nat → List Byte → Option (List (List Nat))
  | 0, l => if l.isEmpty then some [] else none
  | n + 1, l =>
    let len := leNat (l.take 4)
    if l.length < 4 ∨ (l.drop 4).length < 4 * len then none
    else (readPrompts n (l.drop (4 + 4 * len))).map (tokensOf len (l.drop 4) :: ·)

/-- An envelope for a job of the tenant, by its JOB_ID (R189, R216). -/
def withJob (d : Dev) (e : Env) (k : Nat) (body : List Byte) (f : Dev → Job → Dev) : Dev :=
  match findJob d (jobKey k (leNat (body.take 4))) with
  | some j => f d j
  | none => if e.source ≠ 3 ∧ jobElsewhere d then forwardEnv d e k body else trainAnswer d e k 0x06 []

/-- Prompts join the ledger, which holds those not yet drawn (DESIGN CHOICE: log entry 183). -/
def ledgerAppend (d : Dev) (e : Env) (k : Nat) (body : List Byte) : Dev :=
  withJob d e k body (fun d j =>
    match readPrompts (leNat ((body.drop 4).take 4)) (body.drop 8) with
    | none => trainAnswer d e k 0x18 []
    | some ps =>
      let held := j.ledger.length - j.cursor
      if reg d 0x600B 0x00 < held + ps.length then trainAnswer d e k 0x37 (leBytes 4 held)
      else setJob d { j with ledger := j.ledger ++ ps })

/-- Words of a byte list. -/
def wordsOf (n : Nat) (l : List Byte) : List Word := (tokensOf n l).map (BitVec.ofNat 32)

/-- Apply a function to the group of a cursor value in whichever step holds it. -/
def Job.onGroup (j : Job) (g : Nat) (f : Group → Group) : Job :=
  { j with steps := j.steps.map (fun x => { x with groups := x.groups.map (fun y => if y.g = g then f y else y) }) }
def Job.group? (j : Job) (g : Nat) : Option Group := (j.steps.flatMap (·.groups)).find? (fun y => y.g == g)

def Group.setRewards (y : Group) (ws : List Word) : Group :=
  { y with rollouts := y.rollouts.zipIdx.map (fun x => { x.1 with reward := ws[x.2]? }) }

/-- REWARDS for one group (R219). -/
def rewardsIn (d : Dev) (e : Env) (k : Nat) (body : List Byte) : Dev :=
  withJob d e k body (fun d j =>
    let g := leNat ((body.drop 8).take 8)
    let n := j.p.groupSize
    if body.length ≠ 16 + 4 * n then trainAnswer d e k 0x18 []
    else match j.group? g with
      | none => trainAnswer d e k 0x06 []
      | some y =>
        if y.dropped ∨ j.reward ≠ 0 then trainAnswer d e k 0x06 []
        else setJob d (j.onGroup g (fun y => y.setRewards (wordsOf n (body.drop 16)))))

/-- COUNT weighted sequences. -/
def readOffline : Nat → List Byte → Option (List Rollout)
  | 0, l => if l.isEmpty then some [] else none
  | n + 1, l =>
    let np := leNat (l.take 4)
    let len := leNat ((l.drop 4).take 4)
    if l.length < 12 ∨ (l.drop 12).length < 4 * len ∨ len < np then none
    else
      let toks := tokensOf len (l.drop 12)
      let w := BitVec.ofNat 32 (leNat ((l.drop 8).take 4))
      (readOffline n (l.drop (12 + 4 * len))).map
        ({ prompt := toks.take np, toks := toks.drop np, status := some 2, reward := some w, adv := w } :: ·)

def offlineGroup (d : Dev) (e : Env) (k : Nat) (body : List Byte) : Dev :=
  withJob d e k body (fun d j =>
    let n := leNat ((body.drop 4).take 4)
    if n = 0 ∨ 64 < n ∨ j.p.template ≠ 1 then trainAnswer d e k 0x18 []
    else match readOffline n (body.drop 8) with
      | none => trainAnswer d e k 0x18 []
      | some l => setJob d { j with offline := j.offline ++ [l] })

/-- JOB_CONTROL, effective at the next edge. -/
def jobControl (d : Dev) (e : Env) (k action : Nat) (body : List Byte) : Dev :=
  withJob d e k body (fun d j =>
    if leNat ((body.drop 4).take 4) ≠ action then d
    else if action = 2 then setJob d { j with ends := some causeControl } else setJob d { j with pausedNext := some (action == 0) })

/-! ## Draws and rollouts (R213, R218) -/

/-- The GENERATE request of rollout i of a group. -/
def rolloutReq (d : Dev) (j : Job) (x : App) (s g i : Nat) (prompt : List Nat) : GenReq :=
  let ended := prompt.any (x.book.vocab ≤ ·)
  { slot := j.slot, tenant := j.tenant, id := (1 + j.id) * 2 ^ 96 + 64 * g + i, keyGen := (keySlot d j.slot).genCur, app := j.app,
    source := 0, reply := 0, origin := ownDevice d, handle := 0, holder := ownDevice d, variant := j.variant,
    maxNew := j.p.maxNew, prompt := prompt, temp := j.p.temp, topK := 0, topP := 0, stops := [x.book.endOfText],
    seed := (j.p.seed + 64 * g + i) % 2 ^ 64, streamFrames := 0,
    bad := if ended || prompt.isEmpty || j.p.maxNew == 0 then 0x18 else if maxContext d < prompt.length + j.p.maxNew then 0x17 else 0,
    sk := 0, arrived := d.frame.no, onRing := false, waited := 0, stage := .queued 0, phase := 0, order := 0, reserved := 0,
    tableAt := none, blocks := [], rows := 0, out := [], reported := 0, asked := [], waiting := [], parked := 0, cancel := false,
    cancelSeen := false, first := 0, planned := 0, sampled := false, lps := [], rollout := some (j.key, s, g, i) }

def freshStep (d : Dev) (j : Job) (groups : List Group) : StepS :=
  { s := j.next, ledgerAt := j.cursor, groupAt := j.groupCursor, groups := groups, first := d.frame.no, phase := .rollout, seqs := [],
    scores := [], cold := false, lateAge := reg d 0x6040 0x00, grace := reg d 0x6040 0x01, close := none, reduced := [],
    scribed := [], loss := 0, norm := 0, factor := fone }

/-- A base replacement holds a variant's job, from MAP to the end of SWITCH (R326, R334). -/
def swapHolds (d : Dev) (v : Nat) : Bool :=
  d.base.any (fun x => 2 ≤ x.2.phase && x.2.phase ≤ 4 && x.2.journal.any (fun e => field e.word 0 32 == v && field e.word 32 4 != 8))

/-- The job may draw at this edge (R213): no flip is to come inside the new step's rollouts. -/
def mayDraw (d : Dev) (j : Job) : Bool :=
  j.started && !j.paused && j.ends.isNone && !swapHolds d j.variant && !appServiced d j.app && !d.pow.fatal &&
    !(appAt d j.app).any (fun x => x.stopped || x.fence) && (haltOf d j.app).key.isNone &&
    (j.p.maxSteps == 0 || j.next < j.p.maxSteps) && j.next ≤ j.live + j.p.lag && j.committed.isNone

/-- One DRAW: an OFFLINE_GROUP in its place, or GROUPS_PER_STEP ledger entries. -/
def drawStep (d : Dev) (j : Job) : Dev :=
  match appAt d j.app with
  | none => d
  | some x =>
    match j.offline with
    | l :: rest =>
      let grp : Group := { g := j.groupCursor, rollouts := l, dropped := false, offline := true, ended := some d.frame.no }
      setJob d { j with offline := rest, groupCursor := j.groupCursor + 1, next := j.next + 1,
                        steps := j.steps ++ [freshStep d j [grp]] }
    | [] =>
      let n := j.p.groups
      let entries := (j.ledger.drop j.cursor).take n
      if entries.length < n then d
      else
        let groups := entries.zipIdx.map (fun y =>
          ({ g := j.groupCursor + y.2, rollouts := List.replicate j.p.groupSize
               { prompt := y.1, toks := [], status := none, reward := none, adv := 0 },
             dropped := false, offline := false, ended := none } : Group))
        let reqs := groups.flatMap (fun y => y.rollouts.zipIdx.map (fun z => rolloutReq d j x j.next y.g z.2 z.1.prompt))
        let d := setReqs d (d.gen.reqs ++ reqs)
        setJob d { j with cursor := j.cursor + n, groupCursor := j.groupCursor + n, next := j.next + 1,
                          steps := j.steps ++ [freshStep d j groups] }

/-- The DRAWs of an edge: at most LAG + 1 steps of a job. -/
def drawJob (d : Dev) (key : Nat) : Dev :=
  forEach [0, 1] d (fun d _ => match findJob d key with
    | some j => if mayDraw d j then drawStep d j else d
    | none => d)

/-- A group is dropped (R215). -/
def dropGroup (d : Dev) (j : Job) (g : Nat) : Dev :=
  if (j.group? g).all (·.dropped) then d
  else setJob (bump d 0x6010 0x03 1) (j.onGroup g (fun y => { y with dropped := true }))

/-- A rollout has ended (R215, R218, R219): its record, its scoring pass, its group's end or drop. -/
def rolloutEnded (d : Dev) (q : GenReq) : Dev :=
  match q.rollout, q.stage with
  | some (key, s, g, i), .ending code =>
    match findJob d key with
    | none => d
    | some j =>
      let toks := q.out.map (·.1)
      let put := fun (y : Group) =>
        let rs := y.rollouts.zipIdx.map (fun x => if x.2 = i then { x.1 with toks := toks, status := some code } else x.1)
        { y with rollouts := rs, ended := if rs.all (·.status.isSome) then some d.frame.no else y.ended }
      let j := j.onGroup g put
      let ok := code == 2 || code == 3
      let j := match j.step? s with
        | some x => if ok && j.reward != 0 then
            j.setStep { x with scores := x.scores ++ [{ g := g, i := i, n := q.prompt.length + toks.length, f0 := none, fwd := true }] }
          else j
        | none => j
      let d := setJob d j
      let d := if q.lps.isEmpty then d
        else { d with train := { d.train with lpRecs := d.train.lpRecs ++ [{ job := key, g := g, i := i, lps := q.lps }] } }
      if ok then d else dropGroup d j g
  | _, _ => d

/-! ## Advantages (R220, R221) -/

def sumWords : List Word → Word
  | [] => 0
  | x :: l => l.foldl fadd x

/-- The advantages of a group from its rewards. -/
def advantages (p : JobPar) (xs : List Word) : List Word :=
  let r := fnat xs.length
  let mean := fdiv (sumWords xs) r
  if p.advNorm then
    let var := fdiv (sumWords (xs.map (fun x => fmul (fsub x mean) (fsub x mean)))) r
    let inv := frsqrt (fadd var p.advEps)
    xs.map (fun x => fmul (fsub x mean) inv)
  else xs.map (fun x => fsub x mean)

/-- Every group is scored or dropped. -/
def StepS.scored (x : StepS) : Bool := x.groups.all (fun y => y.dropped || y.rollouts.all (fun r => r.reward.isSome && r.status.isSome))

/-- Trained groups, and their sequences in rank order: group cursor value, then rollout index (R301). -/
def StepS.trained (x : StepS) : List Group := x.groups.filter (fun y => !y.dropped)
def StepS.sequences (x : StepS) : List (Nat × Nat × Rollout) :=
  x.trained.flatMap (fun y => y.rollouts.zipIdx.map (fun r => (y.g, r.2, r.1)))
def StepS.lossTokens (x : StepS) : Nat := (x.sequences.map (fun y => y.2.2.toks.length)).sum

/-- Weight of a loss token of a sequence of n loss tokens (R221). -/
def StepS.weight (x : StepS) (p : JobPar) (n : Nat) : Word :=
  if p.lossMeans then fdiv fone (fmul (fnat n) (fnat x.sequences.length)) else fdiv fone (fnat x.lossTokens)

/-- What the reduction of a step is (R300, R235). -/
def reduceInfo (d : Dev) (j : Job) (x : StepS) : ReduceInfo :=
  { job := j.key, app := j.app, variant := j.variant, step := x.s, mode := clipMode d j.p, tau := clipTau d j.p, lateAge := x.lateAge,
    close := x.close, template := j.p.template, eps := j.p.eps, temp := j.p.temp,
    seqs := x.sequences.map (fun y => (y.1, y.2.1, y.2.2.adv, x.weight j.p y.2.2.toks.length))
    rows := ((x.seqs.map (·.g)).eraseDups).map (fun g => ((x.seqs.filter (·.g == g)).map (·.n)).sum) }

/-- Reward scores read from the logits of the last position: round(l[REWARD_POS] − l[REWARD_NEG]). -/
def takeScores (j : Job) (s : Nat) (scores : List (Nat × Nat × Word × Word)) : Job :=
  if j.reward = 0 then j
  else match j.step? s with
    | none => j
    | some x =>
      let one := fun (y : Group) => { y with rollouts := y.rollouts.zipIdx.map (fun r =>
        match scores.find? (fun z => z.1 == y.g && z.2.1 == r.2) with
        | some (_, _, a, b) => if r.1.status.isSome && r.1.reward.isNone then { r.1 with reward := some (fsub a b) } else r.1
        | none => r.1) }
      j.setStep { x with groups := x.groups.map (fun y => if y.dropped then y else one y) }

/-- ADVANTAGE of the step whose version before it is live. -/
def advantageStep (d : Dev) (j : Job) : Dev :=
  match j.step? j.live with
  | none => d
  | some x =>
    if x.phase ≠ .rollout ∨ !x.scored then d
    else
      let bad := x.groups.filter (fun y => !y.dropped && !y.offline && y.rollouts.any (fun r => r.reward.any isNan))
      let d := forEach bad d (fun d y => match findJob d j.key with
        | some j => dropGroup d j y.g
        | none => d)
      let j := (findJob d j.key).getD j
      let x := (j.step? x.s).getD x
      if x.trained.isEmpty then d
      else
        let one := fun (y : Group) =>
          if y.dropped || y.offline then y
          else
            let a := advantages j.p (y.rollouts.map (fun r => r.reward.getD 0))
            { y with rollouts := y.rollouts.zipIdx.map (fun r => { r.1 with adv := (a[r.2]?).getD 0 }) }
        let x := { x with groups := x.groups.map one }
        let x := { x with phase := .scheduling, seqs := x.sequences.map (fun y =>
          { g := y.1, i := y.2.1, n := y.2.2.prompt.length + y.2.2.toks.length, f0 := none, fwd := false }) }
        let d := setJob d (j.setStep x)
        let i := reduceInfo d j x
        tellOthers (openReduce d i) j.app (.reduceOpen i)

/-! ## The training schedule (R223 to R225) -/

def evalUse (slot id : Nat) : Use := .eval (slot * 2 ^ 64 + id)
/-- An evaluation has its pins: its passes may be admitted (R236, R237). -/
def evalReady (d : Dev) (v : Eval) : Bool := v.asked.isEmpty && pinHeld d (evalUse v.slot v.id) v.variant

/-- Chunks of a sequence, and the rows of one. -/
def chunkCount (chunk n : Nat) : Nat := (n + chunk - 1) / chunk
def chunkRows (chunk n c : Nat) : Nat := min chunk (n - c * chunk)

/-- The last frame of a schedule that starts at f0. -/
def Sched.last (x : Sched) (chunk l f0 : Nat) : Nat :=
  let c := chunkCount chunk x.n
  if x.fwd then f0 + c + l - 2 else f0 + 2 * c + 2 * l - 3

/-- Another device's schedule as this stage keeps it. -/
def noteSched (x : SchedNote) : Sched := { g := x.g, i := x.i, n := x.n, f0 := some x.f0, fwd := x.fwd }
def noteOf (c : ChunkRef) (x : SchedNote) : Bool :=
  x.use == c.use && x.step == c.step && x.score == c.score && x.g == c.g && x.i == c.i

/-- A schedule reaches a stage (R224) (DESIGN CHOICE: log entry 182). -/
def takeNote (d : Dev) (x : SchedNote) : Dev :=
  let c : ChunkRef := ⟨x.use, x.step, x.g, x.i, 0, x.score, false⟩
  { d with train := { d.train with notes := d.train.notes.filter (fun y => !noteOf c y) ++ [x] } }

/-- A schedule moves on by some frames wherever this device keeps it (R225). -/
def moveSeq (d : Dev) (c : ChunkRef) (k : Nat) : Dev :=
  let move := fun (use : Use) (step : Nat) (score : Bool) (s : Sched) =>
    if use = c.use ∧ step = c.step ∧ score = c.score ∧ s.g = c.g ∧ s.i = c.i then { s with f0 := s.f0.map (· + k) } else s
  { d with train := { d.train with
    jobs := d.train.jobs.map (fun j => { j with steps := j.steps.map (fun x => { x with
      seqs := x.seqs.map (move j.policyUse x.s false), scores := x.scores.map (move j.rewardUse x.s true) }) })
    evals := d.train.evals.map (fun v => { v with seqs := v.seqs.map (move (evalUse v.slot v.id) 0 false) })
    notes := d.train.notes.map (fun x => if noteOf c x then { x with f0 := x.f0 + k } else x) },
           base := d.base.map (fun x => (x.1, { x.2 with checks := x.2.checks.map (fun y =>
      { y with seqs := y.seqs.map (move (checkUse y.variant) 0 false) }) })) }

/-- Chunks of one sequence; one chunk of each sequence that slipped. -/
def sameSeq (a b : ChunkRef) : Bool := a.use == b.use && a.step == b.step && a.score == b.score && a.g == b.g && a.i == b.i
def firstSlips (l : List (ChunkRef × Nat × Nat)) : List ChunkRef :=
  l.foldl (fun out x => if out.any (sameSeq x.1) then out else out ++ [x.1]) []

/-- The application of a chunk's micro-batches in the plan in force. -/
def chunkApp (d : Dev) (c : ChunkRef) : Nat :=
  match c.use with
  | .job n => (((findJob d (n / 2)).map (·.app)).or ((d.train.notes.find? (noteOf c)).map (·.app))).getD 8
  | _ => (((d.train.evals.find? (fun v => evalUse v.slot v.id == c.use)).map (·.app)).or
      (((d.train.notes.find? (noteOf c)).map (·.app)).or ((d.base.find? (fun x => x.2.checks.any (fun y => checkUse y.variant == c.use))).map (·.1)))).getD 8

/-- A sequence slips here: every stage moves it on (R225). -/
def slipSeq (d : Dev) (c : ChunkRef) (k : Nat) : Dev := tellOthers (moveSeq d c k) (chunkApp d c) (.slip c k)

/-- Rows that a schedule plans at a stage in a frame. -/
def Sched.rows (x : Sched) (chunk l stage frame : Nat) : Nat :=
  match x.f0 with
  | none => 0
  | some f0 =>
    let cs := chunkCount chunk x.n
    ((List.range cs).map (fun c =>
      (if f0 + c + stage = frame then chunkRows chunk x.n c else 0) +
      (if !x.fwd ∧ f0 + 2 * cs + 2 * l - 3 = frame + c + stage then chunkRows chunk x.n c else 0))).sum

/-- A schedule fits beside others within a share. -/
def Sched.fits (x : Sched) (chunk l share : Nat) (others : List Sched) : Bool :=
  match x.f0 with
  | none => false
  | some f0 => (List.range (x.last chunk l f0 + 1 - f0)).all (fun k => (List.range l).all (fun j =>
      let own := x.rows chunk l j (f0 + k)
      own == 0 || own + (others.map (fun y => y.rows chunk l j (f0 + k))).sum ≤ share))

/-- The earliest start from a frame on at which a schedule fits. -/
def Sched.earliest (x : Sched) (chunk l share start : Nat) (others : List Sched) : Option Nat :=
  let stop := (others.map (fun y => y.last chunk l (y.f0.getD 0))).foldl max start
  ((List.range (stop + 2 - start)).map (start + ·)).find? (fun f => { x with f0 := some f }.fits chunk l share others)

/-- Sequences without a start take the earliest, in their order. -/
def placeAll (chunk l share start : Nat) : List Sched → List Sched → List Sched
  | _, [] => []
  | others, x :: r =>
    if x.f0.isSome then x :: placeAll chunk l share start others r
    else match x.earliest chunk l share start others with
      | some f => { x with f0 := some f } :: placeAll chunk l share start ({ x with f0 := some f } :: others) r
      | none => x :: placeAll chunk l share start others r

/-- Schedules of a key slot on an application. -/
def schedules (d : Dev) (app slot : Nat) : List Sched :=
  ((d.train.jobs.filter (fun j => j.app == app && j.slot == slot)).flatMap (fun j =>
      j.steps.flatMap (fun x => x.scores ++ x.seqs)) ++
    (d.train.evals.filter (fun v => v.app == app && v.slot == slot)).flatMap (·.seqs)).filter (·.f0.isSome)

/-- Admit the schedules of a list at a cut-off. -/
def placeFor (d : Dev) (app slot : Nat) (l : List Sched) : List Sched :=
  match appAt d app with
  | none => l
  | some x =>
    placeAll (max 1 x.book.trainChunk) (chainLen x) (d.train.share.get 0 (4096 * app + slot)) (d.frame.no + 1)
      (schedules d app slot) l

/-- The other stages hear of the schedules that this cut-off has admitted (R224). -/
def tellScheds (d : Dev) (app : Nat) (use : Use) (step : Nat) (score : Bool) (old new : List Sched) : Dev :=
  forEach (new.zip old) d (fun d x => match x.1.f0, x.2.f0 with
    | some f0, none => tellOthers d app (.schedule ⟨app, use, step, score, x.1.g, x.1.i, x.1.n, f0, x.1.fwd⟩)
    | _, _ => d)

/-- Scoring passes, training sequences and evaluations are admitted; a step whose last sequence is admitted has its close frame
D(s) = F(s) + LATE_GRACE (R307), and its Peat pages (R152): while they lack, its sequences wait. -/
def scheduleCut (d : Dev) : Dev :=
  let d := forEach d.train.jobs d (fun d j0 => forEach j0.steps d (fun d x0 =>
    match (findJob d j0.key).bind (fun j => (j.step? x0.s).map (fun x => (j, x))) with
    | none => d
    | some (j, x) =>
      let old := x.scores
      let x := { x with scores := placeFor d j.app j.slot x.scores }
      let d := tellScheds (setJob d (j.setStep x)) j.app j.rewardUse x.s true old x.scores
      if x.phase ≠ .scheduling then d
      else
        let old := x.seqs
        let x := { x with seqs := placeFor d j.app j.slot x.seqs }
        let tell := fun d => tellScheds d j.app j.policyUse x.s false old x.seqs
        if x.seqs.any (·.f0.isNone) then tell (setJob d (j.setStep x))
        else
          let a := appAt d j.app
          let chunk := max 1 ((a.map (·.book.trainChunk)).getD 1)
          let l := ((a.map chainLen).getD 1)
          let f := (x.seqs.map (fun y => y.last chunk l (y.f0.getD 0))).foldl max 0
          let x := { x with close := some (f + x.grace), phase := .training }
          let i := reduceInfo d j x
          if (holdPeat d i).isNone then d
          else tell (tellOthers (openReduce (setJob d (j.setStep x)) i) j.app (.reduceOpen i))))
  forEach (d.train.evals.filter (evalReady d)) d (fun d v =>
    let v' := { v with seqs := placeFor d v.app v.slot v.seqs }
    let d := tellScheds d v.app (evalUse v.slot v.id) 0 false v.seqs v'.seqs
    { d with train := { d.train with evals := d.train.evals.map (fun x => if x.slot = v.slot ∧ x.id = v.id then v' else x) } })

/-! ## Commits (R214, R235, R244) -/

/-- The job draws no further step for now: paused, ending, at MAX_STEPS, held by a base replacement or by the service procedure. -/
def noDraws (d : Dev) (j : Job) : Bool :=
  j.paused || j.ends.isSome || swapHolds d j.variant || appServiced d j.app || (j.p.maxSteps != 0 && decide (j.p.maxSteps ≤ j.next))

/-- The rollouts of a step have all ended. One that is still to be drawn has them to come; where none is drawn, the steps drawn run to
their end (R216, R326) (DEDUCED: log entry 175). -/
def rolloutsEnded (d : Dev) (j : Job) (s : Nat) : Bool :=
  match j.step? s with
  | some x => x.groups.all (fun y => y.rollouts.all (·.status.isSome))
  | none => noDraws d j

/-- UPDATES of the live bank. -/
def liveUpdates (r : VarRec) : Nat := BankHdr.updates (r.bank r.liveB)

/-- A commit notice reaches this device (R244): its Scribe task is planned at a later cut-off; a HELD idle bank is drained next. -/
def takeNotice (d : Dev) (n : CommitNotice) : Dev :=
  match variant d n.variant with
  | none => d
  | some r =>
    let d := { d with train := { d.train with scribe := d.train.scribe ++
      [{ notice := n, planned := false, running := false, heldCounted := false, limitCounted := false }] } }
    if (r.bank (!r.liveB)).held then promotePart d r.app n.variant else d

/-- The step ends without an update and its version goes live at the next edge (R215, R250). -/
def failStep (d : Dev) (j : Job) (x : StepS) (cause : Nat) : Dev :=
  let d := abandonStep d j x.s cause d.frame.no
  let j := (findJob d j.key).getD j
  setJob d { j with committed := none, steps := { x with phase := .empty } :: j.steps }

def commitStep (d : Dev) (j : Job) (x : StepS) (r : VarRec) (red : Reduce) : Dev :=
  let u := if (j.p.opt).restart ∧ j.done = 0 then 1 else liveUpdates r + 1
  let n : CommitNotice := { slot := j.slot, job := j.id, variant := j.variant, step := x.s, u := u, opt := j.p.opt, seed := j.p.seed,
                            factors := red.factors }
  let x := { x with phase := .committed, norm := red.norm, factor := (red.factors.head?).getD fone }
  let j := { (j.setStep x) with committed := some x.s, last := some x.s }
  let d := bump (setJob d j) 0x6010 0x00 1
  let d := tellOthers (takeNotice d n) j.app (.commitNotice n)
  if reg d 0x6020 0x04 / 2 ≤ j.unsecured then boostSnap d j.app else d

/-- The step of the version before which everything is live commits at this cut-off, if R214 lets it. -/
def commitJob (d : Dev) (j : Job) : Dev :=
  match j.step? j.live, variant d j.variant with
  | some x, some r =>
    match findReduce d j.key x.s with
    | none => d
    | some red =>
      if x.phase ≠ .training ∨ x.reduced.length < setSizeOf d j.app ∨ !rolloutsEnded d j (x.s + j.p.lag) ∨
          d.train.evals.any (fun v => v.variant == j.variant) then d
      else if red.factors.any isNan then failStep d j x causeNumeric
      else commitStep d j x r red
  | _, _ => d

/-! ## Scribe tasks (R244, R253, R261) -/

/-- Committed steps of a notice's job that are not secured: from the job where it is held, elsewhere from the variant's versions. -/
def unsecuredAt (d : Dev) (n : CommitNotice) : Nat :=
  match findJob d (jobKey n.slot n.job), variant d n.variant with
  | some j, _ => j.unsecured
  | none, some r => r.version + 1 - (((snapOf d r.app).complete.bind (fun i => i.vars.find? (fun y => y.id == n.variant))).map
      (fun y => y.rec_.version)).getD 0
  | none, none => 0

/-- An update waits on the limit of unsecured steps (R261) (DEDUCED: log entry 192). -/
def limitHolds (d : Dev) (n : CommitNotice) : Bool := decide (reg d 0x6020 0x04 ≤ unsecuredAt d n)

/-- Plan Scribe tasks whose notices came before this cut-off; count the waits, each once. -/
def scribeCut (d : Dev) : Dev :=
  let (d, l) := d.train.scribe.foldl (fun (acc : Dev × List ScribeTask) t =>
    let (d, l) := acc
    if t.planned then (d, l ++ [t])
    else match variant d t.notice.variant with
      | none => (d, l)
      | some r =>
        if (r.bank (!r.liveB)).held then
          (if t.heldCounted then d else bump d 0x6050 0x04 1, l ++ [{ t with heldCounted := true }])
        else if limitHolds d t.notice then
          (if t.limitCounted then d else bump d 0x6050 0x05 1, l ++ [{ t with limitCounted := true }])
        else (d, l ++ [{ t with planned := true }])) (d, [])
  { d with train := { d.train with scribe := l } }

/-- Planned Scribe tasks run from the edge. -/
def scribeEdge (d : Dev) : Dev :=
  { d with train := { d.train with scribe := d.train.scribe.map (fun t => { t with running := t.planned }) } }

/-- A withdrawal cancels a Scribe task that has not completed (R251). -/
def cancelScribe (d : Dev) (v : Nat) : Dev :=
  { d with train := { d.train with scribe := d.train.scribe.filter (fun t => t.notice.variant != v) } }

/-- A device's Scribe has reported (R250). -/
def scribeReported (d : Dev) (key s device : Nat) (fault cold : Bool) : Dev :=
  match findJob d key with
  | none => d
  | some j => match j.step? s with
    | none => d
    | some x =>
      if x.phase ≠ .committed then d
      else if fault then failStep d j x causeNumeric
      else
        let l := if x.scribed.contains device then x.scribed else x.scribed ++ [device]
        setJob d (j.setStep { x with scribed := l, cold := x.cold || cold, phase := if setSizeOf d j.app ≤ l.length then .scribed else x.phase })

/-- A Scribe task completes on this device (R250). -/
def scribeDone (d : Dev) (v : Nat) : Dev :=
  match d.train.scribe.find? (fun t => t.running && t.notice.variant == v), variant d v with
  | some t, some r =>
    match bookOf d r with
    | none => d
    | some c =>
      let n := t.notice
      let key := jobKey n.slot n.job
      let red := findReduce d key n.step
      let n := match red with
        | some x => if x.factors.isEmpty then n else { n with factors := x.factors }
        | none => n
      let (d, bad) := scribeUpdate d c r n ((red.map (·.sums)).getD [])
      let d := { d with train := { d.train with scribe := d.train.scribe.filter (fun y => y.notice != t.notice) } }
      if (findJob d key).isSome then scribeReported d key n.step (ownDevice d) bad false
      else emit d (.scribeReport key n.step bad (ranCold d (key + 1, n.step)))
  | _, _ => d

/-- Flip notices of steps whose every Scribe has reported (R250). -/
def noticeCut (d : Dev) : Dev :=
  forEach d.train.jobs d (fun d j => match j.steps.find? (fun x => x.phase == .scribed) with
    | some x =>
      let edge := d.frame.no + 2
      tellOthers (makeFlip (setJob d (j.setStep { x with phase := .flipping })) j.variant edge) j.app (.flipNotice j.variant edge)
    | none => d)

/-- A step in which a stream runs cold: its report carries the mark (R89). -/
def coldCut (d : Dev) : Dev :=
  setJobs d (d.train.jobs.map (fun j => { j with steps := j.steps.map (fun x =>
    { x with cold := x.cold || ranCold d (j.key + 1, x.s) }) }))

/-- The training part of a cut-off. -/
def trainCut (d : Dev) : Dev :=
  let d := scribeCut (reduceCut d)
  let d := noticeCut d
  let d := scheduleCut d
  forEach d.train.jobs d (fun d j => match findJob d j.key with
    | some j => commitJob d j
    | none => d)

/-! ## The step's end (R217, R250) -/

/-- MISSING entries of a step's records on this device. -/
def missingOf (d : Dev) (key s : Nat) : Nat :=
  (((findBook d key).map (·.manifests)).getD [] |>.filter (fun m => m.step == s) |>.flatMap (·.entries)
    |>.filter (fun e => field e 0 4 == 1)).length

/-- STEP_DONE to the tenant, with the cursor values of the dropped groups (R215, R219); the clear step record to the operator. -/
def stepDone (d : Dev) (j : Job) (x : StepS) : Dev :=
  let rewards := x.sequences.filterMap (fun y => y.2.2.reward)
  let mean := if rewards.isEmpty then (0 : Word) else fdiv (sumWords rewards) (fnat rewards.length)
  let lost := (x.groups.filter (·.dropped)).map (·.g)
  let dropped := lost.length
  let rep := leBytes 4 j.id ++ leBytes 4 x.s ++ leBytes 8 x.first ++ leBytes 8 (d.frame.no - 1) ++ leBytes 4 x.trained.length ++
    leBytes 4 dropped ++ leBytes 4 x.lossTokens ++ wordBytes [x.loss, mean, x.norm, x.factor] ++ leBytes 1 (b2n x.cold) ++
    lost.flatMap (leBytes 8)
  let clear := BitVec.ofNat 512 (packBits [(0, 32, j.id), (32, 32, j.slot), (64, 32, x.s), (96, 64, x.first),
    (160, 64, d.frame.no - 1), (224, 32, x.lossTokens), (256, 32, missingOf d j.key x.s), (288, 32, dropped), (320, 1, b2n x.cold)])
  raiseReport (jobResp d j 0x31 (d.frame.no - 1) rep) 8 0 clear

/-- The training step whose version a variant's live bank holds, and the jobs whose step it is on this device. -/
def liveStep (d : Dev) (v : Nat) : Nat := ((variant d v).map (fun r => BankHdr.step (r.bank r.liveB))).getD 0
def stepsLive (d : Dev) (v : Nat) : List (Nat × Nat) :=
  let s := liveStep d v
  (((d.train.reduces.filter (fun r => r.info.variant == v && r.info.step == s)).map (fun r => (r.info.job, s))) ++
    ((d.train.jobs.filter (fun j => j.variant == v)).map (fun j => (j.key, s)))).eraseDups

/-- A variant has flipped at this edge: its job's step is done, v(s) is live, and what was folded into it is spent. -/
def flipJob (d : Dev) (v : Nat) : Dev :=
  let step := liveStep d v
  let d := forEach (d.train.reduces.filter (fun r => r.info.variant == v && r.info.step == step)) d
    (fun d r => spendReduce d r.info.job r.info.step)
  forEach (d.train.jobs.filter (fun j => j.variant == v)) d (fun d j =>
    match j.steps.find? (fun x => x.phase == .flipping) with
    | none => d
    | some x =>
      let j := { (j.dropStep x.s) with committed := none, live := j.live + 1, done := j.done + 1 }
      let d := { d with train := { d.train with lpRecs := d.train.lpRecs.filter (fun y =>
        !(y.job == j.key && x.groups.any (fun g => g.g == y.g))) } }
      stepDone (setJob d j) j x)

/-- Steps whose every group is dropped end EMPTY (R215). -/
def endEmpty (d : Dev) (key made : Nat) : Dev :=
  forEach (((findJob d key).map (·.steps)).getD []) d (fun d x => match findJob d key with
    | some j =>
      if x.phase = .rollout ∧ x.trained.isEmpty then
        let j := j.setStep { x with phase := .empty }
        jobResp (bump (setJob d j) 0x6010 0x01 1) j 0x32 made (leBytes 4 j.id ++ leBytes 4 x.s)
      else d
    | none => d)

/-- Versions of steps that ended EMPTY before this edge go live, in order; steps whose last group this edge dropped end. -/
def emptySteps (d : Dev) (key : Nat) : Dev :=
  let d := forEach [0, 1] d (fun d _ => match findJob d key with
    | some j => match j.step? j.live with
      | some x => if x.phase = .empty then setJob d { (j.dropStep x.s) with live := j.live + 1 } else d
      | none => d
    | none => d)
  endEmpty d key (d.frame.no - 1)

/-- A created job's slots are bound, or it is refused with the code of the bind that failed (R212, R237). -/
def startJob (d : Dev) (key : Nat) : Dev :=
  match findJob d key with
  | none => d
  | some j =>
    if j.started then d
    else
      let no := fun u => (d.ink.refused.find? (fun x => x.1 == u)).map (·.2)
      match no j.policyUse, no j.rewardUse with
      | none, none =>
        if j.asked.isEmpty && pinHeld d j.policyUse j.variant && (j.reward == 0 || pinHeld d j.rewardUse j.reward) then
          jobResp (setJob d { j with started := true }) { j with started := true } 0x30 (d.frame.no - 1) (leBytes 4 j.id)
        else d
      | a, b =>
        let code := (a.orElse (fun _ => b)).getD stReserveFull
        let d := releasePin (releasePin d j.policyUse j.app) j.rewardUse j.app
        let d := { d with ink := { d.ink with refused := d.ink.refused.filter (fun x => x.1 != j.policyUse && x.1 != j.rewardUse) } }
        let d := jobResp d j code (d.frame.no - 1) []
        setJobs d (d.train.jobs.filter (fun x => x.key != key))

/-- Ends that are due: by JOB_CONTROL, or by MAX_STEPS; a committed step flips first (R251). -/
def endJobDue (d : Dev) (key : Nat) : Dev :=
  match findJob d key with
  | none => d
  | some j =>
    let j := { j with paused := j.pausedNext.getD j.paused, pausedNext := none,
                      ends := if j.ends.isNone && j.p.maxSteps != 0 && j.p.maxSteps ≤ j.live then some causeMaxSteps else j.ends }
    let d := setJob d j
    match j.ends with
    | some c => if j.committed.isSome then d else endJob d j c
    | none => d

/-- REDUCE_DONE of a device (R309). -/
def reduceReported (d : Dev) (key s device : Nat) (loss : Option Word) : Dev :=
  match findJob d key with
  | none => d
  | some j => match j.step? s with
    | none => d
    | some x =>
      let l := if x.reduced.contains device then x.reduced else x.reduced ++ [device]
      setJob d (j.setStep { x with reduced := l, loss := loss.getD x.loss })

/-- Reductions complete at this edge are reported; the last stage's report names the loss. -/
def reduceReports (d : Dev) (tree : List TreeIn) : Dev :=
  let (d, done) := reduceEdge d tree
  forEach done d (fun d r =>
    let last := (appAt d r.info.app).any (fun x => x.place.stage + 1 == chainLen x && x.place.replica == 0)
    let loss := if last then some r.loss else none
    if (findJob d r.info.job).isSome then reduceReported d r.info.job r.info.step (ownDevice d) loss
    else emit d (.reduceDone r.info.job r.info.step loss))

/-! ## Evaluations (R236) -/

def dropEval (d : Dev) (v : Eval) : Dev :=
  { (releasePin d (evalUse v.slot v.id) v.app) with train := { d.train with evals := d.train.evals.filter (fun x => !(x.slot == v.slot && x.id == v.id)) } }
def evalResp (d : Dev) (v : Eval) (code made : Nat) (rest : List Byte) : Dev :=
  let ver := ((variant d v.variant).map VarRec.version).getD 0
  addResp d { v.answer with status := code, made := made, report := report64 (leBytes 4 v.variant ++ leBytes 4 ver ++ rest) }

/-- COUNT-less probes to the end of the payload, each a PROMPT_LEN, a REF_LEN and their tokens. -/
def readProbes : Nat → List Byte → Option (List Probe)
  | 0, l => if l.isEmpty then some [] else none
  | n + 1, l =>
    if l.isEmpty then some []
    else
      let a := leNat (l.take 4)
      let b := leNat ((l.drop 4).take 4)
      if l.length < 8 + 4 * (a + b) then none
      else
        let t := tokensOf (a + b) (l.drop 8)
        (readProbes n (l.drop (8 + 4 * (a + b)))).map ({ prompt := t.take a, ref := t.drop a, expLp := 0, expMatch := 0 } :: ·)

def evaluate (d : Dev) (e : Env) (k : Nat) (body : List Byte) : Dev :=
  let v := leNat (body.take 4)
  let src := leNat ((body.drop 4).take 4)
  if e.source ≠ 3 ∧ elsewhere d v then forwardEnv d e k body
  else match variant d v with
  | none => trainAnswer d e k 0x10 []
  | some r =>
    if r.key ≠ k then trainAnswer d e k 0x10 []
    else if r.withdrawn then trainAnswer d e k stWithdrawn []
    else
      let probes := if src = 0 then r.check.map (·.probes) else if src = 1 then readProbes body.length (body.drop 8) else none
      match probes with
      | none => trainAnswer d e k 0x18 []
      | some ps =>
        let ev : Eval :=
          { slot := k, id := e.id, app := r.app, variant := v, answer := { envAnswer e k 0x38 v with report := [] }, probes := ps.length,
            seqs := ps.zipIdx.map (fun x => { g := 0, i := x.2, n := x.1.prompt.length + x.1.ref.length, f0 := none, fwd := true }),
            since := d.frame.no, asked := pinsOf d v }
        let d := bindPass (askPins d (evalUse k e.id) v r.app) { use := evalUse k e.id, variant := v, key := k, app := r.app, wait := none, claims := false }
        { d with train := { d.train with evals := d.train.evals ++ [ev] } }

/-- An evaluation for which a slot cannot be bound is answered with the code of the bind that failed (R237). -/
def refuseEvals (d : Dev) : Dev :=
  forEach d.train.evals d (fun d v =>
    let u := evalUse v.slot v.id
    match d.ink.refused.find? (fun x => x.1 == u) with
    | some (_, c) =>
      let d := { d with ink := { d.ink with refused := d.ink.refused.filter (fun x => x.1 != u) } }
      dropEval (addResp d { v.answer with status := c, made := d.frame.no - 1, report := report64 [] }) v
    | none => d)

/-- Evaluations whose last passes ran in the frame that ended (R236). -/
def evalsEdge (d : Dev) (l : List (Nat × Nat × List (Word × Word))) : Dev :=
  forEach l d (fun d x => match d.train.evals.find? (fun v => v.slot == x.1 && v.id == x.2.1) with
    | some v =>
      if x.2.2.length ≠ v.probes then d
      else dropEval (evalResp (bump d 0x6010 0x05 1) v 0x38 (d.frame.no - 1) (wordBytes (x.2.2.flatMap (fun y => [y.1, y.2])))) v
    | none => d)

/-! ## Pins and schedules along the chain (R224, R237) -/

/-- The key slot of a job's or an evaluation's use. -/
def useSlot : Use → Nat
  | .request k _ => k
  | .job n => n / 2 / 2 ^ 32
  | .eval n => n / 2 ^ 64

/-- Another device's answer to a pin asked for: a refusal decides the job or the evaluation at the next edge. -/
def takePinAnswer (d : Dev) (src : Nat) (u : Use) (code : Nat) : Dev :=
  let mine := d.train.jobs.any (fun j => j.asked.contains (u, src)) || d.train.evals.any (fun v => evalUse v.slot v.id == u && v.asked.contains src)
  if !mine then d
  else if code ≠ 0 then { d with ink := { d.ink with refused := d.ink.refused ++ [(u, code)] } }
  else { d with train := { d.train with
    jobs := d.train.jobs.map (fun j => { j with asked := j.asked.filter (· != (u, src)) })
    evals := d.train.evals.map (fun v => if evalUse v.slot v.id = u then { v with asked := v.asked.filter (· ≠ src) } else v) } }

/-- A job or an evaluation of another device ends: its pin here and its schedules go. -/
def takePinRelease (d : Dev) (u : Use) : Dev :=
  let d := dropNotes (releaseUse d u) (fun x => x.use == u)
  { d with gen := { d.gen with asks := d.gen.asks.filter (· != u) } }

/-- Schedules whose last frame has passed are over. -/
def notesEdge (d : Dev) : Dev :=
  dropNotes d (fun x => match appAt d x.app with
    | some a => decide ((noteSched x).last (max 1 a.book.trainChunk) (chainLen a) x.f0 < d.frame.no)
    | none => true)

/-! ## The edge -/

/-- Step 7 for training, after the ends of the frame's rollouts: loss rows, reductions, creations, ends and DRAWs. -/
def trainEdge (d : Dev) (op : TickEdgeOp) : Dev :=
  let d := forEach d.gen.ended { d with gen := { d.gen with ended := [] } } rolloutEnded
  let d := forEach op.losses (sweepContribs d) lossRow
  let d := notesEdge (evalsEdge (refuseEvals (reduceReports d op.tree)) op.evals)
  let keys := d.train.jobs.map (·.key)
  forEach keys (scribeEdge d) (fun d k => drawJob (endJobDue (emptySteps (startJob d k) k) k) k)

/-! ## The commands -/

/-- A training envelope that has passed intake. -/
def trainEnv (op : EnvOp) (kind : Nat) (s : State) (f : Dev → Env → Nat → List Byte → Dev) : Host.Outcome State Fault Refusal :=
  onEnvelope op kind s (fun d e k body => f (unring d e k) e k body)

def execTrainJob (op : EnvOp) (s : State) : Host.Outcome State Fault Refusal := trainEnv op 0x06 s trainJob
def execLedgerAppend (op : EnvOp) (s : State) : Host.Outcome State Fault Refusal := trainEnv op 0x07 s ledgerAppend
def execRewards (op : EnvOp) (s : State) : Host.Outcome State Fault Refusal := trainEnv op 0x08 s rewardsIn
def execOfflineGroup (op : EnvOp) (s : State) : Host.Outcome State Fault Refusal := trainEnv op 0x09 s offlineGroup
def execJobPause (op : EnvOp) (s : State) : Host.Outcome State Fault Refusal :=
  trainEnv op 0x0A s (fun d e k b => jobControl d e k 0 b)
def execJobResume (op : EnvOp) (s : State) : Host.Outcome State Fault Refusal :=
  trainEnv op 0x0A s (fun d e k b => jobControl d e k 1 b)
def execJobEnd (op : EnvOp) (s : State) : Host.Outcome State Fault Refusal :=
  trainEnv op 0x0A s (fun d e k b => jobControl d e k 2 b)
def execEvaluate (op : EnvOp) (s : State) : Host.Outcome State Fault Refusal := trainEnv op 0x0B s evaluate

/-- A group whose external rewards have not come within REWARD_WAIT frames of its end is dropped (R219). -/
def execRewardWaitExpiry (op : GroupOp) (s : State) : Host.Outcome State Fault Refusal :=
  onDev s (fun d =>
    let d := atOff d op.off
    match findJob d (jobKey op.slot op.job) with
    | none => d
    | some j => match j.group? op.group with
      | none => d
      | some y =>
        if j.reward = 0 ∧ y.ended.any (fun f => f + reg d 0x600A 0x00 ≤ d.frame.no) ∧ y.rollouts.any (·.reward.isNone) then
          endEmpty (dropGroup d j op.group) j.key d.frame.no
        else d)

def execAdvantage (op : AdvantageOp) (s : State) : Host.Outcome State Fault Refusal :=
  onDev s (fun d =>
    let d := atOff d op.off
    match findJob d (jobKey op.slot op.job) with
    | none => d
    | some j =>
      let j := (j.steps.map (·.s)).foldl (fun j x => takeScores j x op.scores) j
      endEmpty (advantageStep (setJob d j) j) j.key d.frame.no)

def execCommitNotice (op : CommitOp) (s : State) : Host.Outcome State Fault Refusal :=
  onDev s (fun d => takeNotice (atOff d op.off) op.notice)

def execScribeDone (op : VariantOp) (s : State) : Host.Outcome State Fault Refusal :=
  onDev s (fun d => scribeDone (atOff d op.off) op.variant)

def execScribeReport (op : ScribeReportOp) (s : State) : Host.Outcome State Fault Refusal :=
  onDev s (fun d => scribeReported (atOff d op.off) (jobKey op.slot op.job) op.step op.device op.fault op.cold)

/-- An evaluation not complete within EVAL_FRAMES is abandoned (R236). -/
def execEvalFramesExpiry (op : ReqOp) (s : State) : Host.Outcome State Fault Refusal :=
  onDev s (fun d =>
    let d := atOff d op.off
    match d.train.evals.find? (fun v => v.slot == op.slot && v.id == op.id) with
    | none => d
    | some v => if v.since + reg d 0x600C 0x00 ≤ d.frame.no then dropEval (evalResp d v 0x39 d.frame.no []) v else d)

def execReduceDone (op : ReduceOp) (s : State) : Host.Outcome State Fault Refusal :=
  onDev s (fun d => reduceReported (atOff d op.off) (jobKey op.slot op.job) op.step op.device op.loss)

end Sys2Proof.Machine
end

