-- ==== Sys2Proof/Machine/Snapshot.lean ====
section
/-!
DEFINITION. Snapshots of an application (R252 to R261), the store of a buddy (R255) and the restore (R262 to R264).
-/
namespace Sys2Proof.Machine
open Sys2Proof

/-! ## Parts -/

/-- Numbers of the parts of a snapshot: a variant's is its VARIANT_ID; then job records (on the chain's first device), late manifests,
numerics, identity; last the manifest. -/
def partJobs : Nat := 2 ^ 32
def partManifest : Nat := partJobs + 4
/-- The completion record, in the copy for the network target (R257). -/
def partRecord : Nat := partJobs + 5
def otherParts (d : Dev) (a : Nat) : List Nat :=
  (if (appAt d a).any (fun x => x.place.stage == 0) then [partJobs] else []) ++ [partJobs + 1, partJobs + 2, partJobs + 3, partManifest]

/-- Bytes of a variant's bank: masters and optimiser bank (R241, R242). -/
def bankBytes (c : Copybook) (r : VarRec) : Nat := 4 * masterElems c r + 64 + 2 * masterElems c r + 8 * (optRows c r).length
/-- Bytes of a variant's whole record besides: its header, its patch definitions and lists, its check set (R158, R160, R328). -/
def recordBytes (r : VarRec) : Nat :=
  256 + 32 * r.patches.length + 2 * (r.lists.map List.length).sum +
    ((r.check.map (fun k => 8 + (k.probes.map (fun p => 16 + 4 * (p.prompt.length + p.ref.length))).sum)).getD 0)
/-- Bytes of a part; the parts that the manual gives no layout count for none (DESIGN CHOICE: log entry 184). -/
def partBytes (d : Dev) (old : Option Image) (part : Nat) : Nat :=
  match variant d part with
  | some r => ((bookOf d r).map (fun c => bankBytes c r)).getD 0 +
      (if old.any (fun i => i.vars.any (fun y => y.id == part)) then 0 else recordBytes r)
  | none => 0

/-- SNAP_STATE (R265). -/
def setSnapState (d : Dev) (a : Nat) (x : Snap) (st : Nat) : Dev := setReg (setSnap d a { x with state := st }) 0x6024 0x00 st

/-- The HELD mark of the live bank that an image took. -/
def setHeld (d : Dev) (v : Nat) (b : Bool) (held : Bool) : Dev :=
  match variant d v with
  | some r => setVariant d v (some (r.setBank b (setField (r.bank b) 97 1 (b2n held))))
  | none => d
/-- The bank that an image took of a variant. -/
def takenBank (i : Image) (v : Nat) : Option Bool := (i.vars.find? (fun x => x.id == v)).map (fun x => x.rec_.liveB)
def unhold (d : Dev) (i : Image) (v : Nat) : Dev :=
  match takenBank i v with
  | some b => setHeld d v b false
  | none => d

/-! ## Capture (R252) -/

/-- A variant's live bank as it stands. -/
def captureVar (d : Dev) (number : Nat) (c : Copybook) (r : VarRec) : SnapVar :=
  let e := masterElems c r
  { id := r.id, taken := number, rec_ := r, masters := peekWords d r.app (masterBank c r r.liveB) e,
    moments := peekDva d r.app (optBank c r r.liveB + 64) (2 * e),
    scales := peekWords d r.app (scaleAt c r r.liveB 0) (2 * (optRows c r).length) }

/-- Variants of an application to secure: newer than in the latest complete snapshot, or not in it. -/
def toSecure (d : Dev) (a : Nat) (old : Option Image) : List VarRec :=
  d.ink.recs.filterMap (fun x => match x.2 with
    | some r =>
      if r.app ≠ a then none
      else match old.bind (fun i => i.vars.find? (fun y => y.id == r.id)) with
        | some y => if y.rec_.version < r.version || y.rec_.baseGen != r.baseGen || y.rec_.wd != r.wd then some r else none
        | none => some r
    | none => none)

/-- Parts in job order, then the variants without a job, then the rest (R254). -/
def drainOrder (d : Dev) (a : Nat) (vs : List Nat) : List Nat :=
  let jobs := (d.train.jobs.map (·.variant)).filter vs.contains
  jobs ++ vs.filter (fun v => !jobs.contains v) ++ otherParts d a

/-- A job as it stands at the DRAW of the step after the live version. -/
def jobRecord (j : Job) : Job :=
  let at_ := j.step? j.live
  { j with cursor := (at_.map (·.ledgerAt)).getD j.cursor, groupCursor := (at_.map (·.groupAt)).getD j.groupCursor, next := j.live,
           steps := [], committed := none }

/-- The capture at edge E. -/
def captureApp (d : Dev) (a : Nat) (x : Snap) (app : App) : Dev :=
  let vs := toSecure d a x.complete
  let fresh := vs.filterMap (fun r => (bookOf d r).map (fun c => captureVar d x.number c r))
  let kept := ((x.complete.map (·.vars)).getD []).filter (fun y =>
    !fresh.any (fun z => z.id == y.id) && (variant d y.id).isSome)
  let parts := partsOf d a
  let mine := fun (k : Nat) => parts.contains (k / 1024)
  let i : Image :=
    { number := x.number, edge := d.frame.no, vars := kept ++ fresh,
      jobs := (d.train.jobs.filter (fun j => j.app == a)).map jobRecord,
      late := d.train.late.filter (fun b => d.train.jobs.any (fun j => j.key == b.job && j.app == a) ||
        d.train.reduces.any (fun r => r.info.job == b.job && r.info.app == a)),
      records := d.num.records.filter (fun y => mine y.1), retained := d.num.retained.filter (fun y => mine y.1),
      trace := d.num.trace.filter (fun y => mine y.1), baseId := app.book.baseId, baseGen := app.book.baseGen, measure := app.book.measure }
  let d := forEach vs d (fun d r => setHeld d r.id r.liveB true)
  setSnapState d a { x with order := none, current := some i, toSend := drainOrder d a (vs.map VarRec.id), sent := [], moved := 0,
                            manifest := [], recorded := [], spent := 0, last := d.frame.no } 1

/-! ## Interruption (R256) -/

/-- The store frees what it holds for one snapshot. -/
def dropStored (d : Dev) (a number : Nat) : Dev :=
  { d with snap := { d.snap with
      store := d.snap.store.filter (fun o => !(o.app == a && o.snapshot == number))
      records := d.snap.records.filter (fun o => !(o.app == a && o.snapshot == number)) } }

/-- The HELD marks go; the latest complete snapshot stays. -/
def endSnap (d : Dev) (a : Nat) (i : Image) : Dev :=
  let d := forEach i.vars d (fun d y => setHeld d y.id y.rec_.liveB false)
  bump (setSnapState d a { snapOf d a with current := none, toSend := [], recorded := [], boosted := false } 4) 0x6050 0x07 1

/-- This device interrupts a snapshot in progress, for every device of the set and every buddy. -/
def interruptSnap (d : Dev) (a : Nat) : Dev :=
  match (snapOf d a).current with
  | none => d
  | some i => emit (endSnap (dropStored d a i.number) a i) (.snapInterrupt a i.number)

/-- Another device has interrupted a snapshot. -/
def snapInterrupted (d : Dev) (a number : Nat) : Dev :=
  let d := dropStored d a number
  match (snapOf d a).current with
  | some i => if i.number = number then endSnap d a i else d
  | none => d

/-- A device's buddy is another than before: what it was storing is lost (DEDUCED: log entry 192). -/
def newBuddy (d : Dev) (b : Nat) : Dev :=
  if b = reg d 0x6023 0x00 then d else forEach d.snap.apps (setReg d 0x6023 0x00 b) (fun d y => interruptSnap d y.1)

/-! ## The drain (R254, R255) -/

/-- Objects that a snapshot's manifest on this device names. -/
def manifestNames (d : Dev) (a : Nat) (i : Image) : List (Nat × Nat) :=
  i.vars.map (fun y => (y.id, y.taken)) ++ ((otherParts d a).filter (· != partManifest)).map (fun p => (p, i.number))

/-- A part is sealed and leaves for the buddy. The ciphertext's SHA-512 is free: the security engine draws the key (R362). -/
def sendPart (d : Dev) (a : Nat) (i : Image) (part : Nat) : Dev :=
  let x := snapOf d a
  let (sha, d) := drawBytes d 64
  let names := if part = partManifest then manifestNames d a i else []
  let len := partBytes d x.complete part
  let d := setSnap d a { x with sent := x.sent ++ [part], moved := x.moved - len, manifest := if part = partManifest then sha else x.manifest }
  emit d (.snapObject { device := ownDevice d, app := a, snapshot := i.number, part := part,
                        version := ((i.vars.find? (fun y => y.id == part)).map (fun y => y.rec_.version)).getD 0, len := len, sha := sha, names := names })

/-- Parts whose bytes have been drained leave, in their order; the manifest after the last of them is acknowledged. -/
def sendParts (d : Dev) (a : Nat) : Dev :=
  forEach (snapOf d a).toSend d (fun d p =>
    let x := snapOf d a
    match x.current with
    | none => d
    | some i =>
      if (x.toSend.find? (fun q => !x.sent.contains q)) = some p ∧ partBytes d x.complete p ≤ x.moved ∧ (p ≠ partManifest ∨ x.toSend = [p]) then
        sendPart d a i p
      else d)

/-- Drain windows of an application have run for n hclk: SNAP_RATE bytes each; a part cut short is carried. -/
def drained (d : Dev) (a n : Nat) : Dev :=
  let x := snapOf d a
  if x.current.isNone then d
  else
    let d := sendParts (setSnap d a { x with moved := x.moved + n * reg d 0x6020 0x05, spent := x.spent + n }) a
    let x := snapOf d a
    if x.toSend.all x.sent.contains then setSnap d a { x with moved := 0 } else d

/-! ## The edge -/

/-- A drain window whose task ended SHORT interrupts the snapshot (R256). -/
def drainFailed (d : Dev) (a : Nat) : Bool :=
  d.frame.tasks.any (fun x => match x.2 with
    | some t => t.plan.drain == some a && t.status == .failed
    | none => false)

/-- The capture of an edge, after its other actions (R252); a capture becomes DRAINING a frame later. Steps left unsecured have their
snapshot ordered as soon as none is in progress (R258). -/
def snapsEdge (d : Dev) : Dev :=
  forEach d.snap.apps { d with snap := { d.snap with served := d.snap.served + 1 } } (fun d x =>
    let a := x.1
    let y := snapOf d a
    let d := if y.current.isSome && y.state == 1 then setSnapState d a y 2 else d
    let y := snapOf d a
    let d := match appAt d a with
      | some app => if y.order = some d.frame.no ∧ y.current.isNone then captureApp d a y app else d
      | none => d
    if isManager d ∧ d.train.jobs.any (fun j => j.app == a && decide (reg d 0x6020 0x04 / 2 ≤ j.unsecured)) then boostSnap d a else d)

/-! ## Acknowledgements, records and completion (R253, R255, R257) -/

/-- An object's answer from the buddy. -/
def snapAcked (d : Dev) (a number part : Nat) (refused : Bool) : Dev :=
  let x := snapOf d a
  match x.current with
  | none => d
  | some i =>
    if i.number ≠ number ∨ !x.toSend.contains part then d
    else if refused then interruptSnap d a
    else
      let x := { x with toSend := x.toSend.filter (· != part) }
      let d := unhold (setSnapState d a x 2) i part
      let d := if reg d 0x6023 0x01 = 1 then emit d (.snapNet a number part) else d
      if !x.toSend.isEmpty then sendParts d a
      else
        let d := emit d (.snapRecord { device := ownDevice d, app := a, snapshot := number, edge := i.edge, sha := x.manifest } x.spent)
        let d := if reg d 0x6023 0x01 = 1 then emit d (.snapNet a number partRecord) else d
        if isManager d then setSnap d a { (snapOf d a) with recorded := ownDevice d :: (snapOf d a).recorded } else d

/-- The store keeps the completion record of a device whose objects it holds (R255). -/
def storeRecord (d : Dev) (r : SnapRec) : Dev :=
  if d.snap.store.any (fun o => o.device == r.device && o.app == r.app && o.snapshot == r.snapshot) then
    { d with snap := { d.snap with records := d.snap.records.filter (fun y => !(y.device == r.device && y.app == r.app &&
        y.snapshot == r.snapshot)) ++ [r] } }
  else d

/-- A device's completion record reaches the manager; the last one lets it write SNAPSHOT_COMPLETE. -/
def snapRecorded (d : Dev) (a number device spent : Nat) : Dev :=
  let x := snapOf d a
  if !isManager d ∨ x.current.all (fun i => i.number != number) ∨ x.recorded.contains device then d
  else setSnap d a { x with recorded := x.recorded ++ [device], spent := max x.spent spent }

/-- Objects that the manifests of two complete snapshots name, with those manifests; and what belongs to a later snapshot (R255). -/
def storeKeep (l : List SnapObj) (a k old : Nat) : List SnapObj :=
  let kept := l.filter (fun y => y.app == a && y.part == partManifest && (y.snapshot == k || y.snapshot == old))
  l.filter (fun o => o.app != a || k < o.snapshot || kept.contains o ||
    kept.any (fun m => m.device == o.device && m.names.contains (o.part, o.snapshot)))

/-- FP32 of a quotient of whole numbers. -/
def ratWord (n m : Nat) : Word :=
  if m = 0 then 0 else
    let q := (n <<< 256) / m
    ofNum (.fin false (2 * q + (if (n <<< 256) % m = 0 then 0 else 1)) (-257))

/-- The manager's failure rate and interval (R258 to R260), as quotients: λd per device-hour, and T in frames. -/
structure Adaptive where
  lambda : Nat × Nat
  cost : Nat × Nat
  interval : Nat
  deriving DecidableEq, Repr

/-- Losses within the window, and the device-hours of service in it (times 3.6 × 10^9 over the period in µs). -/
def adaptive (d : Dev) (a : Nat) : Adaptive :=
  let x := snapOf d a
  let n := setSizeOf d a
  let period := reg d 0x1010 0x00
  let hour := 3600000000
  let window := reg d 0x6021 0x02 * hour / max 1 period
  let losses := ((d.ash.main.map (·.2)).filter isLoss ++ (d.lig.sys.map (·.losses)).getD []).eraseDups
  let f := (losses.filter (fun z => 3 ≤ lossCause z && lossCause z ≤ 5 && decide (d.frame.no ≤ field z 64 64 + window))).length
  let hp := reg d 0x6021 0x01
  let served := min (max d.snap.served ((d.lig.sys.map (·.served)).getD 0)) window * n * period
  let num := (f * 10 ^ 9 + reg d 0x6021 0x00 * hp) * hour
  let den := 10 ^ 9 * (served + hp * hour)
  let est := (((toSecure d a x.complete).map (fun r => partBytes d x.complete r.id)).sum + reg d 0x6020 0x05 - 1) / max 1 (reg d 0x6020 0x05)
  let costs := (x.costs ++ List.replicate 4 est).take 4
  let q := 2 * costs.sum * den * hour / max 1 (4 * periodHclk d * num * n * period)
  let t := if num = 0 ∨ n * period * periodHclk d = 0 then reg d 0x6020 0x03 else isqrt q
  { lambda := (num, den), cost := (costs.sum, 4 * periodHclk d), interval := max (reg d 0x6020 0x02) (min (reg d 0x6020 0x03) t) }

/-- T in force under the policy. -/
def snapInterval (d : Dev) (a : Nat) : Nat :=
  if reg d 0x6020 0x00 = 2 then reg d 0x6020 0x01 else (adaptive d a).interval

/-- The snapshot is complete on this device. -/
def completeSnap (d : Dev) (a number : Nat) : Dev :=
  let x := snapOf d a
  let old := ((d.snap.completeNos.find? (·.1 == a)).map (·.2)).getD 0
  let d := { d with snap := { d.snap with
    store := storeKeep d.snap.store a number old
    records := d.snap.records.filter (fun o => o.app != a || o.snapshot == number || o.snapshot == old || decide (number < o.snapshot))
    completeNos := d.snap.completeNos.filter (·.1 != a) ++ [(a, number)] } }
  match x.current with
  | none => d
  | some i =>
    if i.number ≠ number then d
    else
      let x := { x with complete := some i, current := none, boosted := false, costs := (x.spent :: x.costs).take 4 }
      let d := bump (setSnapState d a x 3) 0x6050 0x06 1
      let d := setReg d 0x6024 0x01 i.edge
      let d := setJobs d (d.train.jobs.map (fun j => match i.jobs.find? (fun y => y.key == j.key) with
        | some y => { j with secured := max j.secured y.done }
        | none => j))
      if isManager d then
        let z := adaptive d a
        setReg (setReg (setReg d 0x6022 0x00 (ratWord z.cost.1 z.cost.2).toNat) 0x6022 0x01 (ratWord z.lambda.1 z.lambda.2).toNat)
          0x6022 0x02 (snapInterval d a)
      else d

/-! ## Restore (R262) -/

/-- The manager stops the application at the next edge that every device reaches. -/
def orderRestore (d : Dev) (a : Nat) : Dev :=
  if (appAt d a).isNone ∨ (snapOf d a).stopAt.isSome then d
  else
    let e := reachableEdge d
    tellOthers (setSnap d a { (snapOf d a) with stopAt := some e, restored := [], resumeAt := none }) a (.restoreStop a e)

/-- Generation requests of an application end with a status. -/
def endAppReqs (d : Dev) (a code : Nat) : Dev :=
  forEach (d.gen.reqs.filter (fun q => q.app == a && q.rollout.isNone)) d (fun d q => endReq (unringReq d q) { q with onRing := false } code)

/-- Edge r0: the application stops. -/
def restoreStop (d : Dev) (a : Nat) : Dev :=
  match appAt d a with
  | none => d
  | some x =>
    let d := setApp d a { x with stopped := true }
    let d := endAppReqs (interruptSnap d a) a 0x21
    let d := forEach (d.train.jobs.filter (fun j => j.app == a)) d (fun d j => abandonSteps d j causeRestore (d.frame.no - 1))
    { d with ink := { d.ink with recs := d.ink.recs.map (fun y => (y.1, y.2.map (fun r =>
        if r.app = a then { (r.setHdr 173 1 0) with flipSeen := false } else r))) } }

/-- Write one variant back: its record, its live bank and the copies that tasks read; the other bank's VALID is 0; its slot is
filled again. -/
def restoreVar (d : Dev) (y : SnapVar) (frames : List (Nat × Nat)) : Dev :=
  let b := y.rec_.liveB
  let r := y.rec_.setBank (!b) (setField (y.rec_.bank (!b)) 96 2 0)
  let r := { (r.setBank b (setField (r.bank b) 97 1 0)).setHdr 173 1 0 with flipSeen := false }
  let r := if (variant d y.id).isSome then r else { r with pages := frames.map (·.1) }
  let d := if (variant d y.id).isSome then d else placeRec d r frames
  let d := countRecs (setVariant d y.id (some r))
  match bookOf d r with
  | none => d
  | some c =>
    let d := pokeDva d r.app (masterBank c r b) (wordBytes y.masters)
    let d := pokeDva d r.app (optBank c r b + 64) y.moments
    let d := writeLive (pokeDva d r.app (scaleAt c r b 0) (wordBytes y.scales)) c r b y.masters
    match ownedSlot d y.id with
    | none => d
    | some s =>
      let e := setField (setField (slot d s) 50 1 (b2n b)) 51 1 0
      if (slot d s).st = 2 ∨ (slot d s).st = 1 then
        let d := setSlot d s (setField e 48 2 1)
        queueFill { d with ink := { d.ink with fills := d.ink.fills.filter (fun f => f.slot != s) } } s (halfBit b)
      else d

/-- A job that the snapshot does not hold begins again. -/
def restartJob (j : Job) : Job :=
  { j with cursor := 0, groupCursor := 0, next := 0, live := 0, steps := [], committed := none, done := 0, secured := 0 }

/-- Tables restored for the keys of some partitions. -/
def restoreTable {α : Type} (mine : Nat → Bool) (now old : Table α) : Table α :=
  (now.filter (fun y => !mine y.1) ++ old).foldl (fun t y => t.put y.1 y.2) []

/-- The jobs of an application have their pins, here and along the chain (R237): those that a restart has lost are asked for again. -/
def repinJobs (d : Dev) (a : Nat) : Dev :=
  forEach (d.train.jobs.filter (fun j => j.app == a)) d (fun d j =>
    let d := bindFor (askPins d j.policyUse j.variant a) j.policyUse j.variant j.slot a
    if j.reward = 0 then d else bindFor (askPins d j.rewardUse j.reward a) j.rewardUse j.reward j.slot a)

/-- This device writes the latest complete snapshot back. -/
def writeBack (d : Dev) (a : Nat) (pages : List (Nat × Nat × Nat)) : Dev :=
  let x := snapOf d a
  match x.complete with
  | none => setJobs d (d.train.jobs.map (fun j => if j.app = a then restartJob j else j))
  | some i =>
    let d := forEach i.vars d (fun d y => restoreVar d y ((pages.filter (·.1 == y.id)).map (·.2)))
    let mine := fun (k : Nat) => (partsOf d a).contains (k / 1024)
    let gone := d.train.jobs.filter (fun j => j.app == a && !i.jobs.any (fun y => y.key == j.key))
    let back := i.jobs.map (fun y => match d.train.jobs.find? (fun j => j.key == y.key) with
      | some j => { y with last := j.last, ledger := if y.ledger.length < j.ledger.length then j.ledger else y.ledger,
                           secured := y.done }
      | none => { y with secured := y.done })
    let d := setJobs d (d.train.jobs.filter (fun j => j.app != a) ++ back ++ gone.map restartJob)
    let d := releasePeat d (fun u => u.app == a)
    let d := forgetSteps d (fun t => d.train.reduces.any (fun r => r.info.app == a && r.info.job + 1 == t.1))
    let keys := i.jobs.map (·.key) ++ i.late.map (·.job)
    { d with
      train := { d.train with
        late := d.train.late.filter (fun b => !keys.contains b.job) ++ i.late.map lostBook
        reduces := d.train.reduces.filter (fun r => r.info.app != a) }
      num := { d.num with
        records := restoreTable mine d.num.records i.records
        retained := restoreTable mine d.num.retained i.retained
        trace := restoreTable mine d.num.trace i.trace } }

/-- A device that takes a lost one's place holds no snapshot of its own: its store gives it the lost one's (R262). -/
def takeImage (d : Dev) (a : Nat) (i : Option Image) : Dev :=
  let x := snapOf d a
  if x.complete.isSome then d else match i with
    | some i => setSnap d a { x with complete := some i, number := max x.number i.number }
    | none => d

/-- A device reports its restore done; the last report names the resume edge (R262). -/
def restoreReported (d : Dev) (a device : Nat) (image : Option Image) (pages : List (Nat × Nat × Nat)) : Dev :=
  match appAt d a with
  | none => d
  | some app =>
    let x := snapOf d a
    if !app.stopped ∨ x.stopAt.isNone ∨ x.restored.contains device then d
    else
      let d := if device = ownDevice d then tellOthers (repinJobs (writeBack (takeImage d a image) a pages) a) a (.restored a) else d
      let x := { snapOf d a with restored := x.restored ++ [device] }
      if isManager d ∧ setSize app ≤ x.restored.length then
        let r := d.frame.no + 16
        tellOthers (setSnap d a { x with resumeAt := some r }) a (.resumeEdge a r)
      else setSnap d a x

/-- The resume edge: the application runs again, and each of its jobs answers JOB_RESTORED (R264). -/
def resumeApp (d : Dev) (a : Nat) : Dev :=
  match appAt d a with
  | none => d
  | some app =>
    let d := bump (setApp d a { app with stopped := false }) 0x6050 0x08 1
    let d := setSnap d a { snapOf d a with stopAt := none, resumeAt := none, restored := [] }
    forEach (d.train.jobs.filter (fun j => j.app == a)) d (fun d j =>
      let s := (j.live + 0xFFFFFFFF) % 2 ^ 32
      let d := jobResp d j 0x3A (d.frame.no - 1) (leBytes 4 j.id ++ leBytes 4 s ++ leBytes 4 (j.last.getD 0xFFFFFFFF))
      raiseReport d 8 1 (BitVec.ofNat 512 (packBits [(0, 32, j.id), (32, 32, j.slot), (64, 32, s), (96, 32, j.last.getD 0xFFFFFFFF)])))

/-- Stops and resumptions of this edge, before the DRAWs. -/
def restoresEdge (d : Dev) : Dev :=
  forEach d.snap.apps d (fun d y =>
    let x := snapOf d y.1
    let d := if x.stopAt = some d.frame.no then restoreStop d y.1 else d
    if x.resumeAt = some d.frame.no then resumeApp d y.1 else d)

/-- Drain windows that ended SHORT (R256). -/
def drainsEdge (d : Dev) : Dev := forEach d.snap.apps d (fun d y => if drainFailed d y.1 then interruptSnap d y.1 else d)

/-! ## The commands -/

/-- The policy interval has elapsed since the last capture (R258): the next edge of capture lies at least 16 frames on. -/
def execSnapshotInterval (op : AppOp) (s : State) : Host.Outcome State Fault Refusal :=
  onDevIf (op.app < 8) s (fun d =>
    let d := atOff d op.off
    let x := snapOf d op.app
    if isManager d ∧ reg d 0x6020 0x00 ≠ 0 ∧ x.last + snapInterval d op.app ≤ d.frame.no + 16 then
      orderSnap d op.app (d.frame.no + 16) false
    else d)

/-- A sealed object arrives at this device's store (R255). -/
def execSnapObject (op : SnapObjOp) (s : State) : Host.Outcome State Fault Refusal :=
  onDev s (fun d =>
    let d := atOff d op.off
    let o := op.obj
    if !op.room then emit d (.snapAck o.device o.app o.snapshot o.part true)
    else
      let same := fun (y : SnapObj) => y.device == o.device && y.app == o.app && y.part == o.part && y.snapshot == o.snapshot
      let d := { d with snap := { d.snap with store := d.snap.store.filter (fun y => !same y) ++ [o] } }
      emit d (.snapAck o.device o.app o.snapshot o.part false))

def execSnapObjectAck (op : SnapAckOp) (s : State) : Host.Outcome State Fault Refusal :=
  onDevIf (op.app < 8) s (fun d => snapAcked (atOff d op.off) op.app op.snapshot op.part op.refused)

def execSnapCompletionRecord (op : SnapRecOp) (s : State) : Host.Outcome State Fault Refusal :=
  onDevIf (op.app < 8) s (fun d => 
    snapRecorded (storeRecord (atOff d op.off) { device := op.device, app := op.app, snapshot := op.snapshot, edge := op.edge, sha := op.sha })
      op.app op.snapshot op.device op.spent)

/-- A snapshot not complete within SNAP_TIMEOUT frames of E is interrupted (R256). -/
def execSnapTimeout (op : AppOp) (s : State) : Host.Outcome State Fault Refusal :=
  onDevIf (op.app < 8) s (fun d =>
    let d := atOff d op.off
    if (snapOf d op.app).current.any (fun i => i.edge + reg d 0x6020 0x07 ≤ d.frame.no) then interruptSnap d op.app else d)

def execRestore (op : AppOp) (s : State) : Host.Outcome State Fault Refusal :=
  onDevIf (op.app < 8) s (fun d =>
    let d := atOff d op.off
    if isManager d then orderRestore d op.app else d)

def execRestoreReport (op : RestoreOp) (s : State) : Host.Outcome State Fault Refusal :=
  onDevIf (op.app < 8) s (fun d => restoreReported (atOff d op.off) op.app op.device op.image op.pages)

end Sys2Proof.Machine
end

