-- ==== Sys2Proof/Machine/Base.lean ====
section
/-!
DEFINITION. Base model replacement (R320 to R339): the order, staging, the carry task, the check, the switch edge, EMBER and RETIRE,
and the journal.
-/
namespace Sys2Proof.Machine
open Sys2Proof

/-! ## State of an operation -/

def baseIdle : BaseS :=
  { phase := 0, opId := 0, order := 0, newGen := 0, package := none, verified := [], journal := [], mapAt := 0, holdRegs := false,
    switchAt := none, old := none, quash := [], checks := [] }
def baseOf (d : Dev) (a : Nat) : BaseS := d.base.get baseIdle a
def setBase (d : Dev) (a : Nat) (b : BaseS) : Dev :=
  let d := { d with base := d.base.set baseIdle a b }
  setReg (setReg d 0x2101 (a + 1) b.phase) 0x2103 (a + 1) (b.switchAt.getD 0)

/-- Entry states (R337). -/
def jPending : Nat := 0
def jMapping : Nat := 1
def jMapped : Nat := 2
def jChecking : Nat := 3
def jPassed : Nat := 4
def jFailed : Nat := 5
def jSwitched : Nat := 6
def jKept : Nat := 7
def jReleased : Nat := 8

def JEntry.variant (e : JEntry) : Nat := field e.word 0 32
def JEntry.st (e : JEntry) : Nat := field e.word 32 4
def JEntry.cause (e : JEntry) : Nat := field e.word 36 4
/-- A change of state, written with its cause and frame before the device acts on it. -/
def JEntry.go (e : JEntry) (d : Dev) (st cause : Nat) : JEntry :=
  { e with word := setField (setField (setField e.word 32 4 st) 36 4 cause) 96 32 d.frame.no }

def entryOf (d : Dev) (a v : Nat) : Option JEntry := (baseOf d a).journal.find? (fun e => e.variant == v)
def setEntry (d : Dev) (a : Nat) (e : JEntry) : Dev :=
  let b := baseOf d a
  setBase d a { b with journal := b.journal.map (fun x => if x.variant = e.variant then e else x) }

/-! ## The order and the stage (R320 to R323) -/

def orderApp (o : BitVec 1024) : Nat := field o 32 3
def orderBase (o : BitVec 1024) : Nat := field o 0 32
def carriesMoments (b : BaseS) : Bool := field b.order 37 1 = 1

/-- The block keeps its table; reserved bits are ignored (R11). -/
def orderOk (o : BitVec 1024) : Bool :=
  field o 35 2 != 3 && (field o 35 2 == 2 || field o 128 64 == 0)

/-- An operation of the application stands in a phase other than IDLE; ABANDONED lets it be ordered again (R339). -/
def baseBusy (d : Dev) (a : Nat) : Bool := (baseOf d a).phase != 0 && (baseOf d a).phase != 7

/-- The highest generation of a base that the system has held (R321): of an earlier operation, or of a copybook live or kept. -/
def heldGen (d : Dev) (id : Nat) : Nat :=
  let books := (d.gen.apps.filterMap (fun x => x.2.map (·.book))) ++ d.base.filterMap (fun x => x.2.old)
  books.foldl (fun g c => if c.baseId = id then max g c.baseGen else g) (d.baseGens.get 0 id)

/-- The manager tells the set; the standby hears of every change of an operation first (R292, R337). -/
def tellBase (d : Dev) (a : Nat) (x : Out) : Dev := mgrSend d (if 1 < setSizeOf d a then [x] else [])
/-- A phase that every device reaches by itself. -/
def tellPhase (d : Dev) : Dev := if isManager d then mgrSend d [] else d

/-- An operation begins on this device. -/
def beginBase (d : Dev) (o : BitVec 1024) (opId newGen : Nat) : Dev :=
  let a := orderApp o
  let d := { d with baseGens := d.baseGens.set 0 (orderBase o) newGen }
  setBase d a { baseIdle with phase := 1, opId := opId, order := o, newGen := newGen }

/-- The manager takes an order: it assigns OP_ID and NEW_BASE_GEN. -/
def orderBaseNow (d : Dev) (o : BitVec 1024) : Dev :=
  let gen := (heldGen d (orderBase o) + 1) % 65536
  let d := beginBase { d with nextOp := d.nextOp + 1 } o d.nextOp gen
  tellBase d (orderApp o) (.baseOrder (d.nextOp - 1) gen o)

/-- The new copybook has the shape of the live one (R322). -/
def sameShape (x y : Copybook) : Bool :=
  x.layers == y.layers && x.maxLayers == y.maxLayers && x.hidden == y.hidden && x.matrices == y.matrices && x.vocab == y.vocab &&
    x.inkBase == y.inkBase && x.parts == y.parts

/-! ## The end ABANDONED (R323, R331, R339) -/

/-- Registrations held through an operation are registered, bound to the base then live (R325). -/
def registerHeld (d : Dev) (a : Nat) : Dev :=
  let mine := d.ink.heldRegs.filter (fun x => x.1.app == a)
  let d := { d with ink := { d.ink with heldRegs := d.ink.heldRegs.filter (fun x => x.1.app != a) } }
  forEach mine d (fun d x => if x.2.2 then replaceNow d x.2.1 x.1 else registerNow d x.2.1 x.1)

def setFence (d : Dev) (a : Nat) (b : Bool) : Dev :=
  match appAt d a with
  | some x => setApp d a { x with fence := b }
  | none => d

/-- The frames behind page-table entries are freed. -/
def freePtes (d : Dev) (a : Nat) (ps : List (Nat × BitVec 64)) : Dev :=
  forEach ps d (fun d x => freeFrame (writePte d a x.1 0) (Pte.pfn x.2))

/-- A check's passes are over here: its schedules and its pin go. -/
def dropCheck (d : Dev) (a v : Nat) : Dev :=
  let b := baseOf d a
  releaseUse (dropNotes (setBase d a { b with checks := b.checks.filter (fun x => x.variant != v) }) (fun x => x.use == checkUse v)) (checkUse v)

/-- The mapped version of an entry is dropped: its idle bank is VALID 0, its flip and its check's pin go. -/
def dropMapped (d : Dev) (e : JEntry) : Dev :=
  match variant d e.variant with
  | none => d
  | some r =>
    if e.st < jMapped ∨ jFailed < e.st then d
    else
      let d := dropCheck d r.app e.variant
      let b := !r.liveB
      let r := { (r.setBank b (setField (r.bank b) 96 1 0)).setHdr 173 1 0 with flipSeen := false }
      let d := releaseUse (setVariant d e.variant (some r)) (checkUse e.variant)
      match ownedSlot d e.variant with
      | some s => setSlot d s (setField (slot d s) 51 1 0)
      | none => d

/-- The operation ends ABANDONED: mapped banks and staged pages go, held registrations are served, jobs draw again. -/
def abandonBase (d : Dev) (a : Nat) : Dev :=
  let b := baseOf d a
  if b.phase = 0 ∨ 5 ≤ b.phase then d
  else
    let d := forEach b.journal d dropMapped
    let d := match b.package with
      | some p => freePtes d a p.book.ptes
      | none => d
    let d := setFence (setBase d a { baseIdle with phase := 7, opId := b.opId }) a false
    registerHeld (bump d 0x2110 0x01 1) a

/-- The manager ends it everywhere. -/
def abandonAll (d : Dev) (a : Nat) : Dev := tellBase (abandonBase d a) a (.baseAbandon a)

/-! ## MAP (R325 to R327) -/

/-- MAP begins: the swap set is fixed. -/
def beginMap (d : Dev) (a : Nat) : Dev :=
  match appAt d a with
  | none => d
  | some x =>
    let b := baseOf d a
    let set_ := d.ink.recs.filterMap (fun y => match y.2 with
      | some r => if r.app = a ∧ r.baseId = x.book.baseId ∧ r.baseGen = x.book.baseGen ∧ !r.withdrawn then some y.1 else none
      | none => none)
    setBase d a { b with
      phase := 2, mapAt := d.frame.no, holdRegs := true
      journal := set_.map (fun v => ({ word := BitVec.ofNat 128 (packBits [(0, 32, v), (96, 32, d.frame.no)]), lp := 0, expLp := 0,
                                       hit := 0, expHit := 0, mappedAt := 0, told := false } : JEntry)) }

/-- The pages of a base image in DDR, and the streamed weights in them (R150, R324). -/
def stagePages (d : Dev) (a : Nat) (c : Copybook) : Dev :=
  let d := forEach c.ptes d (fun d x => writePte d a x.1 x.2)
  let d := forEach c.ptes d (fun d x =>
    if Pte.valid x.2 && !Pte.remote x.2 && d.mem.frameOwner.get 0 (Pte.pfn x.2) == 0 then giveFrame d (Pte.pfn x.2) 1 else d)
  forEach c.streamed d (fun d x => pokeDva d a x.1 [x.2])

/-- A device's staged parts are verified, or not (R323); the manager begins MAP once every device's are. A package of another shape is
refused with BASE_SHAPE_MISMATCH, a hash that does not agree with BASE_HASH_MISMATCH (R322, R323). -/
def shardVerified (d : Dev) (a device : Nat) (ok : Bool) (pkg : Option Package) : Dev :=
  match appAt d a with
  | none => d
  | some x =>
    let b := baseOf d a
    let own := device == ownDevice d
    let shape := pkg.all (fun p => sameShape x.book p.book)
    if b.phase ≠ 1 then d
    else if !ok || (own && (pkg.isNone || !shape)) then
      if isManager d then abandonAll (emit d (.baseRefused a (ok && !shape))) a else emit d (.baseVerified a false)
    else
      let d := match pkg with
        | some p => if own then stagePages d a p.book else d
        | none => d
      let b := { b with package := if own then pkg else b.package,
                        verified := if b.verified.contains device then b.verified else b.verified ++ [device] }
      let d := setBase d a b
      if !isManager d then (if own then emit d (.baseVerified a true) else d)
      else if b.verified.length < setSize x then d
      else tellBase (beginMap d a) a (.baseMap a)

/-- A variant is quiet (R326). -/
def quietVariant (d : Dev) (v : Nat) : Bool :=
  match variant d v with
  | none => true
  | some r =>
    !r.flip && !(r.bank (!r.liveB)).held && d.train.scribe.all (fun t => t.notice.variant != v) &&
      (d.train.jobs.filter (fun j => j.variant == v)).all (fun j => j.steps.isEmpty)

/-- One output of a DENSE map: v rounded to BF16 against a column of M on the arrays, a one-row BF16 product with G = 128. -/
def denseCell (xs ws : List Nat) : Nat → Word
  | 0 => 0
  | n + 1 =>
    let k := n * 128
    let prods := cellProds 1 1 ((xs.drop k).take 128) ((ws.drop k).take 128)
    fadd (denseCell xs ws n) (match specialOf prods with
      | some x => ofNum x
      | none => wideSum prods)

/-- A steering vector carried through a map (R327). -/
def carryVector (m : CarryMap) (v : List Word) : List Word :=
  match m with
  | .identity => v
  | .diag a b => v.zipIdx.map (fun x => ffma (wordAt a x.2) x.1 (wordAt b x.2))
  | .dense m b =>
    let xs := v.map (fun x => bf16.round (toNum x))
    let n := (v.length + 127) / 128
    (List.range v.length).map (fun c =>
      fadd (denseCell xs (m.map (fun row => (row[c]?).getD 0)) n) (wordAt b c))

def carryOf (p : Package) (layer : Nat) : CarryMap := ((p.carry.find? (fun x => x.1 == layer)).map (·.2)).getD .identity

/-- Masters that a carry task writes: steering vectors carried, patch masters unchanged. -/
def carriedMasters (c : Copybook) (p : Package) (r : VarRec) (ws : List Word) : List Word :=
  ((List.range r.nLayers).flatMap (fun i => carryVector (carryOf p (r.layer i)) ((ws.drop (i * r.width)).take r.width))) ++
    (ws.take (masterElems c r)).drop (r.nLayers * r.width)

/-- The carry task of a variant (R327): the device, and whether a result was NaN or infinite. -/
def carryTask (d : Dev) (b : BaseS) (p : Package) (r : VarRec) : Dev × Bool :=
  match bookOf d r with
  | none => (d, true)
  | some c =>
    let live := r.liveB
    let idle := !live
    let e := masterElems c r
    let q := (optRows c r).length
    let ws := peekWords d r.app (masterBank c r live) e
    let out := carriedMasters c p r ws
    let bad := out.any (fun x => !isFinite x)
    let keep := carriesMoments b
    let d := pokeDva d r.app (masterBank c r idle) (wordBytes out)
    let d := pokeDva d r.app (optBank c r idle + 64)
      (if keep then peekDva d r.app (optBank c r live + 64) (2 * e) else List.replicate (2 * e) 0)
    let d := pokeDva d r.app (scaleAt c r idle 0)
      (if keep then peekDva d r.app (scaleAt c r live 0) (8 * q) else wordBytes (List.replicate (2 * q) 0x3F800000#32))
    let d := forEach r.patches d (fun d y =>
      let n := (liveCopy c y (List.replicate (patchElems c y) 0)).length
      pokeDva d r.app (r.liveDva idle + PatchDef.liveOff y) (peekDva d r.app (r.liveDva live + PatchDef.liveOff y) n))
    let h := r.bank live
    let hdr : BankHdr := BitVec.ofNat 512 (packBits [(0, 32, h.version + 1), (32, 32, h.step), (64, 32, if keep then h.updates else 0),
      (96, 1, b2n (!bad)), (192, 32, field h 192 32), (224, 32, field h 224 32)])
    (setVariant d r.id (some (r.setBank idle hdr)), bad)

/-- A carry task ends: the entry is MAPPED, or FAILED with cause NUMERIC. -/
def carryDone (d : Dev) (a v : Nat) : Dev :=
  match entryOf d a v, variant d v, (baseOf d a).package with
  | some e, some r, some p =>
    if e.st ≠ jMapping then d
    else
      let (d, bad) := carryTask d (baseOf d a) p r
      let e := { e with word := setField (setField e.word 40 1 (b2n (!r.liveB))) 64 32 r.version, mappedAt := d.frame.no }
      setEntry d a (if bad then e.go d jFailed 4 else e.go d jMapped 0)
  | _, _, _ => d

/-! ## CHECK (R329, R330) -/

def meanWords (l : List Word) : Word := fdiv (sumWords l) (fnat l.length)

/-- x is at least y; false where either is NaN. -/
def fge (x y : Word) : Bool := !isNan x && !isNan y && (decide (orderKey y ≤ orderKey x) || (fabs x == 0 && fabs y == 0))

/-- The last stage's judgement: the CAUSE code (0: PASSED), and the four means. -/
def checkVariant (d : Dev) (r : VarRec) (measured : List (Word × Word)) : Nat × Word × Word × Word × Word :=
  match r.check with
  | none => (if reg d 0x2106 0x02 = 1 then 0 else 2, 0, 0, 0, 0)
  | some c =>
    let tol := fun (w : Word) sub => if w = 0 then BitVec.ofNat 32 (reg d 0x2106 sub) else w
    let lp := meanWords (measured.map (·.1))
    let hit := meanWords (measured.map (·.2))
    let elp := meanWords (c.probes.map (·.expLp))
    let ehit := meanWords (c.probes.map (·.expMatch))
    let code :=
      if isNan lp || isNan hit then 4
      else if fge lp (fsub elp (tol c.tolLp 0x00)) && fge hit (fsub ehit (tol c.tolMatch 0x01)) then 0 else 1
    (code, lp, elp, hit, ehit)

/-- The switch edge is named once every entry is PASSED, FAILED or RELEASED (R331). -/
def nameSwitch (d : Dev) (a : Nat) : Dev :=
  let b := baseOf d a
  if b.phase ≠ 3 ∨ !isManager d ∨ !b.journal.all (fun e => e.st == jPassed || e.st == jFailed || e.st == jReleased) then d
  else
    let s := d.frame.no + max 16 (reg d 0x2105 0x04 + 1)
    tellBase (setBase d a { b with phase := 4, switchAt := some s }) a (.baseSwitch a s)

/-- MAP ends when no entry is left in it. -/
def endMap (d : Dev) (a : Nat) : Dev :=
  let b := baseOf d a
  if b.phase = 2 ∧ b.journal.all (fun e => jMapped ≤ e.st) then tellPhase (setBase d a { b with phase := 3 }) else d

def advanceBase (d : Dev) (a : Nat) : Dev := nameSwitch (endMap d a) a

/-- An outcome reaches this device's entry. -/
def takeOutcome (d : Dev) (a v cause : Nat) (m : Word × Word × Word × Word) : Dev :=
  match entryOf d a v with
  | none => d
  | some e =>
    if e.st ≠ jChecking ∧ e.st ≠ jMapped then d
    else
      let e := { e with lp := m.1, expLp := m.2.1, hit := m.2.2.1, expHit := m.2.2.2 }
      advanceBase (dropCheck (setEntry d a (e.go d (if cause = 0 then jPassed else jFailed) cause)) a v) a

def checkOutcome (d : Dev) (op : CheckOp) : Dev :=
  match op.told, variant d op.variant with
  | some c, _ => takeOutcome d op.app op.variant c op.means
  | none, some r =>
    let c := checkVariant d r op.measured
    tellOthers (takeOutcome d op.app op.variant c.1 c.2) op.app (.baseCheck op.app op.variant c.1 c.2)
  | none, none => d

/-! ## The passes of a check (R329) -/

/-- A variant's slot is ready for its check here: pinned, LIVE, its idle half filled; a device without a part needs none. -/
def checkReady (d : Dev) (v : Nat) : Bool :=
  !holdsRec d v || d.ink.bound.any (fun x => x.1 == checkUse v && (slot d x.2.1).st == 2 && d.ink.halves.get 0 x.2.1 == 0)

/-- Another device's slot is ready. -/
def checkAnswered (d : Dev) (src : Nat) (u : Use) : Dev :=
  { d with base := d.base.map (fun x => (x.1, { x.2 with checks := x.2.checks.map (fun y =>
    if checkUse y.variant = u then { y with asked := y.asked.filter (· ≠ src) } else y) })) }

/-- Peat pages for a probe's key/value rows on this device, under the tenant's key; none: pages lack. -/
def holdProbe (d : Dev) (a v i n : Nat) : Option Dev :=
  match appAt d a, variant d v with
  | some x, some r =>
    if d.mem.peatUsed.any (fun u => u.job == 2 ^ 200 + v && u.step == i) then some d
    else takePeat (2 ^ 200 + v) i a r.key (peatNeed x.book [n]) d
  | _, _ => some d
def holdProbes (a v : Nat) : List Sched → Dev → Option Dev
  | [], d => some d
  | s :: r, d => (holdProbe d a v s.i s.n).bind (holdProbes a v r)

/-- Schedules of check passes on this device. -/
def checkScheds (d : Dev) : List Sched :=
  ((d.base.flatMap (fun x => x.2.checks.flatMap (·.seqs))).filter (·.f0.isSome)) ++
    (d.train.notes.filter (fun x => isCheck x.use)).map noteSched

/-- The passes of a check are admitted once every slot is ready: at most CHECK_ROWS rows a device and frame; the other stages hear of
them. -/
def placeCheck (d : Dev) (a : Nat) (y : CheckPass) : Dev :=
  match appAt d a with
  | none => d
  | some x =>
    if !y.asked.isEmpty || !checkReady d y.variant || y.seqs.all (·.f0.isSome) then d
    else
      let seqs := placeAll (max 1 x.book.trainChunk) (chainLen x) (reg d 0x2105 0x02) (d.frame.no + 1) (checkScheds d) y.seqs
      match holdProbes a y.variant seqs d with
      | none => d
      | some d =>
        let b := baseOf d a
        let d := setBase d a { b with checks := b.checks.map (fun z => if z.variant = y.variant then { z with seqs := seqs } else z) }
        tellScheds d a (checkUse y.variant) 0 false y.seqs seqs

/-- A schedule of another device's check has its Peat pages here too. -/
def noteProbe (d : Dev) (x : SchedNote) : Dev :=
  match x.use with
  | .eval n => if 2 ^ 200 ≤ n then (holdProbe d x.app (n - 2 ^ 200) x.i x.n).getD d else d
  | _ => d

/-- Rows of passes that are over are released. -/
def probesEdge (d : Dev) : Dev :=
  let live := fun (u : PeatUse) => match appAt d u.app with
    | none => false
    | some x =>
      let on := fun (s : Sched) => s.i == u.step && s.f0.all (fun f => decide (d.frame.no ≤ s.last (max 1 x.book.trainChunk) (chainLen x) f))
      ((baseOf d u.app).checks.any (fun y => 2 ^ 200 + y.variant == u.job && y.seqs.any on)) ||
        d.train.notes.any (fun y => y.use == .eval u.job && on (noteSched y))
  releasePeat d (fun u => decide (2 ^ 200 ≤ u.job) && !live u)

/-! ## The cut-off (R326, R329, R331) -/

/-- Every device is past naming: the plan of a frame is a reload plan of the application (R331, R333). -/
def reloadFrame (d : Dev) (a f : Nat) : Bool := (baseOf d a).switchAt.any (fun s => f == s || f == s + 1)

/-- PENDING variants that are quiet get their carry task; MAPPED ones their slot and its check fill, and the chain's first device forms
their passes, which wait until the other devices' slots are ready. -/
def entryCut (d : Dev) (a : Nat) (v : Nat) : Dev :=
  match entryOf d a v, variant d v with
  | some e, some r =>
    if e.st = jPending then (if quietVariant d v then setEntry d a (e.go d jMapping 0) else d)
    else if e.st = jMapped then
      let d := bindPass (setEntry d a (e.go d jChecking 0)) { use := checkUse v, variant := v, key := r.key, app := a, wait := none, claims := false }
      if (appAt d a).any (fun x => x.place.stage == 0) then
        let b := baseOf d a
        setBase d a { b with checks := b.checks ++ [{ variant := v, asked := pinsOf d v, seqs := (r.check.elim [] (·.probes)).zipIdx.map (fun x =>
          { g := 0, i := x.2, n := x.1.prompt.length + x.1.ref.length, f0 := none, fwd := true }) }] }
      else d
    else if e.st = jChecking ∧ !e.told ∧ checkReady d v then
      let d := setEntry d a { e with told := true }
      if (appAt d a).any (fun x => x.place.stage == 0) then d else emit d (.pinAnswer (checkUse v) 0)
    else d
  | _, _ => d

/-- The cut-off: before the flips of the next edge are looked at, and before admission. -/
def baseCut (d : Dev) : Dev :=
  forEach d.base d (fun d x =>
    let a := x.1
    let b := baseOf d a
    let d := if b.phase = 2 ∨ b.phase = 3 then forEach (b.journal.map JEntry.variant) d (fun d v => entryCut d a v) else d
    let d := forEach (baseOf d a).checks d (fun d y => placeCheck d a y)
    let d := advanceBase d a
    match (baseOf d a).switchAt with
    | none => d
    | some s =>
      let d := if s - reg d 0x2105 0x04 ≤ d.frame.no ∧ d.frame.no < s then setFence d a true else d
      let d := if d.frame.no = s then setFence d a false else d
      if d.frame.no + 1 = s then
        let passed := ((baseOf d a).journal.filter (fun e => e.st == jPassed)).map JEntry.variant
        let d := forEach passed d (fun d v => makeFlip d v s)
        if isManager d then
          let d := interruptSnap d a
          orderSnap (setSnap d a { snapOf d a with order := none }) a s false
        else d
      else d)

/-! ## The switch edge (R332, R335) -/

/-- Memory regions that copybooks place. -/
def bookRegions (d : Dev) : Dev :=
  let books := d.gen.apps.filterMap (fun x => x.2.map (·.book))
  let run := fun (y : Bool × Nat × Nat × Nat) => ({ well := y.1, unit := y.2.1, lo := y.2.2.1, hi := y.2.2.2, owner := 0 } : LineRun)
  { d with mem := { d.mem with resident := (books.flatMap (·.resident)).map run, control := (books.flatMap (·.control)).map run } }

/-- BASE_LIVE (R340). -/
def setLive (d : Dev) (a : Nat) (c : Copybook) : Dev := setReg d 0x2102 (a + 1) (c.baseId + c.baseGen * 2 ^ 32)

/-- Requests of the application still in flight end BASE_SWITCHED. -/
def endInFlight (d : Dev) (a : Nat) : Dev :=
  forEach (d.gen.reqs.filter (fun q => q.app == a && q.holds)) d (fun d q => endReq (bump d 0x2110 0x04 1) q 0x22)

/-- Step 4 of edge S. -/
def switchStep (d : Dev) (a : Nat) : Dev :=
  match appAt d a, (baseOf d a).package with
  | some x, some p =>
    let b := baseOf d a
    let id := orderBase b.order
    let book := { p.book with baseId := id, baseGen := b.newGen }
    let d := setLive (bookRegions (setApp d a { x with book := book })) a book
    let passed := b.journal.filter (fun e => e.st == jPassed)
    let d := forEach passed d (fun d e => match variant d e.variant with
      | some r => setVariant d e.variant (some ((r.setHdr 64 32 id).setHdr 96 16 b.newGen))
      | none => d)
    let d := bump d 0x2110 0x02 passed.length
    let d := setBase d a { b with
      old := some x.book
      journal := b.journal.map (fun e => if e.st = jPassed then e.go d jSwitched 0 else e) }
    let d := clearPools (endInFlight d a) a
    let keys := (d.train.jobs.filter (fun j => j.app == a)).map (·.key)
    let d := { d with train := { d.train with late := d.train.late.map (fun y => if keys.contains y.job then switchBook y else y) } }
    switchCold d (partsOf d a)
  | _, _ => d

/-- Every RESIDENT weight of a copybook's units. -/
def loadWeights (d : Dev) (b : Copybook) : Dev :=
  { d with mem := { d.mem with
    well := (b.weights.filter (·.1)).foldl (fun (t : Table Byte) w => t.set 0 (w.2.1 * wellSize + w.2.2.1) w.2.2.2) d.mem.well
    ink := (b.weights.filter (!·.1)).foldl (fun (t : Table Byte) w => t.set 0 (w.2.1 * inkSize + w.2.2.1) w.2.2.2) d.mem.ink } }

/-- The RESIDENT weights that reload frame k (0 or 1) has brought: half of each unit's (R333) (DESIGN CHOICE: log entry 160). -/
def reloadHalf (d : Dev) (a k : Nat) : Dev :=
  match appAt d a with
  | none => d
  | some x =>
    let n := (x.book.weights.length + 1) / 2
    loadWeights d { x.book with weights := if k = 0 then x.book.weights.take n else x.book.weights.drop n }

/-- Switches of this edge (step 4). -/
def switchesEdge (d : Dev) : Dev :=
  forEach d.base d (fun d x => if (baseOf d x.1).switchAt.any (· ≤ d.frame.no) ∧ (baseOf d x.1).phase = 4 ∧ (baseOf d x.1).old.isNone then switchStep d x.1 else d)

/-- The sealed response of an entry to its tenant (R335, R336): one, from the chain's first device. -/
def baseResp (d : Dev) (e : JEntry) (code cause : Nat) : Dev :=
  match variant d e.variant with
  | none => d
  | some r =>
    if (appAt d r.app).any (fun x => x.place.stage != 0) then d
    else addResp d
      { kind := 0x81, slot := r.key, tenant := r.tenant, id := 0, seq := 0, keyGen := (keySlot d r.key).genCur, status := code,
        final := true, firstT := 0, ref := 0, toks := [],
        report := report64 (leBytes 4 r.id ++ leBytes 4 r.baseId ++ leBytes 2 r.baseGen ++ leBytes 2 0 ++ leBytes 4 r.version ++
          leBytes 4 cause ++ wordBytes [e.lp, e.expLp, e.hit, e.expHit]),
        source := 0, reply := 0, origin := ownDevice d, made := d.frame.no - 1, waits := false, sealed := none }

/-- Edge S + 1: answers to tenants, and the registrations held since MAP. -/
def afterSwitch (d : Dev) (a : Nat) : Dev :=
  let b := baseOf d a
  let d := forEach b.journal d (fun d e =>
    if e.st = jSwitched then baseResp d e 0x3B 0 else if e.st = jFailed then baseResp d e 0x3C e.cause else d)
  registerHeld (setBase d a { b with holdRegs := false }) a

/-- Causes of JOB_ENDED: BASE_KEPT (log entry 18). -/
def causeKept : Nat := 9

/-- The snapshot of S is complete: SWITCH is (R334). -/
def switchComplete (d : Dev) (a edge : Nat) : Dev :=
  let b := baseOf d a
  if b.phase ≠ 4 ∨ b.switchAt.all (edge < ·) then d
  else
    let kept := b.journal.filter (fun e => e.st == jFailed)
    let d := setBase (bump (bump d 0x2110 0x00 1) 0x2110 0x03 kept.length) a
      { b with phase := 5, package := none, verified := [],
               journal := b.journal.map (fun e => if e.st = jFailed then e.go d jKept e.cause else e) }
    let d := tellPhase d
    setJobs d (d.train.jobs.map (fun j =>
      if kept.any (fun e => e.variant == j.variant) && j.ends.isNone then { j with ends := some causeKept } else j))

/-! ## Entries that leave, EMBER and RETIRE (R325, R336) -/

/-- Entries whose variant has been released or withdrawn, and kept ones bound anew. -/
def entriesEdge (d : Dev) (a : Nat) : Dev :=
  match appAt d a with
  | none => d
  | some x =>
    let b := baseOf d a
    setBase d a { b with journal := b.journal.map (fun e =>
      let gone := match variant d e.variant with
        | none => true
        | some r => r.withdrawn || (e.st == jKept && r.baseId == x.book.baseId && r.baseGen == x.book.baseGen)
      if gone && e.st != jSwitched && e.st != jReleased then e.go d jReleased e.cause else e) }

/-- RETIRE at its edge: variants still KEPT are withdrawn and told, the old base's pages are freed. -/
def retireBase (d : Dev) (a : Nat) : Dev :=
  let b := baseOf d a
  let kept := b.journal.filter (fun e => e.st == jKept)
  let d := forEach kept d (fun d e => withdrawEffect (endJobsOf (baseResp d e 0x3C 5) e.variant causeWithdrawn) e.variant)
  let pages := ((appAt d a).map (fun x => x.book.ptes.map (·.1))).getD []
  let d := match b.old with
    | some c => freePtes d a (c.ptes.filter (fun y => !pages.contains y.1))
    | none => d
  tellPhase (setBase d a { baseIdle with opId := b.opId })

/-- A variant not quiet in time: its drawn step is abandoned and its cursors return (R326) (DEDUCED: log entry 126). -/
def quashStep (d : Dev) (v : Nat) : Dev :=
  forEach (d.train.jobs.filter (fun j => j.variant == v)) d (fun d j =>
    match j.steps with
    | [] => d
    | x :: _ =>
      let d := abandonSteps d j causeSwitch (d.frame.no - 1)
      match findJob d j.key with
      | some j => setJob d { j with cursor := x.ledgerAt, groupCursor := x.groupAt, next := x.s, steps := [], committed := none }
      | none => d)

/-- The rest of an edge for base replacements, after step 6. -/
def baseEdge (d : Dev) : Dev :=
  forEach d.base d (fun d x =>
    let a := x.1
    let b := baseOf d a
    let d := forEach b.quash (setBase d a { b with quash := [] }) quashStep
    let d := if (baseOf d a).switchAt = some (d.frame.no - 1) ∧ (baseOf d a).holdRegs then afterSwitch (reloadHalf d a 0) a else d
    let d := if (baseOf d a).switchAt.any (fun s => s + 2 == d.frame.no) then reloadHalf d a 1 else d
    let d := probesEdge (entriesEdge d a)
    let b := baseOf d a
    if b.phase = 6 then retireBase d a
    else if b.phase = 5 ∧ !b.journal.any (fun e => e.st == jKept) then tellPhase (setBase d a { b with phase := 6 })
    else d)

/-! ## Restarts (R338, R339) -/

/-- After a warm reset an entry in MAPPING or CHECKING returns to the state before it, and the journal is reported to the manager. -/
def journalResume (d : Dev) : Dev :=
  forEach d.base d (fun d x =>
    let b := baseOf d x.1
    let d := setBase d x.1 { b with checks := [], journal := b.journal.map (fun e =>
      if e.st = jMapping then e.go d jPending 0 else if e.st = jChecking then { e.go d jMapped 0 with told := false } else e) }
    if isManager d || b.journal.isEmpty then d else emit d (.journal x.1 ((baseOf d x.1).journal.map (·.word))))

/-- A restore while SWITCH is not complete ends the operation; past S, the application returns to the old base (R339) (DEDUCED: log entry 127). -/
def baseRestored (d : Dev) (a : Nat) : Dev :=
  let b := baseOf d a
  if b.phase = 0 ∨ 5 ≤ b.phase then d
  else match b.old, appAt d a with
    | some c, some x => abandonBase (setLive (bookRegions (setApp d a { x with book := c })) a c) a
    | _, _ => abandonBase d a

/-! ## The commands -/

def execShardVerified (op : ShardOp) (s : State) : Host.Outcome State Fault Refusal :=
  onDevIf (op.app < 8) s (fun d => shardVerified (atOff d op.off) op.app op.device op.ok op.package)

/-- A variant not quiet within QUIESCE_FRAMES (R326). -/
def execQuiesceExpiry (op : AppVariantOp) (s : State) : Host.Outcome State Fault Refusal :=
  onDevIf (op.app < 8) s (fun d =>
    let d := atOff d op.off
    let b := baseOf d op.app
    match entryOf d op.app op.variant with
    | some e =>
      if e.st = jPending ∧ !quietVariant d op.variant ∧ b.mapAt + reg d 0x2105 0x01 ≤ d.frame.no then
        setBase d op.app { b with quash := b.quash ++ [op.variant] }
      else d
    | none => d)

def execCarryTaskDone (op : AppVariantOp) (s : State) : Host.Outcome State Fault Refusal :=
  onDevIf (op.app < 8) s (fun d => advanceBase (carryDone (atOff d op.off) op.app op.variant) op.app)

def execCheckOutcome (op : CheckOp) (s : State) : Host.Outcome State Fault Refusal :=
  onDevIf (op.app < 8) s (fun d => checkOutcome (atOff d op.off) op)

/-- A check not complete within CHECK_FRAMES of its MAPPED entry fails (R329). -/
def execCheckFramesExpiry (op : AppVariantOp) (s : State) : Host.Outcome State Fault Refusal :=
  onDevIf (op.app < 8) s (fun d =>
    let d := atOff d op.off
    match entryOf d op.app op.variant with
    | some e =>
      if (e.st = jMapped ∨ e.st = jChecking) ∧ e.mappedAt + reg d 0x2105 0x03 ≤ d.frame.no then takeOutcome d op.app op.variant 3 (0, 0, 0, 0)
      else d
    | none => d)

/-- SNAPSHOT_COMPLETE (R255): the manager may write it once every device has recorded; it may complete a SWITCH (R334), and the
next edge finds whether it completes the snapshot stage of a service procedure (R458). -/
def execSnapshotComplete (op : SnapRecOp) (s : State) : Host.Outcome State Fault Refusal :=
  onDevIf (op.app < 8) s (fun d =>
    let d := atOff d op.off
    let x := snapOf d op.app
    let mine := x.current.any (fun i => i.number == op.snapshot)
    if mine ∧ isManager d ∧ x.recorded.length < setSizeOf d op.app then d
    else
      let edge := (x.current.map (·.edge)).getD 0
      let d := completeSnap d op.app op.snapshot
      if !mine then d
      else
        let d := if isManager d then mgrSend d [.snapComplete op.app op.snapshot] else d
        switchComplete d op.app edge)

end Sys2Proof.Machine
end

