-- ==== Sys2Proof/Machine/Ligature.lean ====
section
/-!
DEFINITION. Ligature's link layer and port states, reports to the manager, lost devices and hand-off retries (R267, R273 to R276,
R288, R290, R293, R295 to R298, R317, R318).
-/
namespace Sys2Proof.Machine
open Sys2Proof

/-! ## Port states (R295, R296) -/

/-- A port enters a state: PORT_STATE, its event, and the manager's own notice of its own ports. -/
def setPortState (d : Dev) (p : Nat) (st : PortState) : Dev :=
  let x := port d p
  if x.st = st then d
  else
    let d := setReg (setPort d p { x with st := st }) 0x4011 (p + 1) st.code
    let d := raise d (portSrc p 0) st.code p
    if isManager d then portReported d (ownDevice d) p st.code else d

/-- A port leaves UP: its replay buffer is lost (R296), and messages that wait take the group's other ports (R284). -/
def leaveUp (d : Dev) (p : Nat) (st : PortState) : Dev :=
  let x := port d p
  let d := setPort d p { x with replay := [], queue := [], credit := [], naks := 0 }
  let d := setPortState d p st
  forEach x.queue d (fun d m => sendMsg d m.2 .first)

/-- Training begins: fast where it has saved coefficients. -/
def beginTraining (d : Dev) (p : Nat) : Dev :=
  let x := port d p
  setPortState (setPort d p { x with fast := x.saved, phy := false, hello := none }) p .training

/-- An UP port enters RETRAINING (R296). -/
def retrainPort (d : Dev) (p : Nat) (fast : Bool) : Dev :=
  if (port d p).st ≠ .up then d
  else
    let d := leaveUp (bump d 0x4023 (p + 1) 1) p .retraining
    let x := port d p
    setPort d p { x with fast := fast && x.saved, phy := false }

/-- The cable that the wiring map gives a port of this device: the peer's device, port and identity; none: no map is held. -/
def cableOf (d : Dev) (p : Nat) : Option (Option (Nat × Nat × Nat)) :=
  match d.lig.tables with
  | some t => some ((t.cables.find? (fun x => x.1 == p)).map (·.2))
  | none =>
    if d.lig.map.devices.isEmpty then none
    else some (((cablesOf d.lig.map (ownDevice d)).find? (fun x => x.1 == p)).map (fun x => (x.2.1, x.2.2, identityOf d.lig.map x.2.1)))

/-- A peer is the one that the map names: its identity, its port, its number once it has one. -/
def helloFits (d : Dev) (p : Nat) (h : Hello) : Bool :=
  match cableOf d p with
  | none => true
  | some none => false
  | some (some (dev, q, ident)) => h.identity == ident && h.port == q && h.device.all (· == dev)

/-- UP: numbering from 0, the peer's initial credits, no failures, the session's key (R372); the delay is measured (R273 to R275, R296) (DEDUCED: log entry 63). -/
def goUp (d : Dev) (p : Nat) (h : Option Hello) : Dev :=
  let x := port d p
  let credit : Table Nat := ((h.map (·.credits)).getD []).zipIdx.foldl (fun t y => t.set 0 y.2 y.1) []
  let (key, d) := if portMode d p = 1 then drawBytes d 32 else ([], d)
  let d := setPort d p { x with txSeq := 0, rxSeq := 0, fails := 0, naks := 0, credit := credit, key := key, sentFlits := 0 }
  let d := match h with
    | some h => setReg d 0x4013 (p + 1) (h.device.getD 0x3FFFF + h.port * 2 ^ 18)
    | none => d
  let d := setPortState d p .up
  if portMode d p = 1 then emit d (.flit p 4 0 0 0) else d

/-- The PHY has trained and the HELLO exchange is done: UP, or MISWIRED (R295, R372). -/
def decidePort (d : Dev) (p : Nat) : Dev :=
  let x := port d p
  if (x.st ≠ .training ∧ x.st ≠ .retraining) ∨ !x.phy then d
  else if portMode d p = 2 then goUp d p none
  else match x.hello with
    | none => d
    | some (h, auth) =>
      if auth && helloFits d p h then goUp d p (some h)
      else if x.st = .training then raise (setPortState d p .miswired) (portSrc p 2) 0 p
      else d

/-- This device's HELLO: its number, port and epoch, and the credits of its receive buffers in 32-byte units (R273, R275). -/
def sayHello (d : Dev) (p : Nat) : Dev :=
  emit d (.hello (if ownDevice d = 0xFFFFFFFF then none else some (ownDevice d)) p (reg d 0x4001 0x01) [1024, 2048, 8192, 32768])

/-- An attempt at training ends: after a failed fast one a full one follows; RETRAIN_LIMIT failures in a row end in FAILED. -/
def trainingDone (d : Dev) (p : Nat) (ok : Bool) (medium : Nat) : Dev :=
  let x := port d p
  if x.st ≠ .training ∧ x.st ≠ .retraining then d
  else if ok then
    let d := setReg (setPort d p { x with saved := true, phy := true }) 0x4012 (p + 1) (if p ∈ d.pow.prs then 3 else medium)
    decidePort (if portMode d p = 1 ∧ x.st = .training then sayHello d p else d) p
  else
    let d := setPort d p { x with fast := false, fails := x.fails + 1 }
    if reg d 0x4016 0x00 ≤ x.fails + 1 then
      setPortState (setPort d p { port d p with failedAt := d.frame.no }) p .failed
    else d

/-- Loss of signal held 1 µs: UP and MISWIRED ports go DOWN (DEDUCED: log entry 71). -/
def lossOfSignal (d : Dev) (p : Nat) : Dev :=
  match (port d p).st with
  | .up => leaveUp d p .down
  | .miswired => setPortState d p .down
  | _ => d

/-- PORT_MODE (R271): DISABLED holds the port in reset; enabled, it is DOWN; another mode goes through a full training. -/
def changeMode (d : Dev) (p v : Nat) : Dev :=
  let old := portMode d p
  let d := setReg d 0x4010 (p + 1) v
  if v = old then d
  else if v = 0 then leaveUp d p .disabled
  else if old = 0 then setPortState d p .down
  else
    let d := if (port d p).st = .down then d else leaveUp d p .training
    setPort d p { port d p with fast := false, saved := false, phy := false, hello := none }

/-- Planned removals of this edge, and the return of ports that are UP again (R298). The last UP port of a group waits for a topology
edge. -/
def portsEdge (d : Dev) (topology : Bool) : Dev :=
  forEach (List.range 16) d (fun d p =>
    let x := port d p
    if x.leaving then
      let g := (d.lig.tables.map (fun t => t.groups.filter (fun y => y.2.contains p))).getD []
      let last := g.any (fun y => upPorts d y.1 == [p])
      if x.st = .up ∧ (!last ∨ topology) then
        retrainPort (setPort d p { x with leaving := false, removed := true }) p true
      else if x.st = .up then d
      else setPort d p { x with leaving := false }
    else if x.removed ∧ x.st = .up then setPort d p { x with removed := false }
    else d)

/-- Every 1,024 frames a new span of codewords begins (R296) (DESIGN CHOICE: log entry 69). -/
def fecEdge (d : Dev) : Dev :=
  if d.frame.no % 1024 = 0 then forEach (List.range 16) d (fun d p => setPort d p { port d p with fec := 0 }) else d

/-- Modules that failed lane repair are removed, and the operator hears of it (R267). -/
def modulesEdge (d : Dev) : Dev :=
  let l := d.lig.moduleFails
  forEach l { d with lig := { d.lig with moduleFails := [] } } (fun d k =>
    emit { d with lig := { d.lig with modules := d.lig.modules.set 0 k (min 4 (d.lig.modules.get 0 k + 1)) } } (.linkReduced k))

/-! ## Lost devices (R317, R318) -/

/-- The manager tells each member its placement; this device's takes force at the topology edge or the restore (R480). -/
def sendPlacements (d : Dev) (s : AppSet) : Dev :=
  forEach s.members d (fun d m =>
    let p := placementOf s m
    if m.device = ownDevice d then
      match appAt d m.app with
      | some x => setApp d m.app { x with placeNext := some p }
      | none => d
    else mgrSend d [.placement m.device m.app p])

/-- An application stays stopped, and its jobs end with CHAIN_LOST (R318). -/
def chainLost (d : Dev) (app : Nat) : Dev :=
  let d := match appAt d app with
    | some x => setApp d app { x with stopped := true }
    | none => d
  forEach (d.train.jobs.filter (fun j => j.app == app)) d (fun d j => endJob d j causeChain)

/-- An application that lost a device is mended and restored, or stays stopped and its jobs end with CHAIN_LOST. -/
def mendApp (d : Dev) (s : AppSet) (dev : Nat) : Dev :=
  let app := ((s.members.find? (fun m => m.device == ownDevice d)).map (·.app)).getD ((s.members.head?.map (·.app)).getD 0)
  let d := interruptSnap d app
  match mendSet d s dev with
  | some t =>
    let d := sendPlacements { d with lig := { d.lig with sets := d.lig.sets.map (fun x => if x.sysApp = s.sysApp then t else x) } } t
    if (appAt d app).isSome then orderRestore d app else emit d (.restoreStop app (reachableEdge d))
  | none => emit (chainLost d app) (.chainLost app)

/-- The manager declares a device lost (R317), with the STOP_CAUSE that it knows, or 0 (R429). -/
def loseDevice (d : Dev) (dev cause : Nat) : Dev :=
  if !isManager d ∨ d.lig.lost.contains dev ∨ dev = ownDevice d ∨ !d.lig.joined.any (fun x => x.1 == dev) then d
  else
    let d := mgrSend (ashLoss (bump d 0x6048 0x07 1) dev cause) []
    let d := { d with
      lig := { d.lig with lost := d.lig.lost ++ [dev], joined := d.lig.joined.filter (fun x => x.1 != dev),
                          unreach := d.lig.unreach.set 0 dev 0 } }
    let d := forEach (d.lig.sets.filter (fun s => s.members.any (fun m => m.device == dev))) d (fun d s => mendApp d s dev)
    changeTopology d

/-- Frames that a joined device has had no UP path (R317). -/
def unreachEdge (d : Dev) : Dev :=
  if !isManager d then d
  else
    let n := netOf d
    forEach d.lig.joined d (fun d x =>
      let path := n.devices.any (fun u => (n.links u).any (fun y => y.2 == x.1))
      let since := d.lig.unreach.get 0 x.1
      if x.1 = ownDevice d ∨ path then { d with lig := { d.lig with unreach := d.lig.unreach.set 0 x.1 0 } }
      else if since = 0 then { d with lig := { d.lig with unreach := d.lig.unreach.set 0 x.1 (d.frame.no + 1) } }
      else d)

/-- A higher manager term has been seen: a manager acts as a worker from then on (R293). -/
def seeTerm (d : Dev) (term : Nat) : Dev :=
  if term ≤ reg d 0x4002 0x00 then d
  else
    let d := setReg d 0x4002 0x00 term
    if isManager d then setReg d 0x4000 0x01 0 else d

/-- The standby becomes manager at its next edge, with a term one higher and the base replacements that it has been told of (R292,
R337); the old manager's device is lost (R293). -/
def takeOverEdge (d : Dev) : Dev :=
  if !d.lig.takeover then d
  else
    let old := d.lig.manager
    let d := { d with lig := { d.lig with takeover := false, manager := ownDevice d } }
    let d := setReg (bump d 0x4002 0x00 1) 0x4000 0x01 1
    let d := match d.lig.sys with
      | some x => { (forEach x.bases d (fun d y => setBase d y.app
          { baseOf d y.app with phase := y.phase, opId := y.opId, newGen := y.newGen, order := y.order, switchAt := y.switchAt })) with
          nextOp := max d.nextOp x.nextOp
          sec := { d.sec with tenants := x.tenants } }
      | none => d
    loseDevice d old 0

/-! ## Topology edges (R297, R480) -/

/-- Placements take force at a topology edge or a restore; R480's entry shows them (DEDUCED: log entry 74). -/
def takePlacement (d : Dev) (a : Nat) : Dev :=
  match appAt d a with
  | some x => match x.placeNext with
    | some p =>
      let d := setApp d a { x with place := p, placeNext := none }
      { d with mem := { d.mem with sysApp := d.mem.sysApp.set 0 a p.sysApp } }
    | none => d
  | none => d

/-- This edge is the named topology edge. -/
def topologyDue (d : Dev) : Bool := d.lig.tablesNext.any (fun t => t.edge ≤ d.frame.no)

/-- Step 3 of R25: the new tables apply. -/
def topologyEdge (d : Dev) : Dev :=
  match d.lig.tablesNext with
  | none => d
  | some t =>
    if d.frame.no < t.edge then d
    else
      let routes : Table Nat := t.routes.foldl (fun (r : Table Nat) x => r.set 0xFF x.1 x.2) []
      let d := { d with lig := { d.lig with tables := some t, routes := routes, tablesNext := none, turn := [] } }
      let d := setReg (setReg d 0x4004 0x00 t.parent) 0x4004 0x01 t.depth
      forEach (List.range 8) (setReg d 0x4006 0x00 0) takePlacement

/-! ## Hand-off retries (R288) -/

/-- A request by the number that plans name it by. -/
def reqOfSeq (d : Dev) (k : Nat) : Option GenReq := d.gen.reqs.find? (fun q => q.slot * 2 ^ 192 + q.id == k)

/-- A reported slot: its task is planned again, or its sequences end with CHAIN_LOST. -/
def slotReported (d : Dev) (addr stamp : Nat) : Dev :=
  match d.lig.sent.find? (fun x => x.addr == addr && x.stamp == stamp) with
  | none => d
  | some x =>
    let put := fun (d : Dev) (y : SentSlot) => { d with lig := { d.lig with
      sent := d.lig.sent.map (fun z => if z.addr = addr ∧ z.stamp = stamp then y else z) } }
    if reg d 0x4017 0x01 < x.tries + 1 then
      forEach x.task.seqs (put d { x with tries := x.tries + 1 }) (fun d k =>
        match reqOfSeq d k with
        | some q => if q.stage = .active then setReq d { q with stage := .ending 0x21 } else d
        | none => d)
    else
      let d := put d { x with tries := x.tries + 1, keep := d.frame.no + 2 }
      if x.task.cls = .decode then { d with frame := { d.frame with retry := d.frame.retry ++ x.task.seqs } }
      else match x.chunk with
        | some y => if d.frame.slipped.any (·.1 == y.1) then d else { d with frame := { d.frame with slipped := d.frame.slipped ++ [y] } }
        | none => d

/-- Inputs of sent slots are no longer kept (R288). -/
def sentEdge (d : Dev) : Dev := { d with lig := { d.lig with sent := d.lig.sent.filter (fun x => d.frame.no ≤ x.keep) } }

/-! ## Flits (R274, R275) -/

/-- FEC counts that came with a flit. -/
def fecCount (d : Dev) (op : FlitOp) : Dev :=
  let d := bump (bump d 0x4020 (op.port + 1) op.corrected) 0x4021 (op.port + 1) op.uncorrected
  setPort d op.port { port d op.port with fec := (port d op.port).fec + op.uncorrected }

/-- A DATA flit in order is accepted, its ACK and credits taken, and answered with an ACK and the credits of the messages that ended
in it; any other is discarded and NAKed (DEDUCED: log entry 64). -/
def dataFlit (d : Dev) (op : FlitOp) : Dev :=
  let d := fecCount d op
  let x := port d op.port
  let last := (x.rxSeq + 4095) % 4096
  if x.st ≠ .up then d
  else if !op.crcOk ∨ op.seq ≠ x.rxSeq then emit d (.flit op.port 2 last 0 0)
  else
    let d := setPort d op.port { x with rxSeq := (x.rxSeq + 1) % 4096 }
    let d := takeAck d op.port op.ack op.cvc op.credits
    match op.done with
    | [] => emit d (.flit op.port 1 op.seq 0 0)
    | l => forEach l d (fun d y => emit d (.flit op.port 1 op.seq y.1 y.2))

def idleFlit (d : Dev) (op : FlitOp) : Dev :=
  let d := fecCount d op
  if (port d op.port).st ≠ .up ∨ !op.crcOk then d else takeAck d op.port op.ack op.cvc op.credits

/-- A NAK: every flit after its ACK is replayed in order. -/
def nakFlit (d : Dev) (op : FlitOp) : Dev :=
  let d := fecCount d op
  if (port d op.port).st ≠ .up ∨ !op.crcOk then d
  else
    let before := (port d op.port).replay
    let d := takeAck d op.port op.ack op.cvc op.credits
    let x := port d op.port
    let d := if ackReplay op.ack before = before then setPort d op.port { x with naks := x.naks + 1 } else d
    emit (bump d 0x4022 (op.port + 1) 1) (.replay op.port ((op.ack + 1) % 4096))

/-! ## The commands -/

def onPort (off p : Nat) (s : State) (f : Dev → Dev) : Host.Outcome State Fault Refusal :=
  onDevIf (p < 16) s (fun d => f (atOff d off))

def execDataFlit (op : FlitOp) (s : State) : Host.Outcome State Fault Refusal := onPort op.off op.port s (fun d => dataFlit d op)
def execIdleFlit (op : FlitOp) (s : State) : Host.Outcome State Fault Refusal := onPort op.off op.port s (fun d => idleFlit d op)
def execNakFlit (op : FlitOp) (s : State) : Host.Outcome State Fault Refusal := onPort op.off op.port s (fun d => nakFlit d op)

/-- Sixteen consecutive NAKs without ACK progress (R274). -/
def execNakLimit (op : PortOp) (s : State) : Host.Outcome State Fault Refusal :=
  onPort op.off op.port s (fun d => if 16 ≤ (port d op.port).naks then retrainPort d op.port true else d)

def execHelloFlit (op : HelloOp) (s : State) : Host.Outcome State Fault Refusal :=
  onPort op.off op.port s (fun d =>
    if (port d op.port).st ≠ .training ∨ portMode d op.port ≠ 1 then d
    else decidePort (setPort d op.port { port d op.port with hello := some (op.hello, op.authOk) }) op.port)

/-- The port belongs to the link group that leads to the parent in the relay tree: its upstream link (R13, R14) (DEDUCED: log entry 16). -/
def upstream (d : Dev) (p : Nat) : Bool :=
  !isManager d && d.lig.tables.any (fun t => (groupPorts d (route d t.parent)).contains p)

/-- A question is answered; an answer gives half the round trip as the one-way delay (R14) (DEDUCED: log entry 111). -/
def execTsyncFlit (op : TsyncOp) (s : State) : Host.Outcome State Fault Refusal :=
  onPort op.off op.port s (fun d =>
    if (port d op.port).st ≠ .up ∧ (port d op.port).st ≠ .training then d
    else if op.answer then
      let delay := ((op.t4 - op.t1) - (op.t3 - op.t2)) / 2
      let d := setReg d 0x4014 (op.port + 1) delay
      if upstream d op.port then setReg d 0x1023 0x00 delay else d
    else emit d (.tsync op.port))

/-- Every 1,024 frames an UP port measures its delay (R296). -/
def execLinkDelayMeasure (op : PortOp) (s : State) : Host.Outcome State Fault Refusal :=
  onPort op.off op.port s (fun d => if portUp d op.port then emit d (.flit op.port 4 0 0 0) else d)

/-- The same on the upstream link, the port the manager's ticks come by (R14). -/
def execUpstreamDelayMeasure (op : PortOp) (s : State) : Host.Outcome State Fault Refusal :=
  onPort op.off op.port s (fun d => if portUp d op.port ∧ upstream d op.port then emit d (.flit op.port 4 0 0 0) else d)

def execSignalDetect (op : PortOp) (s : State) : Host.Outcome State Fault Refusal :=
  onPort op.off op.port s (fun d => if (port d op.port).st = .down then beginTraining d op.port else d)

def execLossOfSignal (op : PortOp) (s : State) : Host.Outcome State Fault Refusal :=
  onPort op.off op.port s (fun d => lossOfSignal d op.port)

def execPortTrainingDone (op : PortTrainOp) (s : State) : Host.Outcome State Fault Refusal :=
  onPort op.off op.port s (fun d => trainingDone d op.port op.ok op.medium)

/-- A FAILED port tries again every PORT_RETRY_FRAMES frames, its failures counted anew (DEDUCED: log entry 70). -/
def execPortRetry (op : PortOp) (s : State) : Host.Outcome State Fault Refusal :=
  onPort op.off op.port s (fun d =>
    let x := port d op.port
    if x.st = .failed ∧ x.failedAt + reg d 0x4016 0x01 ≤ d.frame.no then
      beginTraining (setPort d op.port { x with fails := 0 }) op.port
    else d)

def execFecRetrain (op : PortOp) (s : State) : Host.Outcome State Fault Refusal :=
  onPort op.off op.port s (fun d =>
    let x := port d op.port
    if x.st = .up ∧ reg d 0x4016 0x02 ≤ x.fec then
      retrainPort (raise (setPort d op.port { x with fec := 0 }) (portSrc op.port 1) 0 op.port) op.port true
    else d)

/-- A module that fails lane repair is removed at the next edge (R267). -/
def execUcieModuleFail (op : LinkOp) (s : State) : Host.Outcome State Fault Refusal :=
  onDevIf (op.link < 12) s (fun d =>
    let d := atOff d op.off
    { d with lig := { d.lig with moduleFails := d.lig.moduleFails ++ [op.link] } })

/-- A standby without TICK for MANAGER_TIMEOUT frames (R293). -/
def execManagerTimeout (op : AtOp) (s : State) : Host.Outcome State Fault Refusal :=
  onDev s (fun d =>
    let d := atOff d op.off
    if !isManager d ∧ reg d 0x4002 0x01 = ownDevice d ∧ hasStandby d ∧
        d.lig.lastTick + reg d 0x4002 0x02 ≤ d.frame.no then
      { d with lig := { d.lig with takeover := true } }
    else d)

def execDeviceLossTimeout (op : DeviceOp) (s : State) : Host.Outcome State Fault Refusal :=
  onDev s (fun d =>
    let d := atOff d op.off
    let since := d.lig.unreach.get 0 op.device
    if since ≠ 0 ∧ since + reg d 0x6040 0x02 ≤ d.frame.no + 1 then loseDevice d op.device 0 else d)

/-- What an EVENT message makes the manager do. -/
def eventReported (d : Dev) (r : EventReport) : Dev :=
  if !isManager d then d
  else match r with
    | .port dev p st => portReported d dev p st
    | .fatal dev code => loseDevice d dev (if code = 1 then 3 else if code = 2 then 4 else 0)
    | .expired dev => loseDevice d dev 0
    | .started dev cause => ashLossCause d dev cause
    | .attested ident epoch true block =>
      if leNat (block.drop 64) < reg d 0x8004 0x02 then d
      else
      let d := match numberOf d ident with
        | some v => emit { d with lig := { d.lig with images := d.lig.images.set [] v block } } (.swk v)
        | none => d
      joinDevice d ident epoch
    | .attested ident _ false _ => match numberOf d ident with
      | some v => loseDevice d v 0
      | none => d
    | .other => d

def execEvent (op : EventOp) (s : State) : Host.Outcome State Fault Refusal :=
  onPort op.off op.port s (fun d =>
    let (d, mine) := receive d op.port 0x03 op.msg
    if mine then eventReported d op.report else d)

def execSlotReport (op : SlotReportOp) (s : State) : Host.Outcome State Fault Refusal :=
  onPort op.off op.port s (fun d =>
    let (d, mine) := receive d op.port 0x04 op.msg
    if mine then forEach op.trees (forEach op.slots d (fun d x => slotReported d x.1 x.2)) treeReported else d)

end Sys2Proof.Machine
end

