-- ==== Sys2Proof/Machine/Security.lean ====
section
/-!
DEFINITION. The security engine (R341 to R384): measurements, tenant keys and their generations, revocation, frames and their MACs,
TDISP interfaces, halts, views and the maker unlock.
-/
namespace Sys2Proof.Machine
open Sys2Proof

def causeRevoked : Nat := 10
def causeDataLost : Nat := 11

/-! ## Attestation (R350 to R352) -/

/-- Block 0x02 (R352): the ACTIVE image, with its SVN in clear. -/
def imageBlock (n : Nv) : List Byte := n.active.digest ++ leBytes 4 n.active.svn

/-- The roster of the manager (R352): number, SHA-512 of the identity certificate and block 0x02 of every numbered device, in
ascending order of number (DESIGN CHOICE: log entry 137). -/
def rosterList (n : Nv) (d : Dev) : List (Nat × Nat × List Byte) :=
  (sortKey (d.lig.joined.map (fun x => (x.1, identityOf d.lig.map x.1, 0)))).map (fun x =>
    (x.1, x.2.1, if x.1 = ownDevice d then imageBlock n else d.lig.images.get [] x.1))

/-- A measurement block (R352): its digest or its clear content; the layout of the clear ones is log entry 20's. -/
def measurement (n : Nv) (d : Dev) (k : Nat) : Option (List Byte) :=
  if k = 0x01 then some n.rom
  else if k = 0x02 then some (imageBlock n)
  else if k = 0x03 then some (Config.sha512 n.keyList ++ leBytes 4 n.counter1)
  else if k = 0x04 then some (Config.sha512 (n.defects ++ n.cal))
  else if k = 0x05 then some (leBytes 4 (reg d 0x8100 0x00) ++ leBytes 1 (reg d 0x8100 0x00 % 32))
  else if k = 0x06 then some (leBytes 4 n.counter0 ++ leBytes 4 n.counter1 ++ leBytes 4 n.counter2 ++ leBytes 2 (reg d 0x8000 0x00) ++
    leBytes 1 1)
  else if 0x10 ≤ k ∧ k ≤ 0x17 then some (leBytes 64 (((appAt d (k - 0x10)).map (fun x => x.book.measure)).getD 0))
  else if k = 0x20 ∧ isManager d then
    some (Config.sha512 ((rosterList n d).flatMap (fun x => leBytes 4 x.1 ++ leBytes 64 x.2.1 ++ x.2.2)))
  else none

/-- The responder (R350). A device without its identity answers no attestation (R344) (DESIGN CHOICE: log entry 77). -/
def spdmAnswer (n : Nv) (d : Dev) (t : Nat) (r : SpdmReq) : Dev :=
  let out := fun (d : Dev) (x : SpdmResp) => emit d (.spdm t x)
  match r with
  | .getVersion => out d (.version [12, 13])
  | .getCapabilities => out d .capabilities
  | .negotiate => out d .algorithms
  | .getDigests => if d.sec.idOk then out d .digests else d
  | .getCertificate => if d.sec.idOk then out d .certificate else d
  | .challenge => if d.sec.idOk then out d .challengeAuth else d
  | .getMeasurements k =>
    if !d.sec.idOk then d
    else match measurement n d k with
      | some v => out d (.measurement k v)
      | none => out d .error
  | .keyExchange =>
    if !d.sec.idOk then d
    else
      let s : SpdmSession := { id := d.sec.nextSpdm, transport := t, mutual_ := false }
      out { d with sec := { d.sec with spdm := d.sec.spdm ++ [s], nextSpdm := d.sec.nextSpdm + 1 } } (.keyExchange s.id)
  | .finish k ok m =>
    if !d.sec.spdm.any (fun s => s.id == k && s.transport == t) then out d .error
    else if ok then
      out { d with sec := { d.sec with spdm := d.sec.spdm.map (fun s => if s.id = k then { s with mutual_ := m } else s) } } (.finished k)
    else out { d with sec := { d.sec with spdm := d.sec.spdm.filter (fun s => s.id != k) } } .error
  | .endSession k => out { d with sec := { d.sec with spdm := d.sec.spdm.filter (fun s => s.id != k) } } (.ended k)
  | .other => out d .error

/-! ## Tenant records and key slots (R355 to R362) -/

/-- KEY_SLOTS_USED counts the slots that are not FREE. -/
def putKey (d : Dev) (k : Nat) (x : KeySlot) : Dev :=
  let d := setKey d k x
  setReg d 0x8000 0x00 (d.keys.filter (fun y => y.2.st != 0)).length

def tenantRec (d : Dev) (t : Nat) : Option Tenant := d.sec.tenants.find? (fun x => x.id == t)
def putTenant (d : Dev) (t : Tenant) : Dev :=
  { d with sec := { d.sec with tenants := d.sec.tenants.filter (fun x => x.id != t.id) ++ [t] } }

/-- Any key slot of a tenant that is not FREE. -/
def tenantSlot (d : Dev) (t : Nat) : Option Nat := (d.keys.find? (fun x => x.2.tenant == t && x.2.st != 0)).map (·.1)

/-- The lowest FREE key slot, and the lowest ring without a context. -/
def freeSlot (d : Dev) : Nat := ((List.range 4096).find? (fun k => (keySlot d k).st == 0)).getD 0
def freeRing (d : Dev) : Nat := ((List.range (d.ev.rings.length + 1)).find? (fun n => !d.ev.rings.any (fun x => x.1 == n))).getD 0

/-- An intake ring of a key slot (R186, R422): in management-die memory, served by firmware, of INTAKE_RING_ENTRIES entries (DEDUCED: log entry 53). -/
def makeRing (d : Dev) (k : Nat) : Dev :=
  if (keyRing d k).isSome then d
  else
    let size := Nat.log2 (reg d 0x3004 0x02) - 3
    setRing d (freeRing d) (BitVec.ofNat 256 (packBits [(64, 3, 3), (68, 4, size), (76, 4, 8), (80, 12, k), (130, 1, 1)]))

/-- A key record reaches this device: it takes a key slot (R358, R359); with all 4,096 taken the device loads no key for it
(log entry 23). -/
def loadKey (d : Dev) (t genCur : Nat) (trk tdk : List Byte) : Dev :=
  let k := (tenantSlot d t).getD (freeSlot d)
  if (tenantSlot d t).isNone && (keySlot d k).st != 0 then d
  else makeRing (putKey d k { keyIdle with tenant := t, st := 1, genCur := genCur, trkCur := trk, tdk := tdk }) k

/-- A key record reaches this device (R358), unwrapped in the security engine: a new tenant's takes a key slot, with the previous
generation that it holds. -/
def loadRecord (d : Dev) (r : BitVec 1024) : Dev :=
  let t := field r 0 16
  let d := loadKey d t (field r 32 32) (leBytes 32 (field r 128 256)) (leBytes 32 (field r 640 256))
  match tenantSlot d t with
  | none => d
  | some k =>
    if field r 64 32 = 0xFFFFFFFF then d
    else putKey d k { keySlot d k with st := 2, genPrev := some (field r 64 32), trkPrev := leBytes 32 (field r 384 256), rotated := d.frame.no }

/-- A rotation reaches this device (R361). -/
def rotateKey (d : Dev) (k : Nat) (trk : List Byte) : Dev :=
  let x := keySlot d k
  putKey d k { x with st := 2, genPrev := some x.genCur, trkPrev := x.trkCur, genCur := x.genCur + 1, trkCur := trk,
                      rotated := d.frame.no, retire := false }

/-- Revocation is ordered: the slot stands REVOKING, its variants are withdrawn (R362). -/
def revokeKey (d : Dev) (k : Nat) : Dev :=
  let x := keySlot d k
  if x.st = 1 ∨ x.st = 2 then withdrawSlotVariants (putKey d k { x with st := 3, edgeW := none }) k else d

/-- PROOF (R356). -/
def proofOk (x : KeySlot) (name : List Byte) (op : KeyOp) : Bool :=
  (Config.hmac512 x.trkCur (name ++ op.transcript)).take 32 == op.proof

def keyAnswer (d : Dev) (t : Nat) (a : KeyAnswer) : Dev :=
  let refused := match a with | .ok => false | .roster _ => false | _ => true
  emit (if refused then bump d 0x8160 0x01 1 else d) (.keyAnswer t a)

/-- A key command: a worker forwards it; without identity or after a maker unlock it is refused; else the manager acts (R355). -/
def keyCommand (d : Dev) (c : KeyCmd) (op : KeyOp) (f : Dev → Dev) : Dev :=
  if !d.sec.idOk ∨ bit (reg d 0x8100 0x00) 8 then keyAnswer d op.tenant .refused
  else if !isManager d then emit d (.keyForward c op)
  else f d

/-- A command with PROOF of a tenant that holds a key. -/
def provedCommand (d : Dev) (c : KeyCmd) (op : KeyOp) (name : List Byte) (f : Dev → Nat → KeySlot → Dev) : Dev :=
  keyCommand d c op (fun d =>
    match slotOfTenant d op.tenant with
    | none => keyAnswer d op.tenant .proofFailed
    | some k => if proofOk (keySlot d k) name op then f d k (keySlot d k) else keyAnswer d op.tenant .proofFailed)

/-- ASCII of the command names. -/
def asciiOf (s : String) : List Byte := s.toList.map (fun c => BitVec.ofNat 8 c.toNat)

/-- KEY_SET (R356, R357): generation 1, and a tenant data key from the random generator. -/
def keySet (d : Dev) (op : KeyOp) : Dev :=
  keyCommand d .set op (fun d =>
    match tenantRec d op.tenant with
    | none => keyAnswer d op.tenant .enrolRefused
    | some t =>
      if t.keyed ∨ t.revoked then keyAnswer d op.tenant .keyExists
      else if t.code ≠ op.code then keyAnswer d op.tenant .enrolRefused
      else
        let (tdk, d) := drawBytes d 32
        let d := loadKey (putTenant d { t with keyed := true }) op.tenant 1 op.trk tdk
        let sent := match tenantSlot d op.tenant with
          | some k => [.keyRecord op.tenant (wrapRecord d (keySlot d k))]
          | none => []
        keyAnswer (mgrSend d sent) op.tenant .ok)

def keyRotate (d : Dev) (op : KeyOp) : Dev :=
  provedCommand d .rotate op (asciiOf "KEY_ROTATE") (fun d k x =>
    if x.genPrev.isSome then keyAnswer d op.tenant .keyBusy
    else
      let d := rotateKey d k op.trk
      keyAnswer (mgrSend d [.keyRecord op.tenant (wrapRecord d (keySlot d k))]) op.tenant .ok)

/-- KEY_RETIRE: the previous generation is retired, its running requests ending at the next edge. -/
def keyRetire (d : Dev) (op : KeyOp) : Dev :=
  provedCommand d .retire op (asciiOf "KEY_RETIRE") (fun d k x =>
    keyAnswer (mgrSend (if x.genPrev.isSome then setKey d k { x with retire := true } else d) [.keyRetire op.tenant]) op.tenant .ok)

/-- The tenant is revoked on every device; the manager's record is marked. -/
def revokeTenant (d : Dev) (t : Nat) : Dev :=
  let d := match tenantRec d t with
    | some x => putTenant d { x with revoked := true }
    | none => d
  let d := match tenantSlot d t with
    | some k => revokeKey d k
    | none => { d with sec := { d.sec with tenants := d.sec.tenants.filter (fun x => x.id != t) } }
  mgrSend d [.keyRevoke t]

def keyRevoke (d : Dev) (op : KeyOp) : Dev :=
  provedCommand d .revoke op (asciiOf "KEY_REVOKE") (fun d _ _ => keyAnswer (revokeTenant d op.tenant) op.tenant .ok)

/-- ROSTER: every numbered device, which the manager has sent the record to. -/
def roster (n : Nv) (d : Dev) (op : KeyOp) : Dev :=
  provedCommand d .roster op (asciiOf "ROSTER") (fun d _ _ => keyAnswer d op.tenant (.roster (rosterList n d)))

/-- A request that runs, or waits, under a generation. -/
def underGen (q : GenReq) (k g : Nat) : Bool := q.slot == k && q.keyGen == g && q.rollout.isNone

/-- The previous generation of a slot is retired at this edge if it is due (R361) (DEDUCED: log entry 75). -/
def retireEdge (d : Dev) (k : Nat) : Dev :=
  let x := keySlot d k
  match x.genPrev with
  | none => d
  | some g =>
    let run := d.gen.reqs.filter (fun q => underGen q k g)
    if x.st = 3 ∨ (!x.retire ∧ !run.isEmpty) then d
    else
      let d := forEach run d (fun d q => endReq (unringReq d q) { q with onRing := false } 0x23)
      putKey d k { x with st := 1, genPrev := none, trkPrev := [], retire := false }

/-- The cut-off before edge W (R176, R362) (DEDUCED: log entry 76). -/
def revokeCut (d : Dev) : Dev :=
  forEach d.keys d (fun d x =>
    if x.2.st = 3 ∧ x.2.edgeW = none then setKey d x.1 { x.2 with edgeW := some (d.frame.no + 1) } else d)

/-- What the device holds for a key slot goes: its pages, its free blocks, its replay filter and the count of its responses. -/
def unmapSlot (d : Dev) (k : Nat) : Dev :=
  let mine := (mappedPages d).filter (fun x => let e := pte d x.1 x.2; e.valid && !e.remote && e.key == k && d.mem.frameOwner.get 0 e.pfn == k + 2)
  let d := forEach mine d (fun d x => putPte d x.1 x.2 0)
  { d with gen := { d.gen with
    kvFree := d.gen.kvFree.filter (fun x => x.1 % 4096 != k)
    sent := d.gen.sent.filter (fun x => x.1 / 2 ^ 192 != k)
    filters := d.gen.filters.erase k } }

/-- Edge W: the tenant's requests end VARIANT_WITHDRAWN, its jobs JOB_ENDED; edge W + 2: its keys are destroyed and its frames freed,
its slot is FREE and the manager deletes the record. -/
def revokeEdge (d : Dev) (k : Nat) : Dev :=
  let x := keySlot d k
  match x.edgeW with
  | none => d
  | some w =>
    if d.frame.no = w then
      let d := forEach (d.gen.reqs.filter (fun q => q.slot == k && q.rollout.isNone)) d (fun d q =>
        endReq (unringReq d q) { q with onRing := false } stWithdrawn)
      forEach (d.train.jobs.filter (fun j => j.slot == k)) d (fun d j => endJob d j causeRevoked)
    else if d.frame.no = w + 2 then
      let d := forEach (d.mem.frameOwner.filter (fun y => y.2 == k + 2)) (unmapSlot d k) (fun d y => freeFrame d y.1)
      let d := match keyRing d k with
        | some n => setRing d n ringReset
        | none => d
      { putKey d k keyIdle with sec := { d.sec with tenants := d.sec.tenants.filter (fun t => t.id != x.tenant) } }
    else d

def keysEdge (d : Dev) : Dev := forEach d.keys d (fun d x => revokeEdge (retireEdge d x.1) x.1)

/-! ## Data lost (R375) -/

/-- An address lies in a block of a request, or in the live bank of a variant. -/
def inBlocks (d : Dev) (q : GenReq) (a : Nat) : Bool :=
  match appAt d q.app with
  | some x => q.blocks.any (fun l => l.any (fun b => b ≤ a && a < b + blockBytes x.book))
  | none => false
def inLiveBank (d : Dev) (v a : Nat) : Bool :=
  match variant d v with
  | none => false
  | some r => match bookOf d r with
    | none => false
    | some c =>
      let m := masterBank c r r.liveB
      let o := optBank c r r.liveB
      (m ≤ a && a < m + 4 * masterElems c r) || (o ≤ a && a + 4 * masterElems c r < o + bankBytes c r)

/-- Uncorrectable accesses of the frame that ended reach their tenants: DATA_LOST for the request, the job or its step. -/
def dataLostEdge (d : Dev) : Dev :=
  forEach d.mem.dataLost { d with mem := { d.mem with dataLost := [] } } (fun d (a, dva, key) =>
    let hit := d.gen.reqs.filter (fun q => q.app == a && q.slot == key && q.rollout.isNone && inBlocks d q dva)
    if !hit.isEmpty then
      forEach hit d (fun d q => if q.stage = .active then setReq d { q with stage := .ending 0x20 } else d)
    else
      forEach (d.train.jobs.filter (fun j => j.app == a && j.slot == key)) d (fun d j =>
        if inLiveBank d j.variant dva then orderWithdraw (endJob d j causeDataLost) j.variant
        else abandonSteps d j causeDataLost (d.frame.no - 1)))

/-! ## Frames (R363 to R369) -/

/-- The MAC and XTS keys of a frame's owner: the device's, or those derived from a tenant data key and the device number (R363). -/
def frameKeys (d : Dev) (owner : Nat) : List Byte × List Byte :=
  if owner = 1 then (Config.hmac512 Config.pufKey (asciiOf "DDR"), (Config.hmac512 Config.pufKey (asciiOf "DMAC")).take 32)
  else
    let tdk := (keySlot d (owner - 2)).tdk
    let dev := leBytes 4 (ownDevice d)
    (Config.hmac512 tdk (asciiOf "XTS" ++ dev), (Config.hmac512 tdk (asciiOf "MAC" ++ dev)).take 32)

/-- The ciphertext of a granule (R365) and its MAC (R366): GHASH under AES of the zero block, xor the granule number and version. -/
def granCipher (d : Dev) (g : Nat) : List Byte :=
  Config.xts (frameKeys d (granKey d g)).1 g (readBytes d.mem.ddr (g * granSize) granSize)
def granMac (d : Dev) (g : Nat) : List Byte :=
  let km := (frameKeys d (granKey d g)).2
  let h := Config.aes256 km (List.replicate 16 0)
  let n := leBytes 8 g ++ leBytes 7 (version d (g / 8192)) ++ [0]
  (Config.aes256 km (List.zipWith (· ^^^ ·) (Config.ghash h (granCipher d g)) n)).take 8

/-- A tree line that failed verification (R367): every access under it is uncorrectable. -/
def treeFault (d : Dev) (lo hi : Nat) : Dev :=
  let d := { d with mem := { d.mem with treeBad := d.mem.treeBad ++ [(lo, hi)] } }
  raiseReport (bump d 0x8160 0x02 1) 5 0 (BitVec.ofNat 512 (packBits [(0, 22, lo), (32, 22, hi)]))

/-- A scrubbed frame is given to its owner; only a frame that nobody owns is scrubbed (R369). -/
def scrubDone (d : Dev) (op : ScrubOp) : Dev :=
  let d := match op.failed with
    | some (lo, hi) => treeFault d lo hi
    | none => d
  if d.mem.frameOwner.get 0 op.pfn ≠ 0 ∨ op.owner = 0 ∨ treeFailed d op.pfn ∨ !frameUsable d op.pfn then d
  else bump (giveFrame d op.pfn op.owner) 0x8160 0x00 1

/-! ## Device interfaces (R373, R374) -/

def tdi (d : Dev) (vf : Nat) : Nat := reg d 0x8010 vf
def setTdi (d : Dev) (vf st : Nat) : Dev := setReg d 0x8010 vf st
/-- A VF in RUN enters ERROR and stops its DMA. -/
def tdiError (d : Dev) (vf : Nat) : Dev := if tdi d vf = 2 then raise (setTdi d vf 3) 1186 vf vf else d
/-- The rings of a VF. -/
def vfRings (d : Dev) (vf : Nat) : List Nat := (d.ev.rings.filter (fun x => ringLoc x.2 == 2 && ringVf x.2 == vf)).map (·.1)

/-! ## Halts and views (R381, R382) -/

/-- The edge that the manager names for a halt: at least 16 frames on and past S + 1 of a base operation. -/
def haltEdgeOf (d : Dev) (a : Nat) : Nat :=
  match (baseOf d a).switchAt with
  | some s => max (d.frame.no + 16) (s + 2)
  | none => d.frame.no + 16

/-- A halt, or a resumption with the frames to run, at the edge that the request names. -/
def orderHalt (d : Dev) (a e : Nat) : Dev :=
  tellOthers (setHalt d a { haltOf d a with at_ := some e }) a (.haltAt a e)

def orderRun (d : Dev) (a : Nat) (steps : Option Nat) (e : Nat) : Dev :=
  tellOthers (setHalt d a { haltOf d a with resume := some e, steps := steps }) a (.runAt a e steps)

/-- A halted frame moves every frame number that the application's work is scheduled by (R381) (DEDUCED: log entry 80). -/
def haltShift (d : Dev) (a : Nat) : Dev :=
  let up := fun (f : Option Nat) => f.map (· + 1)
  let sched := fun (x : Sched) => { x with f0 := up x.f0 }
  let d := setReqs d (d.gen.reqs.map (fun q =>
    if q.app = a then { q with first := if q.stage = .active then q.first + 1 else q.first, arrived := q.arrived + 1 } else q))
  let d := { d with train := { d.train with
    jobs := d.train.jobs.map (fun j => if j.app = a then
      { j with steps := j.steps.map (fun x => { x with
          seqs := x.seqs.map sched, scores := x.scores.map sched, close := up x.close,
          groups := x.groups.map (fun g => { g with ended := up g.ended }) }) } else j)
    evals := d.train.evals.map (fun v => if v.app = a then { v with since := v.since + 1, seqs := v.seqs.map sched } else v)
    notes := d.train.notes.map (fun y => if y.app = a then { y with f0 := y.f0 + 1 } else y)
    reduces := d.train.reduces.map (fun r => if r.info.app = a then { r with info := { r.info with close := up r.info.close } } else r) } }
  let x := snapOf d a
  let d := setSnap d a { x with order := up x.order, last := x.last + 1 }
  let b := baseOf d a
  { d with base := d.base.set baseIdle a { b with mapAt := b.mapAt + 1, switchAt := up b.switchAt,
                                                  checks := b.checks.map (fun y => { y with seqs := y.seqs.map sched }),
                                                  journal := b.journal.map (fun e => { e with mappedAt := e.mappedAt + 1 }) } }

/-- The edge of an application's halt or resumption; a halted frame is counted. -/
def haltEdge (d : Dev) (a : Nat) : Dev :=
  let h := haltOf d a
  let d := if h.resume = some d.frame.no then
      setHalt d a { at_ := h.steps.map (fun k => d.frame.no + k), resume := none, steps := none, key := none }
    else d
  let h := haltOf d a
  let d := if h.at_ = some d.frame.no ∧ h.key = none then
      let (k, d) := drawNat d
      setHalt d a { h with at_ := none, key := some k }
    else d
  if (haltOf d a).key.isSome then haltShift (bump d 0x8101 (a + 1) 1) a else d

def haltsEdge (d : Dev) : Dev := forEach d.sec.halts d (fun d x => haltEdge d x.1)

/-- A line of CONTROL, or of a RESIDENT region, which is the device's own (DEDUCED: log entry 78). -/
def clearLine (d : Dev) (h a : Nat) : Bool :=
  hitsControl d h a 64 || hitsControl { d with mem := { d.mem with control := d.mem.resident } } h a 64

/-- A view (R382): its result, or none where it is refused with NOT_HALTED. -/
def viewResult (d : Dev) (v : View) : Option (List Byte) :=
  match v with
  | .onChip h a =>
    match (appOfPart d (partOfHearth h)).bind (fun app => (haltOf d app).key) with
    | none => none
    | some key =>
      let a := a / 64 * 64
      let line := opBytes d h a 64
      some (if clearLine d h a then [1] ++ line
            else [0] ++ Config.xts (leBytes 64 key) (h * 2 ^ 29 + a) line)
  | .tile h a t =>
    if (appOfPart d (partOfHearth h)).any (fun app => (haltOf d app).key.isSome) then some ([1] ++ leBytes 4 (tileStatus d h a t).toNat) else none
  | .ddr pfn g =>
    let k := pfn * 8192 + g
    some ([0] ++ granCipher d k ++ granMac d k ++ leBytes 7 (version d pfn))

/-- DEBUG_POLICY takes effect at the edge; POLICY_GEN rises at each change (R380). -/
def policyEdge (d : Dev) : Dev :=
  match d.sec.policyNext with
  | none => d
  | some v =>
    let old := reg d 0x8100 0x00
    let d := { d with sec := { d.sec with policyNext := none } }
    if v % 32 = old % 32 then d
    else setReg d 0x8100 0x00 (v % 32 + (old / 256 % 2) * 256 + ((old / 65536 + 1) % 65536) * 65536)

/-! ## The maker unlock (R383) -/

/-- Every key slot, the SWK and the unwrapped identity are destroyed; counter 2 rises; every key command is refused (DEDUCED: log entry 105). -/
def makerUnlock (n : Nv) (d : Dev) : Nv × Dev :=
  let d := setReg { d with keys := [], sec := { d.sec with swk := none, idOk := false } } 0x8000 0x00 0
  let v := reg d 0x8100 0x00
  ({ n with counter2 := n.counter2 + 1 }, setReg d 0x8100 0x00 (if bit v 8 then v else v + 256))

/-! ## The commands -/

def execSpdmRequest (op : SpdmOp) (s : State) : Host.Outcome State Fault Refusal :=
  onDevIf (op.transport < 4) s (fun d => spdmAnswer s.nv (atOff d op.off) op.transport op.req)

def execKeySet (op : KeyOp) (s : State) : Host.Outcome State Fault Refusal := onDev s (fun d => keySet (atOff d op.off) op)
def execKeyRotate (op : KeyOp) (s : State) : Host.Outcome State Fault Refusal := onDev s (fun d => keyRotate (atOff d op.off) op)
def execKeyRetire (op : KeyOp) (s : State) : Host.Outcome State Fault Refusal := onDev s (fun d => keyRetire (atOff d op.off) op)
def execKeyRevoke (op : KeyOp) (s : State) : Host.Outcome State Fault Refusal := onDev s (fun d => keyRevoke (atOff d op.off) op)
def execRoster (op : KeyOp) (s : State) : Host.Outcome State Fault Refusal :=
  onBoth s (fun n d => (n, roster n (atOff d op.off) op))

/-- KEY_ROTATE_FRAMES after a rotation the previous generation is retired (R361). -/
def execKeyRotateExpiry (op : KeySlotOp) (s : State) : Host.Outcome State Fault Refusal :=
  onDevIf (op.slot < 4096) s (fun d =>
    let d := atOff d op.off
    let x := keySlot d op.slot
    if x.genPrev.isSome ∧ x.rotated + reg d 0x8003 0x00 ≤ d.frame.no then setKey d op.slot { x with retire := true } else d)

/-- VF commands act on VF1 to VF8. -/
def onVf (op : VfOp) (s : State) (f : Dev → Dev) : Host.Outcome State Fault Refusal :=
  onDevIf (1 ≤ op.vf && op.vf ≤ 8) s (fun d => f (atOff d op.off))

/-- IDE_KM runs over an SPDM session on the DOE mailbox (R373). -/
def execIdeKm (op : IdeOp) (s : State) : Host.Outcome State Fault Refusal :=
  onDevIf (1 ≤ op.vf && op.vf ≤ 8) s (fun d =>
    let d := atOff d op.off
    if d.sec.spdm.any (fun x => x.id == op.session && x.transport == 0) then
      { d with sec := { d.sec with ide := d.sec.ide.filter (· ≠ op.vf) ++ [op.vf] } }
    else d)

def execGetVersion (op : VfOp) (s : State) : Host.Outcome State Fault Refusal := onVf op s (fun d => emit d (.tdisp op.vf .version))
def execGetCapabilities (op : VfOp) (s : State) : Host.Outcome State Fault Refusal :=
  onVf op s (fun d => emit d (.tdisp op.vf .capabilities))
def execLockInterface (op : VfOp) (s : State) : Host.Outcome State Fault Refusal :=
  onVf op s (fun d => if tdi d op.vf = 0 then emit (setTdi d op.vf 1) (.tdisp op.vf .ok) else emit d (.tdisp op.vf .error))
def execGetDeviceInterfaceReport (op : VfOp) (s : State) : Host.Outcome State Fault Refusal :=
  onVf op s (fun d => emit d (.tdisp op.vf (.report (vfRings d op.vf) (0x0F + op.vf))))
def execGetDeviceInterfaceState (op : VfOp) (s : State) : Host.Outcome State Fault Refusal :=
  onVf op s (fun d => emit d (.tdisp op.vf (.state (tdi d op.vf))))
def execStartInterface (op : VfOp) (s : State) : Host.Outcome State Fault Refusal :=
  onVf op s (fun d => if tdi d op.vf = 1 then emit (setTdi d op.vf 2) (.tdisp op.vf .ok) else emit d (.tdisp op.vf .error))
def execStopInterface (op : VfOp) (s : State) : Host.Outcome State Fault Refusal :=
  onVf op s (fun d => emit (setTdi d op.vf 0) (.tdisp op.vf .ok))
def execFunctionLevelReset (op : VfOp) (s : State) : Host.Outcome State Fault Refusal := onVf op s (fun d => tdiError d op.vf)
def execIdeIntegrityFailure (op : VfOp) (s : State) : Host.Outcome State Fault Refusal := onVf op s (fun d => tdiError d op.vf)
def execVfConfigurationChange (op : VfOp) (s : State) : Host.Outcome State Fault Refusal := onVf op s (fun d => tdiError d op.vf)

def execScrubComplete (op : ScrubOp) (s : State) : Host.Outcome State Fault Refusal :=
  onDev s (fun d => scrubDone (atOff d op.off) op)

end Sys2Proof.Machine
end

