-- ==== Sys2Proof/Machine/Audit.lean ====
section
/-!
DEFINITION. Audit entries of the ash record, and the close of a session (R389, R399, R400, R405, R406).
-/
namespace Sys2Proof.Machine
open Sys2Proof

def roleCode : Role → Nat
  | .operator => 1 | .installer => 2 | .maker => 3
def transportCode : Transport → Nat
  | .segA => 0 | .segB => 1 | .ligature => 2 | .pcie => 3

/-- OLD and NEW (R406): the value itself up to 16 bytes, else the first 16 bytes of its SHA-512. -/
def auditValue (bs : List Byte) : Nat := if bs.length ≤ 16 then leNat bs else leNat ((Config.sha512 bs).take 16)

/-- An audit entry of a session: KIND 0x11 opened, 0x12 refused, 0x13 closed. -/
def auditSession (d : Dev) (kind : Nat) (role : Role) (t : Transport) (status ses : Nat) : Dev :=
  ashMain d (ashEntry d kind [(8, 3, roleCode role), (12, 4, transportCode t), (16, 8, status), (32, 32, ses)])

/-- An audit entry of a write item. -/
def auditWrite (d : Dev) (s : Session) (status index sub off len : Nat) (secret : Bool) (old new : List Byte) (edge : Nat) : Dev :=
  ashMain d (ashEntry d 0x10 [(8, 3, roleCode s.role), (11, 1, b2n secret), (12, 4, transportCode s.transport), (16, 8, status),
    (32, 32, s.id), (128, 16, index), (144, 8, sub), (160, 32, off), (192, 32, len),
    (224, 128, if secret then 0 else auditValue old), (352, 128, if secret then 0 else auditValue new), (480, 32, edge)])

/-- A session ends: its staged value, its latch and its pending NOTIFY records go with it. -/
def closeSession (d : Dev) (s : Session) : Dev :=
  let d := auditSession d 0x13 s.role s.transport 0 s.id
  { d with epell := { d.epell with
      sessions := d.epell.sessions.filter (fun x => x.id != s.id)
      notify := d.epell.notify.erase s.id
      notifyLost := d.epell.notifyLost.filter (· ≠ s.id) } }

end Sys2Proof.Machine
end

