-- ==== Sys2Proof/Machine/Power.lean ====
section
/-!
DEFINITION. Power, the Flue, units that fail or are reset, spares, channels, and the service pushbutton (R435 to R438, R446 to R459,
R466 to R468, R471, R475).
-/
namespace Sys2Proof.Machine
open Sys2Proof

def setPow (d : Dev) (f : PowS → PowS) : Dev := { d with pow := f d.pow }

/-! ## Domains (R435, R436) -/

def domain (d : Dev) (k : Nat) : Nat := d.pow.domains.get 0 k
def setDomain (d : Dev) (st k : Nat) : Dev :=
  setReg (setPow d (fun p => { p with domains := p.domains.set 0 k st })) 0x9002 (k + 1) st
def setDomains (d : Dev) (st : Nat) (l : List Nat) : Dev := forEach l d (fun d k => setDomain d st k)
/-- Cluster domains of a partition; its die fabric and memory PHY. -/
def clusterDomains (p : Nat) : List Nat := (List.range 8).map (10 * p + ·)
def allClusterDomains : List Nat := (List.range 8).flatMap clusterDomains
def dieDomains : List Nat := (List.range 8).flatMap (fun p => [10 * p + 8, 10 * p + 9])
def portDomains : List Nat := (List.range 8).map (88 + ·)
def mgmtDomains : List Nat := (List.range 8).map (80 + ·)
def everyDomain : List Nat := List.range 96

/-! ## Physical units (R447, R448) -/

/-- Passing physical Hearths of a cluster, in ascending order, and the logical to physical map at K3. -/
def passing (d : Dev) (c : Nat) : List Nat :=
  ((List.range 9).map (9 * c + ·)).filter (fun n => d.pow.up.contains n && !d.pow.bad.contains n)
def physical (d : Dev) (h : Nat) : Option Nat := d.pow.map.get none h
def logicalOf (d : Dev) (n : Nat) : Option Nat := (d.pow.map.find? (fun x => x.2 == some n)).map (·.1)

def isDegraded (d : Dev) (c : Nat) : Bool := d.pow.degraded.contains c
/-- A cluster becomes DEGRADED (DEGRADED_CLUSTERS, bit 4p + c). -/
def degrade (d : Dev) (c : Nat) : Dev :=
  if isDegraded d c then d
  else
    let d := setPow d (fun p => { p with degraded := p.degraded ++ [c] })
    setReg d 0x900A 0x01 ((d.pow.degraded.map (2 ^ ·)).sum)

/-- A spare is a passing Hearth of the cluster that no logical Hearth uses. -/
def spareOf (d : Dev) (c : Nat) : Option Nat :=
  (passing d c).find? (fun n => (logicalOf d n).isNone && !d.pow.spares.any (fun s => s.spare == n))

/-- An entry of the service defect list (R446): kind, die, cluster, Hearth, index. -/
def defectEntry (kind c h index : Nat) : BitVec 64 :=
  BitVec.ofNat 64 (packBits [(0, 4, kind), (4, 3, c / 4), (7, 2, c % 4), (9, 4, h), (20, 4, index)])

def addDefect (n : Nv) (e : BitVec 64) : Nv :=
  if n.serviceDefects.contains e then n else { n with serviceDefects := n.serviceDefects ++ [e] }
def addDefects (n : Nv) (l : List (BitVec 64)) : Nv := l.foldl addDefect n
/-- A cluster that failed is listed by its nine Hearths: no kind of entry names a cluster (DESIGN CHOICE: log entry 190). -/
def clusterDefects (c : Nat) : List (BitVec 64) := (List.range 9).map (fun h => defectEntry 0 c h 0)
/-- A memory channel's entry. -/
def channelDefect (k : Nat) : BitVec 64 := defectEntry 4 (k / 4 * 4) 0 (k % 4)

/-! ## Tasks on a unit -/

/-- A task has a part on a logical Hearth: its stream or one of its engines. -/
def onHearth (h : Nat) (p : TaskPlan) : Bool :=
  (p.stream < 1024 && p.stream / 4 == h) || p.windows.any (fun w => w.eng < 1024 && w.eng / 4 == h)
def onCluster (c : Nat) (p : TaskPlan) : Bool :=
  clusterOfStream p.stream == c || p.windows.any (fun w => (w.eng < 1024 && w.eng / 32 == c) || w.eng == 1024 + c)
def onScope (d : Dev) (s : Scope) (p : TaskPlan) : Bool :=
  match s with
  | .hearth n => (logicalOf d n).any (fun h => onHearth h p)
  | .cluster c => onCluster c p
  | .partition q => p.part == q || (List.range 4).any (fun k => onCluster (4 * q + k) p)
  | _ => true

/-- Tasks with a part on a unit fail in the frame in which they stand planned (R449). -/
def failOn (d : Dev) (on : TaskPlan → Bool) : Dev :=
  forEach (d.frame.tasks.filterMap (fun x => match x.2 with
    | some t => if t.status = .live ∧ on t.plan then some x.1 else none
    | none => none)) d (fun d id => failTask d id .quiet)

/-! ## Resets of units (R453 to R457) -/

/-- What the reset of a scope covers. -/
def covers (a b : Scope) : Bool :=
  a == b || match a, b with
    | .cluster c, .hearth n => n / 9 == c
    | .partition p, .hearth n => n / 36 == p
    | .partition p, .cluster c => c / 4 == p
    | .warm, .cold => false
    | .warm, _ => true
    | .cold, _ => true
    | _, _ => false

/-- The engines of a unit stop and its transfers end CUT (R455). -/
def stopUnit (d : Dev) (s : Scope) : Dev :=
  let d := failOn d (onScope d s)
  let cs := match s with | .cluster c => [c] | .partition p => (List.range 4).map (4 * p + ·) | .warm => List.range 32 | .cold => List.range 32 | _ => []
  forEach cs d (fun d c =>
    let d := forEach (teQueue d c ++ d.mem.carriedX.get [] c) d (fun d x => recordXfer (headBack d x) { landed x with st := 7 })
    { d with mem := { d.mem with te := d.mem.te.set [] c [], carriedX := d.mem.carriedX.set [] c [] } })

/-- A table without the keys of a unit. -/
def without {α : Type} (t : Table α) (gone : Nat → Bool) : Table α := t.filter (fun x => !gone x.1)

/-- A Hearth's Well, tiles, arrays, Ductus and vector registers are clear (R451). -/
def clearHearth (d : Dev) (h : Nat) : Dev :=
  { d with
    hearth := { d.hearth with
      arrays := without d.hearth.arrays (· / 2 == h), tiles := without d.hearth.tiles (· / 16 == h),
      ductus := without d.hearth.ductus (· == h), vregs := without d.hearth.vregs (· / 32 == h),
      tally := without d.hearth.tally (· / 256 == h), latch := without d.hearth.latch (· == h) }
    mem := { d.mem with well := without d.mem.well (· / wellSize == h) } }

def clearCluster (d : Dev) (c : Nat) : Dev :=
  let d := forEach ((List.range 8).map (8 * c + ·)) d clearHearth
  { d with mem := { d.mem with
      ink := without d.mem.ink (· / inkSize == c), sems := without d.mem.sems (· / 1024 == c),
      poison := without d.mem.poison (· / 1024 == c), brings := without d.mem.brings (· / 64 == c),
      stamps := without d.mem.stamps (· / 64 == c) } }

/-- A source whose handler is gone with its processor: what it merged waits again. -/
def orphan (d : Dev) (s : Source) : Source :=
  match s.st with
  | .active => quiet s
  | .activePending => { s with st := .pending, since := now d, raised := 0, slot := none }
  | _ => s

/-- CPp's firmware state (R451, R454): the handlers that run on it end, and its rings are disabled (DESIGN CHOICE: log entry 135). -/
def clearCp (d : Dev) (p : Nat) : Dev :=
  let running := (d.ev.handlers.get [] p).map (·.1)
  let d := forEach running d (fun d n => setSource d n (orphan d (source d n)))
  { d with ev := { d.ev with
      handlers := d.ev.handlers.set [] p []
      rings := d.ev.rings.mapVals ringReset (fun c => if ringOwner c = p then setField c 130 1 0 else c) } }

/-- The reset proper of a unit (R454). -/
def resetProper (d : Dev) (s : Scope) : Dev :=
  match s with
  | .hearth n => match logicalOf d n with
    | some h => clearHearth d h
    | none => d
  | .cluster c => clearCluster d c
  | .partition p =>
    let d := clearCp (forEach ((List.range 4).map (4 * p + ·)) d clearCluster) p
    { d with train := { d.train with scribe := d.train.scribe.map (fun t =>
        if (variant d t.notice.variant).any (fun r => (partsOf d r.app).contains p) then { t with planned := false, running := false } else t) } }
  | _ => d

def resetsIgnored (d : Dev) : Dev := bump d 0x9009 0x01 1

/-- An ordered reset (R453, R457): none where the unit is already under reset of the same or a larger scope. -/
def orderReset (d : Dev) (s : Scope) : Dev :=
  if d.pow.resets.any (fun r => covers r.scope s) then resetsIgnored d
  else setPow d (fun p => { p with resets := p.resets ++ [{ scope := s, phase := .ordered false, fault := false }] })

/-- A fault reset begins at once; it replaces an order that has not taken effect, and includes the smaller resets under way (DEDUCED: log entry 128). -/
def faultReset (d : Dev) (s : Scope) : Dev :=
  if d.pow.resets.any (fun r => covers r.scope s && !(match r.phase with | .ordered _ => r.scope == s | _ => false)) then resetsIgnored d
  else
    let d := setPow d (fun p => { p with resets := p.resets.filter (fun r => !covers s r.scope) ++
      [{ scope := s, phase := .draining, fault := true }] })
    stopUnit d s

/-- Orders pass the cut-off (R453). -/
def resetsCut (d : Dev) : Dev :=
  setPow d (fun p => { p with resets := p.resets.map (fun r => match r.phase with
    | .ordered _ => { r with phase := .ordered true }
    | _ => r) })

/-- No task of the next plan may lie on a unit that is ordered, under reset or not yet back. -/
def unitGone (d : Dev) (t : TaskPlan) : Bool :=
  d.pow.resets.any (fun r => onScope d r.scope t) ||
    d.pow.outHearths.any (fun h => onHearth h t && !d.pow.spares.any (fun s => s.logical == h && s.ready)) ||
    (d.pow.degraded ++ d.pow.degrading).any (fun c => onCluster c t) || (t.cls != .housekeeping && d.pow.refill.any (fun x => onCluster x.1 t)) || d.pow.lostParts.contains t.part

/-- A unit's epochs (R450): Hearth h, 256 + cluster, 288 + partition. -/
def scopeEpochs (d : Dev) : Scope → List Nat
  | .hearth n => (logicalOf d n).toList
  | .cluster c => (256 + c) :: (List.range 8).map (8 * c + ·)
  | .partition p => (288 + p) :: (List.range 4).flatMap (fun k => (256 + 4 * p + k) :: (List.range 8).map (32 * p + 8 * k + ·))
  | _ => []

def raiseEpochs (d : Dev) (l : List Nat) : Dev :=
  setPow d (fun p => { p with epochs := l.foldl (fun (t : Table Nat) k => t.set 0 k ((t.get 0 k + 1) % 256)) p.epochs })

/-- Ordered resets take effect at this edge; units that are back return with new epochs (R450, R453). Device scopes wait for the
topology edge, or, on a device without tables, take the edge as the others do. -/
def resetsEdge (d : Dev) (topology : Bool) : Dev :=
  let due := d.pow.resets.filter (fun r => match r.phase with
    | .ordered true => (r.scope != .warm && r.scope != .cold) || topology || d.lig.tables.isNone
    | _ => false)
  let back := d.pow.resets.filter (fun r => r.phase == .returning)
  let d := forEach due d (fun d r =>
    stopUnit (setPow d (fun p => { p with resets := p.resets.map (fun x => if x = r then { x with phase := .draining } else x) })) r.scope)
  let d := setPow d (fun p => { p with resets := p.resets.filter (fun r => r.phase != .returning), epochRise := [] })
  raiseEpochs d (back.flatMap (fun r => scopeEpochs d r.scope) ++ d.pow.epochRise)

/-- LIVE slots are refilled in clusters that have been reset (R454). -/
def refillSlots (d : Dev) (p : Nat) (cs : List Nat) : Dev :=
  match appOfPart d p with
  | none => d
  | some a =>
    let l := (appSlots d a).filter (fun s => (slot d s).st == 2)
    let d := setPow d (fun w => { w with refill := w.refill ++ cs.flatMap (fun c => l.map (fun s => (c, s))) })
    forEach l d (fun d s =>
      if d.ink.fills.any (fun f => f.slot == s) then d
      else queueFill d s (liveMask (slot d s)))

/-- At a cut-off: spares whose reload is done may be used by the plan now built, and the proof strokes of the others are planned
(R449); refills that have completed hold nothing up any longer (R454) (DEDUCED: log entry 33). -/
def unitsCut (d : Dev) : Dev :=
  setPow d (fun p => { p with
    spares := p.spares.map (fun s => { s with proofPlanned := true, ready := s.reloaded })
    refill := p.refill.filter (fun x => (slot d x.2).st == 2 &&
      (d.ink.fills.any (fun f => f.slot == x.2) || d.ink.windows.any (fun w => w.2 == x.2 + 1))) })

/-! ## Failed units (R447 to R449) -/

/-- A spare for an OUT Hearth is planned, if the cluster holds one; else the cluster is DEGRADED from the next edge on (R449). -/
def useSpare (d : Dev) (h : Nat) : Dev :=
  let c := clusterOf h
  match spareOf d c with
  | some n => setPow d (fun p => { p with spares := p.spares ++ [{ logical := h, spare := n, proofPlanned := false, reloaded := false, ready := false }] })
  | none => if d.pow.degrading.contains c then d else setPow d (fun p => { p with degrading := p.degrading ++ [c] })

/-- Clusters without a spare become DEGRADED at the edge, and their applications are restored onto what remains (R449). -/
def degradeEdge (d : Dev) : Dev :=
  forEach d.pow.degrading (setPow d (fun p => { p with degrading := [] })) (fun d c =>
    match appOfPart d (partOfCluster c) with
    | some a => orderRestore (degrade d c) a
    | none => degrade d c)

/-- An uncorrectable internal error of a Hearth (R449): a FAULT entry, a fault reset, OUT, the service defect list. -/
def hearthFault (n : Nv) (d : Dev) (h : Nat) : Nv × Dev :=
  if d.pow.outHearths.contains h ∨ isDegraded d (clusterOf h) then (n, d)
  else match physical d h with
    | none => (n, d)
    | some q =>
      let d := ashFault d 0 1 h 0 0
      let d := failOn (faultReset d (.hearth q)) (onHearth h)
      let d := setPow d (fun p => { p with bad := p.bad ++ [q], outHearths := p.outHearths ++ [h] })
      (addDefect n (defectEntry 0 (q / 9) (q % 9) 0), useSpare d h)

/-- Spares whose proof stroke and reload are done take their logical Hearth at the edge that begins the first plan which may use them
(R449). -/
def remapEdge (d : Dev) : Dev :=
  forEach (d.pow.spares.filter (·.ready)) d (fun d s =>
    let d := setPow d (fun p => { p with
      map := p.map.set none s.logical (some s.spare), outHearths := p.outHearths.filter (· ≠ s.logical),
      spares := p.spares.filter (fun x => x != s),
      resets := p.resets.filter (fun r => match r.scope with | .hearth n => n / 9 != s.spare / 9 || !p.bad.contains n | _ => true) })
    raiseEpochs d [s.logical])

/-- RESIDENT contents of a logical Hearth's Well, from the base image (R150, R449). -/
def reloadWell (d : Dev) (h : Nat) : Dev :=
  match (appOfPart d (partOfHearth h)).bind (appAt d) with
  | none => d
  | some x =>
    let ws := x.book.weights.filter (fun w => w.1 && w.2.1 == h)
    let well := ws.foldl (fun (t : Table Byte) w => t.set 0 (h * wellSize + w.2.2.1) w.2.2.2) d.mem.well
    { d with mem := { d.mem with well := well } }

/-! ## Memory channels (R121, R122, R452) -/

def channelState (d : Dev) (c : Nat) : Nat := reg d 0x1101 (c + 1)
def setChannel (d : Dev) (st c : Nat) : Dev := setReg d 0x1101 (c + 1) st
def groupChannels (g : Nat) : List Nat := (List.range 4).map (4 * g + ·)

/-- Usable frames of a group of four DIMMs of a capacity in GiB (R122). -/
def groupFrames (gib : Nat) : Nat := (4 * gib * 2 ^ 30 * 31 / 32 - 64 * 2 ^ 20) / 2 ^ 21

/-- DDR_USABLE in bytes. -/
def publishUsable (d : Dev) : Dev :=
  setReg d 0x1103 0x00 (((List.range 8).map (fun g => d.mem.usable.get 0 g)).sum * 2 ^ 21)

/-- A failed channel disables its die group (R121) (DEDUCED: log entry 87). -/
def failChannel (d : Dev) (c : Nat) : Dev :=
  let g := c / 4
  let d := forEach (groupChannels g) d (fun d k => if channelState d k = 2 ∨ channelState d k = 0 then d else setChannel d 4 k)
  let d := setChannel d 2 c
  publishUsable { d with mem := { d.mem with
    usable := d.mem.usable.set 0 g 0, exports := d.mem.exports.filter (fun x => x.1 / 524288 != g) } }

/-- Frames of a group in use; frames free in the others. -/
def groupUsed (d : Dev) (g : Nat) : Nat := (d.mem.frameOwner.filter (fun x => x.1 / 524288 == g && x.2 != 0)).length
def freeElsewhere (d : Dev) (g : Nat) : Nat :=
  (((List.range 8).filter (· ≠ g)).map (fun k => d.mem.usable.get 0 k - groupUsed d k)).sum

/-- Retraining of a channel's group begins: its channels read RETRAINING, and it gives no new frames. False: no room elsewhere (DEDUCED: log entry 83). -/
def startRetrain (d : Dev) (c : Nat) : Option Dev :=
  let g := c / 4
  if freeElsewhere d g < groupUsed d g then none
  else if d.pow.retraining.contains g then some d
  else
    let d := forEach (groupChannels g) d (fun d k => if channelState d k = 1 then setChannel d 3 k else d)
    some (setPow d (fun p => { p with retraining := p.retraining ++ [g] }))

/-- Corrected errors of a channel in the last 1,024 frames, by frame. -/
def recentErrors (d : Dev) (c : Nat) : List (Nat × Nat) := (d.mem.corrWindow.get [] c).filter (fun x => d.frame.no < x.1 + 1024)

/-- Corrected errors (R120, R452): counted; at the threshold within 1,024 frames an automatic retraining starts, or waits with CODE 4
(DESIGN CHOICE: log entry 84). -/
def channelErrors (d : Dev) (c n : Nat) : Dev :=
  let d := bump d 0x1105 (c + 1) n
  let l := recentErrors d c ++ [(d.frame.no, n)]
  if (l.map (·.2)).sum < reg d 0x900D 0x01 then { d with mem := { d.mem with corrWindow := d.mem.corrWindow.set [] c l } }
  else
    let d := { d with mem := { d.mem with corrWindow := d.mem.corrWindow.set [] c [] } }
    match startRetrain d c with
    | some d => raise d (1152 + c) 1 c
    | none =>
      let d := if d.pow.retrainWaits.contains c then d else setPow d (fun p => { p with retrainWaits := p.retrainWaits ++ [c] })
      raise d (1152 + c) 4 c

/-- A drained group's channels have been retrained: the group returns with every page version raised, or is disabled. -/
def retrainDone (d : Dev) (g : Nat) (failed : List Nat) : Dev :=
  if !d.pow.retraining.contains g ∨ groupUsed d g ≠ 0 then d
  else
    let d := setPow d (fun p => { p with retraining := p.retraining.filter (· != g) })
    let d := forEach (groupChannels g) d (fun d k => raise (setChannel d 1 k) (1152 + k) 3 k)
    let bad := failed.filter (fun c => c / 4 == g)
    if bad.isEmpty then
      { d with mem := { d.mem with groupVersion := d.mem.groupVersion.modify 0 g (fun v => (v + 1) % 2 ^ 56) } }
    else forEach bad d failChannel

/-- Automatic retrainings that wait begin where the other groups now have room (R452). -/
def channelsEdge (d : Dev) : Dev :=
  forEach d.pow.retrainWaits d (fun d c => match startRetrain d c with
    | some d => setPow d (fun p => { p with retrainWaits := p.retrainWaits.filter (· != c) })
    | none => d)

/-! ## The Flue (R437, R438) -/

def hclkSteps : List Nat := (List.range 11).map (fun k => 600 + 25 * k)
/-- The highest step whose calibrated worst case stays within a power limit; 600 MHz where none does (R437). -/
def floorOf (calib : List Nat) (limit : Nat) : Nat :=
  if calib.isEmpty then 850
  else (((hclkSteps.zip calib).filter (fun x => decide (x.2 ≤ limit))).map (·.1)).foldl max 600

/-- THROTTLE with its report; with a change of clock or admission by the Flue, its ash entry too (R438) (DEDUCED: log entry 79). -/
def throttled (d : Dev) (code : Nat) : Dev :=
  raiseReport d 9 code (BitVec.ofNat 512 (packBits [(0, 32, d.pow.mhz * 1000), (32, 32, d.pow.power)]))
def throttle (d : Dev) (code : Nat) : Dev :=
  throttled (ashLimited d (ashEntry d 0x06 [(128, 8, code), (160, 32, d.pow.mhz), (192, 32, d.pow.power)])) code

def tjThrottle (d : Dev) : Int := toSigned 32 (reg d 0x9006 0x00)

/-- The readings of a cut-off. -/
def takeSensors (d : Dev) (s : Sensors) : Dev :=
  let d := setPow d (fun p => { p with
    temps := s.temps, power := s.power, telemetry := ((p.mhz, s.power) :: p.telemetry).take 64 })
  let d := setReg (setReg d 0x9000 0x01 s.power) 0x9000 0x00 s.voltage
  let d := forEach s.coldPlate.zipIdx d (fun d x => setReg d 0x9005 (x.2 + 1) (ofSigned 32 x.1))
  let d := forEach s.temps.zipIdx d (fun d x => setReg d 0x9004 (x.2 + 1) (ofSigned 32 x.1))
  forEach s.domains.zipIdx d (fun d x => setReg d 0x9003 (x.2 + 1) x.1)

/-- The Flue at an admission cut-off: a step down, or admission held at the floor; else the counts of cool frames. -/
def flueCut (d : Dev) (s : Sensors) : Dev :=
  let d := takeSensors d s
  let limit := reg d 0x9001 0x00
  let tooHot := s.temps.any (fun t => tjThrottle d < t) || limit < s.power
  let cool := s.temps.all (fun t => t ≤ tjThrottle d - 5000)
  if tooHot then
    let d := setPow d (fun p => { p with coolRaise := 0, coolResume := 0 })
    if d.pow.floor < d.pow.mhz then
      throttle (bump (setPow d (fun p => { p with mhzNext := some (max p.floor (p.mhz - 25)) })) 0x9007 0x00 1) 1
    else if d.pow.hold then throttled d 2
    else throttle (setPow d (fun p => { p with holdNext := true })) 2
  else
    setPow d (fun p => { p with
      coolRaise := if cool ∧ s.power * 100 < limit * 95 then p.coolRaise + 1 else 0
      coolResume := if cool ∧ s.power < limit then p.coolResume + 1 else 0 })

/-- A change of clock: for the next edge, or, once the admission cut-off has passed, for the one after it (R30). -/
def setClock (d : Dev) (f : Nat) : Dev :=
  setPow d (fun p => if d.frame.cut then { p with mhzLate := some f } else { p with mhzNext := some f })

/-- Step 2 of R25: the clock of this frame, and what it counts. -/
def clockEdge (d : Dev) : Dev :=
  let d := setPow d (fun p => { p with mhz := p.mhzNext.getD p.mhz, mhzNext := p.mhzLate, mhzLate := none, hold := p.hold || p.holdNext, holdNext := false })
  let d := setReg d 0x9001 0x01 (d.pow.mhz * 1000)
  if d.pow.mhz < 850 then bump d 0x9007 0x01 1 else d

/-- A new power limit sets the floor (R437); a clock below it goes up to it at the next edge, where clocks change (R438). -/
def setFloor (d : Dev) (limit : Nat) : Dev :=
  let f := floorOf d.pow.calib limit
  let d := setReg d 0x9001 0x00 limit
  let d := setPow d (fun p => { p with floor := f })
  let d := if (d.pow.mhzLate.or d.pow.mhzNext).getD d.pow.mhz < f then setClock d f else d
  setReg (setReg (setReg d 0x9001 0x02 (f * 1000)) 0x0100 0x15 (f * 1000)) 0x0101 0x15 (f * 1000)

/-- Partitions without an application sleep from the next edge, and wake at the edge before the first plan that needs them (R436). -/
def sleepEdge (d : Dev) : Dev :=
  forEach (List.range 8) d (fun d p =>
    let used := (appOfPart d p).isSome
    let reset := d.pow.resets.any (fun r => covers r.scope (.partition p) || covers (.partition p) r.scope)
    let l := clusterDomains p
    if used then
      if l.any (fun k => domain d k == 3) then
        raiseEpochs (setDomains d 2 (l.filter (fun k => domain d k == 3))) (scopeEpochs d (.partition p))
      else d
    else if reset then d
    else setDomains d 3 (l.filter (fun k => domain d k == 2)))

/-! ## The service pushbutton (R458) -/

def setService (d : Dev) (s : ServiceState) : Dev :=
  let code := match s with | .none => 0 | .draining => 1 | .snapshot => 2 | .safe => 3
  setReg (setPow d (fun p => { p with svc := s })) 0x900C 0x00 code

def causeService : Nat := 12

/-- Admitted requests, and drawn steps, still to be drained; another device's job shows its step by its schedules (DEDUCED: log entry 191). -/
def draining (d : Dev) : Bool :=
  d.gen.reqs.any (fun q => q.holds && q.rollout.isNone) || d.train.jobs.any (fun j => !j.steps.isEmpty) ||
    d.train.notes.any (fun x => match x.use with | .job _ => true | _ => false)

/-- Applications that the service snapshot does not hold yet: neither ordered, in progress nor complete since the drain began. -/
def serviceApps (d : Dev) : List Nat :=
  ((d.gen.apps.filter (fun x => x.2.isSome)).map (·.1)).filter (fun a =>
    !(snapOf d a).complete.any (fun i => d.pow.svcStart ≤ i.edge))

/-- The other devices of every application here hear of the drain (R458) (DEDUCED: log entry 191). -/
def tellService (d : Dev) (on : Bool) : Dev :=
  forEach (d.gen.apps.filter (fun x => x.2.isSome)) d (fun d x => tellOthers d x.1 (.service x.1 on))

/-- The snapshots of step 3: the manager orders each; a device alone with an application orders its own. -/
def serviceSnaps (d : Dev) : Dev :=
  forEach (serviceApps d) d (fun d a =>
    if (snapOf d a).current.isSome ∨ (snapOf d a).order.isSome then d
    else if 1 < setSizeOf d a then askSnap d a false else orderSnap d a (reachableEdge d) false)

/-- The procedure's steps at an edge. -/
def serviceEdge (d : Dev) : Dev :=
  let press := d.pow.svcPress
  let d := setPow d (fun p => { p with svcPress := false })
  if press then
    match d.pow.svc with
    | .none => tellService (setService (setPow d (fun p => { p with svcStart := d.frame.no })) .draining) true
    | .safe => d
    | _ => tellService (setService d .none) false
  else match d.pow.svc with
    | .draining =>
      if draining d then d
      else serviceSnaps (setService (setPow d (fun p => { p with svcStart := d.frame.no })) .snapshot)
    | .snapshot =>
      if (serviceApps d).isEmpty then
        let d := setService (setPow d (fun p => { p with dev := .serviceSafe })) .safe
        setReg d 0x0005 0x00 2
      else serviceSnaps d
    | _ => d

/-- Requests of some applications end SERVICE_STOPPED at the next edge; drawn steps without their commit are abandoned. -/
def stopWork (d : Dev) (app : Nat → Bool) : Dev :=
  let d := setReqs d (d.gen.reqs.map (fun q => if app q.app && q.holds && q.rollout.isNone then { q with stage := .ending 0x24 } else q))
  forEach (d.train.jobs.filter (fun j => app j.app)) d (fun d j => forEach j.steps d (fun d x => match findJob d j.key with
    | some j => if j.committed = some x.s ∨ x.phase = .empty then d else abandonStep d j x.s causeService d.frame.no
    | none => d))

/-- SERVICE_DRAIN_FRAMES have run out, here, and on every device of the applications here (R458). -/
def drainExpired (d : Dev) : Dev :=
  let d := stopWork d (fun _ => true)
  forEach (d.gen.apps.filter (fun x => x.2.isSome)) d (fun d x => tellOthers d x.1 (.serviceStop x.1))
/-- The drain of another device has run out. -/
def stopServed (d : Dev) (a : Nat) : Dev := stopWork d (· == a)

/-- SVC_ACTIVE, SVC_SAFE and SVC_FAULT (R459): 0 dark, 1 steady, 2 blinking. -/
def svcActive (d : Dev) : Nat :=
  if d.pow.svc = .safe ∨ d.pow.fatal ∨ d.pow.stage = .off ∨ d.pow.stage = .dead then 0
  else if d.pow.stage ≠ .ready ∨ d.pow.svc ≠ .none then 2 else 1
def svcSafe (d : Dev) : Nat := b2n (d.pow.svc == .safe)
def svcFault (d : Dev) : Nat :=
  if d.pow.fatal ∨ d.pow.dev = .identityFailed ∨ d.pow.stage = .recovery ∨ d.pow.stage = .dead ∨ (d.pow.stage = .k0 ∧ !d.pow.sysclk) then 1
  else if d.pow.stage = .ready ∧ ((List.range 32).any (fun c => (spareOf d c).isNone || isDegraded d c) ||
      (List.range 32).any (fun c => channelState d c == 2) || (List.range 16).any (fun p => (port d p).st == .failed)) then 2
  else 0

/-! ## The commands -/

/-- Only a running device does it. -/
def whenReady (d : Dev) (f : Dev → Dev) : Dev := if running d then f d else d

/-- 64 cool frames raise the clock one step (R438) (DEDUCED: log entry 81). -/
def execClockStepUp (op : AtOp) (s : State) : Host.Outcome State Fault Refusal :=
  onDev s (fun d => whenReady (atOff d op.off) (fun d =>
    if 64 ≤ d.pow.coolRaise ∧ d.pow.mhz < 850 ∧ d.pow.mhzNext.isNone ∧ d.pow.mhzLate.isNone then
      throttle (setPow (setClock d (min 850 (d.pow.mhz + 25))) (fun p => { p with coolRaise := 0 })) 1
    else d))

/-- 64 cool frames at the floor resume admission (R438). -/
def execAdmissionResume (op : AtOp) (s : State) : Host.Outcome State Fault Refusal :=
  onDev s (fun d => whenReady (atOff d op.off) (fun d =>
    if 64 ≤ d.pow.coolResume ∧ (d.pow.hold ∨ d.pow.holdNext) then
      throttle (setPow d (fun p => { p with hold := false, holdNext := false, coolResume := 0 })) 2
    else d))

/-- A sensor at TJ_TRIP: FATAL with CODE 1, then every domain but D80, D81 and D84 is removed, and OVERTEMP# is low (R438, R471). -/
def execThermalTrip (op : TempOp) (s : State) : Host.Outcome State Fault Refusal :=
  onDev s (fun d =>
    let d := atOff d op.off
    if d.pow.stage = .off ∨ op.temp < toSigned 32 (reg d 0x9006 0x01) then d
    else
      let d := raise d 0 1 0
      let d := setDomains d 0 (everyDomain.filter (fun k => k != 80 && k != 81 && k != 84))
      setPow d (fun p => { p with stage := .dead, overTemp := true }))

def execHearthFault (op : HearthOp) (s : State) : Host.Outcome State Fault Refusal :=
  if op.hearth < 256 then onBoth s (fun n d => hearthFault n (atOff d op.off) op.hearth) else .fault .noSuchUnit

/-- A spare's proof stroke and reload are done (R449) (DEDUCED: log entry 112). -/
def execSpareReloadDone (op : HearthOp) (s : State) : Host.Outcome State Fault Refusal :=
  onDevIf (op.hearth < 256) s (fun d =>
    let d := atOff d op.off
    if d.pow.spares.any (fun x => x.logical == op.hearth && x.proofPlanned && !x.reloaded) then
      reloadWell (clearHearth (setPow d (fun p => { p with spares := p.spares.map (fun x =>
        if x.logical = op.hearth then { x with reloaded := true } else x) })) op.hearth) op.hearth
    else d)

/-- A regulator fault (R436): the domain is in FAULT, and its units are handled as failed. -/
def domainFault (n : Nv) (d : Dev) (k : Nat) : Nv × Dev :=
  let d := setDomain d 5 k
  if k < 80 then
    let p := k / 10
    let c := 4 * p + k % 10 % 4
    if k % 10 < 8 then
      let d := degrade (failOn (faultReset d (.cluster c)) (onCluster c)) c
      (addDefects n (clusterDefects c), match appOfPart d p with | some a => orderRestore d a | none => d)
    else if k % 10 = 8 then
      let d := failOn (faultReset d (.partition p)) (onScope d (.partition p))
      let d := setPow d (fun x => { x with lostParts := if x.lostParts.contains p then x.lostParts else x.lostParts ++ [p] })
      (n, match appOfPart d p with | some a => orderRestore d a | none => d)
    else (n, forEach (groupChannels p) d failChannel)
  else if 88 ≤ k ∧ k < 96 then
    (n, forEach [2 * (k - 88), 2 * (k - 88) + 1] d (fun d p => leaveUp d p .disabled))
  else (n, d)

def execDomainFault (op : DomainOp) (s : State) : Host.Outcome State Fault Refusal :=
  if op.domain < 96 then onBoth s (fun n d => domainFault n (atOff d op.off) op.domain) else .fault .noSuchUnit

def execChannelErrorThreshold (op : CorrectedOp) (s : State) : Host.Outcome State Fault Refusal :=
  onDevIf (op.channel < 32) s (fun d => channelErrors (atOff d op.off) op.channel op.count)

def execChannelRetrainDone (op : RetrainOp) (s : State) : Host.Outcome State Fault Refusal :=
  onDevIf (op.group < 8) s (fun d => retrainDone (atOff d op.off) op.group op.failed)

/-- A DIMM's supply is lost in service: its channel has failed (R475). -/
def execDimmSupplyLoss (op : ChannelOp) (s : State) : Host.Outcome State Fault Refusal :=
  onDevIf (op.channel < 32) s (fun d =>
    let d := atOff d op.off
    if d.pow.stage = .off then d else raise (failChannel d op.channel) (1152 + op.channel) 2 op.channel)

/-- A unit number that exists (R2, R435). -/
def scopeOk : Scope → Bool
  | .hearth n => n < 288
  | .cluster c => c < 32
  | .partition p => p < 8
  | _ => true

/-- An error in a cluster's or partition's own logic starts a fault reset at once (R453). -/
def execUncorrectableLogicError (op : ScopeOp) (s : State) : Host.Outcome State Fault Refusal :=
  onDevIf (scopeOk op.scope) s (fun d => whenReady (atOff d op.off) (fun d =>
    match op.scope with
    | .cluster c => faultReset (ashFault d 0 1 (256 + c) 0 0) op.scope
    | .partition p => faultReset (ashFault d 0 1 (288 + p) 0 0) op.scope
    | _ => d))

/-- SERVICE_REQ# held 100 ms, sampled only in READY (R458, R471) (DESIGN CHOICE: log entry 10). -/
def execServiceReq (s : State) : Host.Outcome State Fault Refusal :=
  onDev s (fun d => whenReady d (fun d =>
    if d.pow.dev ≠ .ready then d else raise (setPow d (fun p => { p with svcPress := true })) 10 0 0))

def execServiceDrainExpiry (op : AtOp) (s : State) : Host.Outcome State Fault Refusal :=
  onDev s (fun d =>
    let d := atOff d op.off
    if d.pow.svc = .draining ∧ d.pow.svcStart + reg d 0x900C 0x01 ≤ d.frame.no then drainExpired d else d)

/-- PE_PERST# low after READY resets the endpoint alone (R466). -/
def perstAssert (d : Dev) : Dev :=
  let d := setPow d (fun p => { p with perst := true })
  if !running d then d
  else
    let d := forEach (List.range 8) d (fun d k => setTdi d (k + 1) 0)
    let d := forEach (d.epell.sessions.filter (fun s => s.transport == .pcie)) d closeSession
    { d with
      sec := { d.sec with ide := [] }
      epell := { d.epell with openings := d.epell.openings.filter (fun s => s.transport != .pcie) }
      ev := { d.ev with rings := d.ev.rings.map (fun x => if ringLoc x.2 = 2 then (x.1, setField x.2 130 1 0) else x) } }

def execPePerstAssert (s : State) : Host.Outcome State Fault Refusal := onDev s (fun d => perstAssert d)

def execPePerstRelease (s : State) : Host.Outcome State Fault Refusal :=
  onDev s (fun d => setPow d (fun p => { p with perst := false }))

/-- A module inserted reads as chip-to-module; one removed is a cable pulled (R295, R468). -/
def execModulePresentChange (op : ModuleOp) (s : State) : Host.Outcome State Fault Refusal :=
  onDevIf (op.port < 16) s (fun d =>
    let d := setPow (atOff d op.off) (fun p =>
      { p with prs := (List.range 16).filter (fun k => if k = op.port then op.present else k ∈ p.prs) })
    if op.present then setReg d 0x4012 (op.port + 1) 3 else lossOfSignal (setReg d 0x4012 (op.port + 1) 0) op.port)

end Sys2Proof.Machine
end

