-- ==== Sys2Proof/Machine/Kindling.lean ====
section
/-!
DEFINITION. Starts, kindling to READY, loss of input and the last gasp, the ends of resets, and loading a copybook (R3, R84, R150,
R161, R346 to R349, R408, R409, R429, R431, R434, R439 to R447, R451, R454, R466, R470, R471, R474).
-/
namespace Sys2Proof.Machine
open Sys2Proof

/-! ## What a start keeps (R442, R454) -/

/-- Entries that a role writes lie in boot flash and outlive a start; counters and states return to their defaults (log entry 21). -/
def persistRegs (t : Table Nat) : Table Nat :=
  t.filter (fun x => match entryRow (x.1 / 256) (x.1 % 256) with
    | some e => e.acc == .rw || x.1 == entry 0x4001 0x01
    | none => false)

/-- Sources keep their registers alone. -/
def persistSources (t : Table Source) : Table Source :=
  t.foldl (fun (r : Table Source) x => r.set (srcIdle x.1) x.1 { srcIdle x.1 with reg := x.2.next.getD x.2.reg }) []

/-- What DDR holds survives a warm reset: frames with their owners, versions and page tables (R368, R454). -/
def keptMem (d : Dev) : MemS :=
  { MemS.reset with
    ddr := d.mem.ddr, frameOwner := d.mem.frameOwner, granOwner := d.mem.granOwner, pageVersion := d.mem.pageVersion, groupVersion := d.mem.groupVersion,
    bad := d.mem.bad, treeBad := d.mem.treeBad, level1 := d.mem.level1, ptes := d.mem.ptes, dimm := d.mem.dimm, usable := d.mem.usable,
    exports := d.mem.exports, sysApp := d.mem.sysApp, appOf := d.mem.appOf, peat := d.mem.peat }

/-- The keys that a manager holds wrapped under the SWK (R357) are with it again; other devices hold none until they join. -/
def keptKeys (d : Dev) : Table KeySlot := if isManager d ∧ d.sec.swk.isSome then d.keys else []

/-- The device at the beginning of K0 (DEDUCED: log entry 89) (DEDUCED: log entry 91). -/
def startDev (d : Dev) (warm : Bool) : Dev :=
  let e := { Dev.reset with
    ash := { d.ash with perFrame := 0, startCount := d.ash.startCount + 1 }
    epell := { EpellS.reset with locks := d.epell.locks }
    ev := { EvS.reset with sources := persistSources d.ev.sources }
    regs := persistRegs d.regs
    keys := keptKeys d
    out := d.out
    fresh := d.fresh
    nextOp := d.nextOp
    sec := { SecS.reset with swk := if isManager d then d.sec.swk else none, tenants := d.sec.tenants }
    gen := { GenS.reset with tokenShare := d.gen.tokenShare, prefillShare := d.gen.prefillShare, kvQuota := d.gen.kvQuota }
    ink := { InkS.reset with reserve := d.ink.reserve }
    train := { TrainS.reset with share := d.train.share }
    lig := { LigS.reset with
      map := d.lig.map
      ports := d.lig.ports.mapVals portIdle (fun x => { portIdle with saved := x.saved }) } }
  let e := { e with pow := { PowS.reset with
    stage := .k0, warm := warm, sysclk := d.pow.sysclk, inputSwitch := d.pow.inputSwitch, powerGood := true,
    overTemp := d.pow.overTemp, perst := d.pow.perst, prs := d.pow.prs, calib := d.pow.calib } }
  let e := if warm then
      { e with
        mem := keptMem d
        regs := (d.regs.filter (fun x => x.1 / 256 == 0x1101)).foldl (fun (t : Table Nat) x => t.put x.1 x.2) e.regs
        base := d.base
        baseGens := d.baseGens
        ink := { e.ink with recs := d.ink.recs }
        snap := { SnapS.reset with
          store := d.snap.store, records := d.snap.records, completeNos := d.snap.completeNos
          apps := d.snap.apps.mapVals snapIdle (fun x => { snapIdle with complete := x.complete, number := x.number, costs := x.costs }) }
        gen := { e.gen with apps := d.gen.apps }
        lig := { e.lig with ports := d.lig.ports.mapVals portIdle (fun x => { x with queue := [], hello := none }), tables := none } }
    else e
  let v := reg e 0x8100 0x00
  let e := setReg e 0x8100 0x00 (if bit v 8 then v - 256 else v)
  let e := setReg e 0x4001 0x01 ((reg d 0x4001 0x01 + 1) % 256)
  let e := setFloor { e with pow := { e.pow with mhz := 850 } } (reg e 0x9001 0x00)
  let e := setDomains e 2 mgmtDomains
  if warm then setDomains (setDomains e 2 portDomains) 4 ((List.range 8).map (fun p => 10 * p + 9)) else e

/-- The cause of this stop, for the next START entry (R429). A fatal keeps its own cause where a role orders the reset that follows (DEDUCED: log entry 90). -/
def stopFor (d : Dev) (cause : Nat) : Dev :=
  if cause = 2 ∧ d.pow.fatal ∧ d.ash.stopCause ≠ 0 then d else { d with ash := { d.ash with stopCause := cause } }

/-! ## Loss of input (R431, R439, R471, R474) -/

/-- A list cut into pieces of n. -/
def pieces {α : Type} (n : Nat) : Nat → List α → List (List α)
  | 0, _ => []
  | fuel + 1, l => if l.isEmpty then [] else l.take n :: pieces n fuel (l.drop n)

/-- GASP_DATA entries of one kind: up to `n` items of `w` bits an entry, from bit 128 (layout of the model: log entry 20). -/
def gaspEntries (d : Dev) (kind w n : Nat) (l : List Nat) : List (BitVec 512) :=
  (pieces n l.length l).map (fun xs =>
    ashEntry d 0x05 ((8, 8, kind) :: xs.zipIdx.map (fun x => (128 + w * x.2, w, x.1))))

/-- What the last gasp holds (R431): the place in the frame, sources with their levels, open tasks, ports and channels, the last
event records, the Flue's telemetry. -/
def gaspData (d : Dev) : List (BitVec 512) :=
  let srcs := (d.ev.sources.filter (fun x => decide (x.2.st ≠ .inactive))).map (fun x => x.1 + 2 ^ 16 * effLevel d x.2)
  let tasks := (d.frame.tasks.filterMap (fun x => x.2.map (fun t => (x.1, t)))).filter (fun x =>
    decide (x.2.status = .live) && x.2.plan.windows.any (fun w => w.start ≤ d.frame.off && d.frame.off < w.stop))
  gaspEntries d 0 32 12 [d.frame.off] ++ gaspEntries d 1 32 12 srcs ++ gaspEntries d 2 32 12 (tasks.map (·.1)) ++
    gaspEntries d 3 8 48 ((List.range 16).map (fun p => (port d p).st.code)) ++
    gaspEntries d 4 8 48 ((List.range 32).map (channelState d)) ++
    gaspEntries d 5 128 3 (d.ev.delivered.map (·.toNat)) ++
    gaspEntries d 6 64 6 (d.pow.telemetry.map (fun x => x.1 + 2 ^ 32 * x.2))

/-- Loss of input: issue stops, the gasp begins, MAIN takes no more entries, and the domains that the gasp does not need are removed. -/
def loseInput (d : Dev) : Dev :=
  if d.pow.stage = .off ∨ d.pow.stage = .gasp then d
  else
    let g := gaspData d
    let d := setDomains (stopFor d 1) 0 ((List.range 80) ++ [82, 85] ++ portDomains)
    setPow d (fun p => { p with stage := .gasp, powerGood := false, gasp := g })

/-- A loss of input while a gasp is being written: the hold-up store is empty, everything is off, and both gasp regions stand
(R431). -/
def cutGasp (d : Dev) : Dev :=
  setPow (setDomains d 0 everyDomain) (fun p => { p with stage := .off, powerGood := false, gasp := [], overTemp := false })

/-- GASP_HEAD is written into the region that does not hold the newer valid gasp; every other domain is then removed. Where the
input has recovered meanwhile, the device starts again from power-good (R439). -/
def gaspDone (d : Dev) : Dev :=
  if d.pow.stage ≠ .gasp then d
  else
    let g : Gasp := { valid := true, startCount := d.ash.startCount, entries := d.pow.gasp }
    let a := d.ash.gaspA
    let b := d.ash.gaspB
    let d := if a.valid && (!b.valid || b.startCount ≤ a.startCount) then { d with ash := { d.ash with gaspB := g } }
      else { d with ash := { d.ash with gaspA := g } }
    let d := setPow (setDomains d 0 everyDomain) (fun p => { p with stage := .off, gasp := [], overTemp := false })
    if d.pow.powerGood ∧ d.pow.inputSwitch ∧ !d.pow.coldRst then startDev d false else d

/-- COLD_RST# (R471): no gasp is written, and it is ignored during one. -/
def coldReset (d : Dev) : Dev :=
  if d.pow.stage = .gasp then d
  else
    let d := setPow d (fun p => { p with coldRst := true })
    if d.pow.stage = .off then d
    else
      let d := setDomains (stopFor { d with pow := { d.pow with fatal := false } } 2) 0 (everyDomain.filter (fun k => k != 80 && k != 84))
      setPow d (fun p => { p with stage := .off })

/-! ## Defect lists (R446 to R448) -/

/-- Entries of the maker record after its header. -/
def makerDefects (n : Nv) : List (BitVec 64) :=
  (pieces 8 n.defects.length (n.defects.drop 64)).map (fun b => BitVec.ofNat 64 (leNat b))

def defKind (e : BitVec 64) : Nat := field e 0 4
def defCluster (e : BitVec 64) : Nat := 4 * field e 4 3 + field e 7 2
/-- The physical Hearth of an entry. -/
def defHearth (e : BitVec 64) : Nat := 9 * defCluster e + field e 9 4

/-- The link that a die's own number names: to the next die, to the one before, and on odd dies the cross link (R119). -/
def linkOf (die j : Nat) : Option Nat :=
  match j with
  | 0 => some die
  | 1 => some ((die + 7) % 8)
  | 2 => if die % 2 = 1 then some (8 + die / 2) else none
  | _ => none

/-- A failed bank as an entry of R446. -/
def bankEntry (b : Bank) : BitVec 64 :=
  let c := if b.ink then b.unit else b.unit / 9
  BitVec.ofNat 64 (packBits [(0, 4, if b.ink then 2 else 1), (4, 3, c / 4), (7, 2, c % 4), (9, 4, if b.ink then 0 else b.unit % 9), (13, 7, b.bank)])
/-- Failed banks with further ones, each once. -/
def withBanks (old : List (BitVec 64)) (l : List Bank) : List (BitVec 64) := (old ++ l.map bankEntry).eraseDups
/-- A second failed bank of a Well fails its Hearth; a third of an Inkstone degrades its cluster (R444, R447). -/
def bankHearths (l : List (BitVec 64)) : List Nat :=
  (List.range 288).filter (fun h => 2 ≤ (l.filter (fun e => defKind e == 1 && defHearth e == h)).length)
def bankClusters (l : List (BitVec 64)) : List Nat :=
  (List.range 32).filter (fun c => 3 ≤ (l.filter (fun e => defKind e == 2 && defCluster e == c)).length)

/-- Both lists merged: Hearths that are listed, or have a second failed Well bank; clusters with a third failed Inkstone bank;
modules; channels (DEDUCED: log entry 92). -/
def takeDefects (n : Nv) (record : Bool) (d : Dev) : Dev :=
  let l := (if record then makerDefects n else []) ++ n.serviceDefects
  let banks := (l.filter (fun e => defKind e == 1 || defKind e == 2)).eraseDups
  let hs := (List.range 288).filter (fun h => l.any (fun e => defKind e == 0 && defHearth e == h) || (bankHearths banks).contains h)
  let cs := bankClusters banks
  let chans := (l.filter (fun e => defKind e == 4)).map (fun e => 4 * field e 4 3 + field e 20 2)
  let mods := (l.filter (fun e => defKind e == 3)).filterMap (fun e => linkOf (field e 4 3) (field e 20 4 / 4))
  let d := setPow d (fun p => { p with bad := hs, banks := banks })
  let d := forEach cs d degrade
  let d := forEach chans d (fun d c => setChannel d 2 c)
  { d with lig := { d.lig with modules := mods.foldl (fun (t : Table Nat) k => t.set 0 k (min 4 (t.get 0 k + 1))) d.lig.modules } }

/-! ## K0 (R344 to R349) -/

/-- The image that a start runs, and whether it is the candidate (R346, R348). -/
def pickImage (n : Nv) : Nv × Option (FwImage × Bool) :=
  let ok := fun (i : FwImage) => i.verifies && n.counter0 ≤ i.svn
  match n.candidate with
  | some c =>
    if 3 ≤ n.candidateFails then
      ({ n with candidate := none, candidateFails := 0 }, if ok n.active then some (n.active, false) else none)
    else if ok c then ({ n with candidateFails := n.candidateFails + 1 }, some (c, true))
    else (n, if ok n.active then some (n.active, false) else none)
  | none => (n, if ok n.active then some (n.active, false) else none)

/-- Ports at the end of K0: DISABLED where PORT_MODE holds them so, else DOWN; after a warm reset they stay UP (R295, R442). A port with a
pluggable module reads chip-to-module (R468). -/
def wakePorts (d : Dev) : Dev :=
  forEach (List.range 16) (setDomains d 2 portDomains) (fun d p =>
    let d := if p ∈ d.pow.prs then setReg d 0x4012 (p + 1) 3 else d
    if portMode d p = 0 then setPortState d p .disabled
    else if (port d p).st = .disabled then setPortState d p .down
    else setReg d 0x4011 (p + 1) (port d p).st.code)

/-- K0 ends: the checks of R346 in order, the image, the identity, and the first K1 domains. -/
def k0Done (op : K0Op) (n : Nv) (d : Dev) : Nv × Dev :=
  if d.pow.stage ≠ .k0 ∨ !d.pow.sysclk then (n, d)
  else
    let recover := setPow d (fun p => { p with stage := .recovery, kindle := [op.us] })
    if !op.root ∨ !op.list ∨ op.listVersion < n.counter1 then (n, recover)
    else
      let (n, i) := pickImage n
      match i with
      | none => (n, recover)
      | some (img, cand) =>
        let id := op.identity && op.record
        let d := setPow d (fun p => { p with stage := .k1, kindle := [op.us], candidate := cand, svn := img.svn })
        let d := setFloor (setPow d (fun p => { p with calib := op.calib })) (reg d 0x9001 0x00)
        let d := takeDefects n op.record { d with sec := { d.sec with idOk := id } }
        let d := setReg (setReg (setReg d 0x0004 0x00 img.version) 0x8004 0x01 img.svn) 0x8004 0x00 n.counter0
        (n, wakePorts (setDomains d 2 dieDomains))

/-! ## K1 (R6, R119 to R122, R441, R442) -/

def dimmSizes : List Nat := [32, 64, 128, 256]
/-- Rates of the modules that the device supports, in MT/s. -/
def dimmRates : DimmKind → List Nat
  | .mrdimm => [12800, 8800]
  | .rdimm => [6400]
  | .other => []
def fits (c : ChannelTrain) : Bool := c.ecc && dimmSizes.contains c.gib && (dimmRates c.kind).contains c.rate

/-- A channel has trained: from the saved values where DDR_TRAIN_MODE is 0 and its DIMM is the one they were saved with, else by full
training (R121). -/
def channelTrained (n : Nv) (d : Dev) (c : ChannelTrain) : Bool :=
  if reg d 0x1102 0x00 = 0 ∧ n.savedChannels.contains (c.channel, c.spd) then c.saved else c.full

/-- Memory after training: a channel that failed, or is ABSENT, disables its die group; the others run at the rate that all support,
each with the capacity of the smallest DIMM (DEDUCED: log entry 93). -/
def trainMemory (n : Nv) (d : Dev) (l : List ChannelTrain) : Dev :=
  let good := l.filter (fun c => c.channel < 32 && fits c)
  let rate := (good.map (·.rate)).foldl min 12800
  let gib := (good.map (·.gib)).foldl min 256
  let ok := fun (k : Nat) => channelState d k != 2 && good.any (fun c => c.channel == k && channelTrained n d c)
  let off := (List.range 8).filter (fun g => !(groupChannels g).all ok)
  let state := fun (k : Nat) =>
    if ok k then (if off.contains (k / 4) then 4 else 1) else if channelState d k = 2 ∨ l.any (fun c => c.channel == k) then 2 else 0
  let d := { d with mem := { d.mem with
    dimm := l.foldl (fun (t : Table Nat) c => t.set 0 c.channel c.gib) []
    recal := []
    usable := ((List.range 8).filter (fun g => !off.contains g)).foldl (fun (t : Table Nat) g => t.set 0 g (groupFrames gib)) [] } }
  let d := setReg d 0x1100 0x00 rate
  publishUsable ((List.range 32).foldl (fun (x : Dev) k => setChannel x (state k) k) d)

/-- After a warm reset channels leave self-refresh on their saved values; what a failed one held is lost (R442). -/
def wakeMemory (d : Dev) (l : List ChannelTrain) : Dev :=
  let rate := ((l.filter fits).map (·.rate)).foldl min 12800
  let d := setReg d 0x1100 0x00 rate
  let off := (List.range 8).filter (fun g => d.mem.usable.get 0 g = 0)
  let lost := (List.range 32).filter (fun k => !off.contains (k / 4) && !l.any (fun c => c.channel == k && c.saved))
  let d := forEach (List.range 32) d (fun d k => if off.contains (k / 4) then d else setChannel d 1 k)
  publishUsable (forEach lost d (fun d k =>
    let d := failChannel d k
    { d with mem := { d.mem with treeBad := (k / 4 * 524288, (k / 4 + 1) * 524288) :: d.mem.treeBad } }))

def k1Done (op : K1Op) (n : Nv) (d : Dev) : Nv × Dev :=
  if d.pow.stage ≠ .k1 then (n, d)
  else
    let d := if d.pow.warm then wakeMemory d op.channels else trainMemory n d op.channels
    let d := { d with lig := { d.lig with modules := op.links.foldl (fun (t : Table Nat) k => t.set 0 k (min 4 (t.get 0 k + 1))) d.lig.modules } }
    let d := forEach op.links d (fun d k => emit d (.linkReduced k))
    let d := setPow d (fun p => { p with stage := .k2 0, kindle := p.kindle ++ [op.us] })
    let saved := (op.channels.filter (fun c => c.channel < 32 && channelState d c.channel == 1)).map (fun c => (c.channel, c.spd))
    ({ n with savedChannels := saved ++ n.savedChannels.filter (fun x => !saved.any (·.1 == x.1)) }, setDomains d 2 allClusterDomains)

/-! ## K2 and the proof stroke (R443, R444) -/

/-- Wave w takes, on even dies, the Hearths with n mod 8 = w, on odd dies those with n mod 8 = w + 4. -/
def waveHearths (w : Nat) : List Nat :=
  (List.range 288).filter (fun q => q % 36 % 8 == (if q / 36 % 2 = 0 then w else (w + 4) % 8))

def waveDone (op : StageOp) (d : Dev) : Dev :=
  match d.pow.stage with
  | .k2 w =>
    setPow d (fun p => { p with
      up := p.up ++ (waveHearths w).filter (fun q => !p.bad.contains q)
      stage := if w < 7 then .k2 (w + 1) else .proof
      kindle := if w < 7 then p.kindle else p.kindle ++ [op.us] })
  | _ => d

/-- An application without one of its units is restored onto what remains (R449). -/
def restoreOn (d : Dev) (p : Nat) : Dev := match appOfPart d p with | some a => orderRestore d a | none => d

/-- A Scribe that failed makes its partition unavailable (R447). -/
def losePart (d : Dev) (p : Nat) : Dev :=
  restoreOn (setPow d (fun x => { x with lostParts := if x.lostParts.contains p then x.lostParts else x.lostParts ++ [p] })) p

/-- A physical Hearth that fails a proof stroke: a spare in use makes way for the next one. -/
def loseHearth (n : Nv) (d : Dev) (q : Nat) : Nv × Dev :=
  let used := (d.pow.spares.filter (fun s => s.spare == q)).map (·.logical)
  let outs := used ++ ((logicalOf d q).toList.filter (fun h => !d.pow.outHearths.contains h))
  let d := setPow d (fun p => { p with
    bad := if p.bad.contains q then p.bad else p.bad ++ [q]
    spares := p.spares.filter (fun s => s.spare != q)
    outHearths := p.outHearths ++ outs.filter (fun h => !p.outHearths.contains h) })
  (addDefect n (defectEntry 0 (q / 9) (q % 9) 0), forEach outs d useSpare)

/-- A cluster that fails after READY: listed, DEGRADED, its application restored onto what remains (R448, R449). -/
def loseCluster (n : Nv) (d : Dev) (c : Nat) : Nv × Dev :=
  (addDefects n (clusterDefects c), restoreOn (degrade d c) (partOfCluster c))

/-- Banks that fail after READY are listed; spares replace them, or their Hearth or cluster fails (R444, R448). -/
def loseBanks (n : Nv) (d : Dev) (l : List Bank) : Nv × Dev :=
  let old := d.pow.banks
  let banks := withBanks old l
  let d := setPow d (fun p => { p with banks := banks })
  let n := addDefects n (l.map bankEntry)
  let (n, d) := ((bankHearths banks).filter (fun q => !(bankHearths old).contains q)).foldl (fun (x : Nv × Dev) q => loseHearth x.1 x.2 q) (n, d)
  (n, forEach ((bankClusters banks).filter (fun c => !isDegraded d c)) d (fun d c => restoreOn (degrade d c) (partOfCluster c)))

def proofDone (op : ProofStrokeOp) (n : Nv) (d : Dev) : Nv × Dev :=
  if !op.security then
    if d.pow.stage = .proof ∨ running d then (n, setPow (fatal d 1) (fun p => { p with stage := .dead })) else (n, d)
  else if d.pow.stage = .proof then
    let banks := withBanks d.pow.banks op.banks
    let d := setPow d (fun p => { p with
      bad := p.bad ++ (op.hearths ++ bankHearths banks).eraseDups.filter (fun q => !p.bad.contains q), banks := banks
      lostParts := op.scribes, stage := .k3, kindle := p.kindle ++ [op.us] })
    (n, forEach op.channels (forEach (op.clusters ++ bankClusters banks) d degrade) failChannel)
  else if running d then
    let (n, d) := loseBanks n d op.banks
    let (n, d) := op.hearths.foldl (fun (x : Nv × Dev) q => loseHearth x.1 x.2 q) (n, d)
    let (n, d) := op.clusters.foldl (fun (x : Nv × Dev) c => loseCluster x.1 x.2 c) (n, d)
    (addDefects n (op.channels.map channelDefect), forEach op.channels (forEach op.scribes d losePart) failChannel)
  else (n, d)

/-! ## The Capacity Table (R3, R294, R408, R409) -/

def liveClusters (d : Dev) : Nat := ((List.range 32).filter (fun c => !isDegraded d c && !d.pow.lostParts.contains (partOfCluster c))).length
def livePorts (d : Dev) : Nat := ((List.range 16).filter (fun p => portMode d p = 1 && decide ((port d p).st = .up))).length
def liveParts (d : Dev) : Nat := 8 - d.pow.lostParts.length

/-- The device's own table but for TABLE_FRAME: subindex and value. -/
def ownTable (d : Dev) : List (Nat × Nat) :=
  let c := liveClusters d
  let chans := ((List.range 32).filter (fun k => channelState d k = 1 || channelState d k = 3)).length
  let rate := reg d 0x1100 0x00
  [(0x01, 0), (0x02, 1), (0x03, liveParts d), (0x04, 8 * c), (0x05, 4194304), (0x06, 33554432),
   (0x07, 8 * c * 4194304 + c * 33554432), (0x08, rate), (0x09, reg d 0x1103 0x00), (0x0A, chans * rate * 8000000),
   (0x0B, 512 * liveParts d), (0x0C, 262144), (0x0D, 4096), (0x0E, 32768), (0x0F, 2048), (0x10, 0xFFFF), (0x11, 262144),
   (0x12, 100), (0x13, 50000), (0x14, 850000), (0x15, d.pow.floor * 1000), (0x16, livePorts d),
   (0x17, livePorts d * 100000000000), (0x18, 3)]

def capOf (t : List (Nat × Nat)) (sub : Nat) : Nat := ((t.find? (fun x => x.1 == sub)).map (·.2)).getD 0

/-- One field of the system table: sums, least and greatest values, common bits (R294, R409). -/
def combineField (ts : List (List (Nat × Nat))) (bw sub : Nat) : Nat :=
  let l := ts.map (fun t => capOf t sub)
  let least := match l with | [] => 0 | x :: r => r.foldl min x
  if sub = 0x01 then 1
  else if sub = 0x02 then ts.length
  else if [0x03, 0x04, 0x07, 0x09, 0x0A, 0x0B, 0x0C, 0x0E, 0x16].contains sub then l.sum
  else if sub = 0x12 then l.foldl max 0
  else if sub = 0x10 ∨ sub = 0x18 then (match l with | [] => 0 | x :: r => r.foldl (· &&& ·) x)
  else if sub = 0x17 then bw
  else least

/-- Devices that the system table counts: numbered, in the relay tree, in no application (DEDUCED: log entry 97). -/
def countedDevices (d : Dev) : List Nat :=
  let own := ownDevice d
  let free := if d.lig.sets.any (fun s => s.members.any (fun m => m.device == own)) ∨ d.gen.apps.any (fun x => x.2.isSome) then [] else [own]
  free ++ (spareDevices d).filter (· ≠ own)

/-- The least bandwidth of a link group between two counted devices; of this device where there is no such group. -/
def leastBandwidth (d : Dev) (l : List Nat) : Nat :=
  let groups := l.flatMap (fun v => (((netOf d).links v).filter (fun x => l.contains x.1)).map (·.1) |>.eraseDups |>.map (fun u =>
    (((netOf d).links v).filter (fun x => x.1 == u)).length * 100000000000))
  match groups with
  | [] => livePorts d * 100000000000
  | x :: r => r.foldl min x

def putTable (d : Dev) (index : Nat) (t : List (Nat × Nat)) : Dev :=
  setReg (forEach t d (fun d x => setReg d index x.1 x.2)) index 0x19 d.frame.no

/-- The table at 0x0100: the system's on the manager, the device's own elsewhere. -/
def publishSystem (d : Dev) : Dev :=
  if isManager d then
    let l := countedDevices d
    let own := ownDevice d
    let ts := l.map (fun v => if v = own then ownTable d else d.lig.caps.get [] v)
    putTable d 0x0100 ((List.range 24).map (fun k => (k + 1, combineField ts (leastBandwidth d l) (k + 1))))
  else putTable d 0x0100 (ownTable d)

/-- The device's own table, published where it has changed, with the manager told. -/
def publishOwn (d : Dev) : Dev :=
  let t := ownTable d
  if t.all (fun x => reg d 0x0101 x.1 == x.2) then d
  else
    let d := putTable d 0x0101 t
    if isManager d then d else emit (putTable d 0x0100 t) (.capacity t)

/-! ## READY (R440, R348, R429, R447) -/

/-- Logical Hearths of each cluster onto its passing ones in ascending order; a cluster with fewer than eight is DEGRADED. -/
def mapHearths (d : Dev) : Dev :=
  forEach (List.range 32) d (fun d c =>
    let l := passing d c
    if isDegraded d c then d
    else if l.length < 8 then degrade d c
    else setPow d (fun p => { p with map := (l.take 8).zipIdx.foldl (fun (t : Table (Option Nat)) x => t.set none (8 * c + x.2) (some x.1)) p.map }))

/-- The START entry (R428, R429). -/
def startEntry (d : Dev) : BitVec 512 :=
  ashEntry d 0x03 ([(128, 32, d.pow.svn), (160, 32, d.ash.startCount)] ++
    d.pow.kindle.zipIdx.map (fun x => (192 + 32 * x.2, 32, x.1)) ++ [(352, 8, d.ash.stopCause)])

def writeStart (d : Dev) : Dev :=
  let e := startEntry d
  let d := ashMain d e
  { d with ash := { d.ash with start := d.ash.start.set 0 ((d.ash.startCount - 1) % 3072) e, stopCause := 0 } }

/-- The role in effect; the first time as manager, the SWK (R293, R357). -/
def takeRole (d : Dev) : Dev :=
  let d := setReg d 0x4000 0x01 (reg d 0x4000 0x00)
  if isManager d ∧ d.sec.swk.isNone then
    let (k, d) := drawBytes d 32
    { d with sec := { d.sec with swk := some k } }
  else d

/-- A stream record as firmware initialises it from the copybook (R84). -/
def initStream (d : Dev) (b : Copybook) (k : Nat) (r : BitVec 128) : StreamRec :=
  let adapt := if b.decodeStreams.contains k then reg d 0x5014 0x00 else reg d 0x5014 0x01
  let exact := field r 4 2 = 1 ∨ field r 0 4 = 15 ∨ field r 22 1 = 1
  BitVec.ofNat 128 (packBits [(0, 8, field r 0 8), (8, 1, adapt), (9, 1, adapt), (10, 1, field r 10 1),
    (16, 3, if b.namesHr.contains k then field r 16 3 else reg d 0x5010 0x00), (22, 1, b2n (decide exact)),
    (29, 5, if adapt = 1 then reg d 0x5012 0x00 else 0), (49, 7, if b.namesTb.contains k then field r 49 7 else reg d 0x5040 0x02),
    (56, 8, if b.namesFloor.contains k then field r 56 8 else ofSigned 8 (-40))])

/-- What a copybook load gives the Damper: the parameters in force for its partitions (R96), and its streams' records, whose
evidence of before counts no more (R84, R89, R90). A training stream's first steps use the record of the load. -/
def initStreams (d : Dev) (b : Copybook) : Dev :=
  let lim : Limits := {
    hrMax := reg d 0x5010 0x01, bumpSteps := reg d 0x5011 0x00, coldSteps := reg d 0x5012 0x00, coldHr := reg d 0x5012 0x01,
    decay := reg d 0x5013 0x00, seed := reg d 0x5016 0x00 }
  let d := forEach b.parts d (fun d p => { d with num := { d.num with limits := d.num.limits.set limitsIdle p lim } })
  forEach b.streams d (fun d x =>
    let d := raiseEra (setStreamRec d x.1 (initStream d b x.1 x.2)) x.1
    retainRecord { d with num := { d.num with retained := d.num.retained.erase x.1 } } x.1)

/-- Every application that the device still holds is in its memories again: RESIDENT weights, regions, cold streams, entries. -/
def loadApp (d : Dev) (a : Nat) (b : Copybook) : Dev :=
  let d := setLive (initStreams (loadWeights d b) b) a b
  let d := setReg (setReg (setReg d 0x6001 0x00 b.trainChunk) 0x6002 0x00 b.keepLayers) 0x6003 0x00 b.backward
  let d := forEach b.parts d (fun d p => setReg d 0x3101 (p + 1) b.inkBase)
  { d with baseGens := d.baseGens.modify 0 b.baseId (fun g => max g b.baseGen) }

/-- K3 ends. -/
def readyNow (op : StageOp) (n : Nv) (d : Dev) : Nv × Dev :=
  if d.pow.stage ≠ .k3 then (n, d)
  else
    let n := match n.candidate with
      | some c => if d.pow.candidate then { n with active := c, candidate := none, candidateFails := 0 } else n
      | none => n
    let n := { n with counter0 := max n.counter0 d.pow.svn }
    let d := setPow (mapHearths d) (fun p => { p with
      stage := .ready, dev := if d.sec.idOk then .ready else .identityFailed, kindle := p.kindle ++ [op.us] })
    let d := setReg (setReg d 0x0005 0x00 (if d.sec.idOk then 1 else 3)) 0x8004 0x00 n.counter0
    let d := { d with frame := { d.frame with no := 0, off := 0, timer := true } }
    let d := takeRole d
    let d := bookRegions d
    let d := forEach d.gen.apps d (fun d x => match x.2 with | some y => loadApp d x.1 y.book | none => d)
    let d := if d.pow.warm then journalResume d else d
    let d := publishSystem (publishOwn d)
    let d := writeStart d
    (n, if d.sec.idOk then d else raise d 6 0 0)

/-! ## Loading a copybook (R3) -/

/-- A requirement fits the published table: bit masks (FORMATS, BACKWARD_MODES) bit by bit (DEDUCED: log entry 95). -/
def needFits (d : Dev) (x : Nat × Nat) : Bool :=
  let has := reg d 0x0100 x.1
  if x.1 = 0x10 ∨ x.1 = 0x18 then x.2 &&& has == x.2 else if x.1 = 0x12 then decide (has ≤ x.2) else decide (x.2 ≤ has)

/-- The Inkwell band: aligned, within its range, and nothing that the copybook places lies in it (R161). -/
def bandOk (b : Copybook) : Bool :=
  b.inkBase % 65536 == 0 && decide (0x2000000 ≤ b.inkBase) && decide (b.inkBase + 0x7FFFFF ≤ 0x3FFFFFF) && !b.inBand &&
    (b.resident ++ b.control).all (fun x =>
      x.1 || decide (inkBase + x.2.2.2 ≤ b.inkBase) || decide (b.inkBase + 0x800000 ≤ inkBase + x.2.2.1))

/-- The last KEEP_LAYERS layers held have keep areas, each in an Inkstone of the application, clear of the band, of what else the copybook
places and of one another (R233). -/
def keepsOk (b : Copybook) : Bool :=
  (b.layers.drop (b.layers.length - b.keepLayers)).all (fun l => b.keeps.any (·.1 == l)) && decide (b.keepLayers ≤ b.layers.length) &&
  b.keeps.zipIdx.all (fun x =>
    let (_, c, lo, hi) := x.1
    let apart := fun (lo' hi' : Nat) => decide (hi ≤ lo') || decide (hi' ≤ lo)
    b.parts.contains (partOfCluster c) && decide (lo < hi) && decide (hi ≤ inkSize) && apart (b.inkBase - inkBase) (b.inkBase - inkBase + 0x800000) &&
      (b.resident ++ b.control).all (fun y => y.1 || y.2.1 != c || apart y.2.2.1 y.2.2.2) &&
      b.keeps.zipIdx.all (fun y => y.2 == x.2 || y.1.2.1 != c || apart y.1.2.2.1 y.1.2.2.2))

/-- Its requirements fit the published table, and the partitions it takes are free, or its own (DEDUCED: log entry 95). -/
def bookFits (d : Dev) (b : Copybook) (a : Nat) : Bool :=
  b.needs.all (needFits d) && bandOk b && keepsOk b &&
    b.parts.all (fun p => p < 8 && !d.pow.lostParts.contains p &&
      (match appOfPart d p with | some y => y == a | none => true))

/-- A placement alone on this device. -/
def soloPlacement (b : Copybook) : Placement :=
  { stage := 0, len := 1, replica := 0, replicas := 1, prev := 0xFFFFFFFF, next := 0xFFFFFFFF, sysApp := b.sysApp }

/-- A partition takes another application: its lines read as unwritten, its vector registers and scale latches are clear (R109,
R370) (DEDUCED: log entry 139). -/
def contextSwitch (d : Dev) (p : Nat) : Dev :=
  { d with
    hearth := { d.hearth with
      vregs := without d.hearth.vregs (fun k => partOfHearth (k / 32) == p)
      latch := without d.hearth.latch (fun h => partOfHearth h == p) }
    mem := { d.mem with
      well := without d.mem.well (fun k => partOfHearth (k / wellSize) == p)
      ink := without d.mem.ink (fun k => partOfCluster (k / inkSize) == p) } }

def loadBook (d : Dev) (op : LoadOp) : Dev :=
  let b := op.book
  let a := (b.parts.head?).getD 0
  if !running d then d
  else if !bookFits d b a ∨ b.parts.isEmpty ∨ (isManager d ∧ !op.set.isEmpty ∧ !setOk d { sysApp := b.sysApp, members := op.set }) then
    emit d (.loaded a false)
  else
    let set : AppSet := { sysApp := b.sysApp, members := op.set }
    let place := match op.set.find? (fun m => m.device == ownDevice d && m.app == a) with
      | some m => placementOf set m
      | none => soloPlacement b
    let old := partsOf d a
    let d := emptySlots d (old ++ b.parts)
    let d := { d with mem := { d.mem with
      appOf := b.parts.foldl (fun (t : Table Nat) p => t.set 0 p (a + 1)) (old.foldl (fun (t : Table Nat) p => t.set 0 p 0) d.mem.appOf)
      level1 := d.mem.level1.filter (fun x => x.1 / 2 ^ 18 != a)
      ptes := d.mem.ptes.filter (fun x => x.1 / 2 ^ 27 != a)
      pteNext := d.mem.pteNext.filter (fun x => x.1 / 2 ^ 27 != a)
      sysApp := d.mem.sysApp.set 0 a b.sysApp
      peat := d.mem.peat.set (0, 0) a b.peat } }
    let d := stagePages d a b
    let d := { d with gen := { d.gen with kvFree := d.gen.kvFree.filter (fun x => x.1 / 4096 != a) } }
    let d := setApp d a { book := b, place := place, placeNext := none, stopped := false, fence := false }
    let d := forEach b.parts d contextSwitch
    let d := loadApp (bookRegions d) a b
    let d := if isManager d ∧ !op.set.isEmpty then
        sendPlacements { d with lig := { d.lig with sets := d.lig.sets.filter (fun s => s.sysApp != b.sysApp) ++ [set] } } set
      else d
    emit d (.loaded a true)

/-! ## The ends of resets (R451, R454, R455) -/

/-- A drain is complete: the reset proper begins; at device scope the device starts again. -/
def drainDone (d : Dev) (s : Scope) : Dev :=
  if !d.pow.resets.any (fun r => r.scope == s && r.phase == .draining) then d
  else match s with
    | .warm => startDev (if d.ash.stopCause = 5 then d else stopFor d 2) true
    | .cold => startDev (stopFor d 2) false
    | _ => resetProper (setPow d (fun p => { p with resets := p.resets.map (fun r =>
        if r.scope = s ∧ r.phase = .draining then { r with phase := .under } else r) })) s

/-- A unit is out of reset: it returns at the next edge, reloaded, or is handled as failed (R451). -/
def unitBack (n : Nv) (d : Dev) (s : Scope) (passed : Bool) : Nv × Dev :=
  if !d.pow.resets.any (fun r => r.scope == s && r.phase == .under) then (n, d)
  else
    let gone := setPow d (fun p => { p with resets := p.resets.filter (fun r => r.scope != s) })
    let back := setPow d (fun p => { p with resets := p.resets.map (fun r => if r.scope = s then { r with phase := .returning } else r) })
    match s with
    | .hearth q =>
      if d.pow.bad.contains q then (n, gone)
      else if !passed then loseHearth n gone q
      else (n, match logicalOf d q with | some h => reloadWell back h | none => back)
    | .cluster c =>
      if !passed then loseCluster n gone c
      else (n, refillSlots (forEach ((List.range 8).map (8 * c + ·)) back reloadWell) (partOfCluster c) [c])
    | .partition p =>
      if !passed then (n, losePart gone p)
      else (n, refillSlots (forEach ((List.range 32).map (32 * p + ·)) back reloadWell) p ((List.range 4).map (4 * p + ·)))
    | _ => (n, d)

/-- The proof stroke of a returning unit, its failed banks first. -/
def unitStroke (n : Nv) (d : Dev) (op : UnitBackOp) : Nv × Dev :=
  if !d.pow.resets.any (fun r => r.scope == op.scope && r.phase == .under) then (n, d)
  else
    let (n, d) := loseBanks n d op.banks
    unitBack n d op.scope op.passed

/-! ## The commands -/

/-- Input is good: kindling begins, after the gasp that is being written (R439) and after COLD_RST# rises (R471). -/
def execPowerGood (op : PowerGoodOp) (s : State) : Host.Outcome State Fault Refusal :=
  onDev s (fun d =>
    if !d.pow.inputSwitch ∨ (d.pow.stage ≠ .off ∧ d.pow.stage ≠ .gasp) ∨ d.pow.powerGood then d
    else
      let d := setPow d (fun p => { p with sysclk := op.sysclk, powerGood := true, overTemp := false })
      if d.pow.coldRst ∨ d.pow.stage = .gasp then d else startDev d false)

/-- Loss of input begins the gasp, or cuts off the one that is being written (DEDUCED: log entry 88). -/
def execLossOfInput (s : State) : Host.Outcome State Fault Refusal :=
  onDev s (fun d => if d.pow.stage = .gasp then cutGasp d else loseInput (setPow d (fun p => { p with powerGood := false })))

def execGaspComplete (s : State) : Host.Outcome State Fault Refusal := onDev s (fun d => gaspDone d)

def execOvervoltage (s : State) : Host.Outcome State Fault Refusal :=
  onDev s (fun d => loseInput (setPow d (fun p => { p with inputSwitch := false, powerGood := false })))

def execInputSwitchClose (s : State) : Host.Outcome State Fault Refusal :=
  onDev s (fun d => setPow d (fun p => { p with inputSwitch := true }))

def execSysclkPresent (s : State) : Host.Outcome State Fault Refusal :=
  onDev s (fun d => setPow d (fun p => { p with sysclk := true }))

def execK0Complete (op : K0Op) (s : State) : Host.Outcome State Fault Refusal := onBoth s (k0Done op)
def execK1Complete (op : K1Op) (s : State) : Host.Outcome State Fault Refusal := onBoth s (k1Done op)

/-- Channels not trained by 2.20 s are FAILED (R441). -/
def execMemoryTrainingDeadline (op : ChannelsOp) (s : State) : Host.Outcome State Fault Refusal :=
  onDevIf (op.channels.all (· < 32)) s (fun d => if d.pow.stage = .k1 then forEach op.channels d failChannel else d)

def execHearthWave (op : StageOp) (s : State) : Host.Outcome State Fault Refusal := onDev s (waveDone op)

/-- The units of a proof stroke exist. -/
def bankOk (b : Bank) : Bool := if b.ink then b.unit < 32 && b.bank < 66 else b.unit < 288 && b.bank < 33
def proofOpOk (op : ProofStrokeOp) : Bool :=
  op.banks.all bankOk && op.hearths.all (· < 288) && op.clusters.all (· < 32) && op.scribes.all (· < 8) && op.channels.all (· < 32)

def execProofStrokeComplete (op : ProofStrokeOp) (s : State) : Host.Outcome State Fault Refusal :=
  if proofOpOk op then onBoth s (proofDone op) else .fault .noSuchUnit

def execReady (op : StageOp) (s : State) : Host.Outcome State Fault Refusal := onBoth s (readyNow op)

/-- The recovery loader takes an image that passes the checks of R346, and restarts (R349). -/
def execRecoveryImage (op : ImageOp) (s : State) : Host.Outcome State Fault Refusal :=
  onBoth s (fun n d =>
    if d.pow.stage = .recovery ∧ op.image.verifies ∧ n.counter0 ≤ op.image.svn then
      ({ n with candidate := some op.image, candidateFails := 0 }, startDev d false)
    else (n, d))

def execColdRst (s : State) : Host.Outcome State Fault Refusal := onDev s (fun d => coldReset d)

def execColdRstRelease (s : State) : Host.Outcome State Fault Refusal :=
  onDev s (fun d =>
    if !d.pow.coldRst then d
    else
      let d := setPow d (fun p => { p with coldRst := false })
      if d.pow.powerGood ∧ d.pow.inputSwitch ∧ d.pow.stage = .off then startDev d false else d)

def execCopybookLoad (op : LoadOp) (s : State) : Host.Outcome State Fault Refusal := onDev s (fun d => loadBook (atOff d op.off) op)

def execResetDrainComplete (op : ScopeOp) (s : State) : Host.Outcome State Fault Refusal :=
  onDevIf (scopeOk op.scope) s (fun d => drainDone (atOff d op.off) op.scope)

def execUnitResetComplete (op : UnitBackOp) (s : State) : Host.Outcome State Fault Refusal :=
  if scopeOk op.scope && op.banks.all bankOk then onBoth s (fun n d => unitStroke n (atOff d op.off) op) else .fault .noSuchUnit

/-- A firmware watchdog: CP0's resets the device, warm; CPp's resets Pp (R453). -/
def execWatchdogExpiry (op : CpOp) (s : State) : Host.Outcome State Fault Refusal :=
  onDevIf (op.cp < 8) s (fun d => whenReady (atOff d op.off) (fun d =>
    if op.cp = 0 then faultReset (stopFor d 5) .warm else faultReset (ashFault d 0 2 (288 + op.cp) 0 0) (.partition op.cp)))

end Sys2Proof.Machine
end

