-- ==== Sys2Proof/Machine/Dictionary.lean ====
section
/-!
DEFINITION. The Epell object dictionary: what each entry reads, how a write is checked and what it does (R385 to R388, R396 to R400,
R405 to R411, and the entry tables of every chapter).
-/
namespace Sys2Proof.Machine
open Sys2Proof

/-! ## Status codes (R396) -/

def stOk : Nat := 0x00
def stNoEntry : Nat := 0x01
def stNoAccess : Nat := 0x02
def stReadOnly : Nat := 0x03
def stWriteOnly : Nat := 0x04
def stTypeMismatch : Nat := 0x05
def stValueRefused : Nat := 0x06
def stNotManager : Nat := 0x07
def stPolicyRefused : Nat := 0x08
def stCredentialExpired : Nat := 0x09
def stBadOffset : Nat := 0x0A
def stMultiAborted : Nat := 0x0B
def stBusy : Nat := 0x0C
def stPeriodRefused : Nat := 0x20
def stFractionRefused : Nat := 0x21
def stShareRefused : Nat := 0x22
def stReserveRefused : Nat := 0x23
def stModeRefused : Nat := 0x24
def stWiringRefused : Nat := 0x25
def stBaseBusy : Nat := 0x26
def stAbortRefused : Nat := 0x27
def stNotHalted : Nat := 0x28
def stStageAbandoned : Nat := 0x29
def stSessionRefused : Nat := 0x30
def stSessionLocked : Nat := 0x31
def stSessionFull : Nat := 0x32

/-! ## Types (R386) -/

/-- The code of a type, and its length in bytes where it has one. -/
def typeCode : EType → Nat
  | .bool => 1 | .u8 => 2 | .u16 => 3 | .u32 => 4 | .u64 => 5 | .i32 => 6 | .f32 => 7 | .bytes _ => 8 | .str => 9 | .array => 10
def typeLen : EType → Option Nat
  | .bool => some 1 | .u8 => some 1 | .u16 => some 2 | .u32 => some 4 | .u64 => some 8 | .i32 => some 4 | .f32 => some 4
  | .bytes n => some n | .str => none | .array => none

/-- Element length and count of an array that can be written; the records of 0x4003, 0xF001 and 0xF002 are bytes. -/
def arrayShape (index : Nat) : Nat × Nat :=
  match index with
  | 0x3020 => (2, 4096) | 0x3021 => (4, 4096) | 0x3022 => (4, 4096) | 0x3120 => (2, 4096) | 0x6008 => (2, 4096)
  | 0x7001 => (4, 2048) | 0x8203 => (516, 8) | _ => (1, 2 ^ 24)

/-! ## Reading (R400) -/

/-- A value as its length and its bytes. -/
abbrev Value := Nat × (Nat → Byte)

def listValue (l : List Byte) : Value := (l.length, fun i => (l[i]?).getD 0)
/-- An array of `n` elements of `w` bytes each. -/
def arrayValue (n w : Nat) (f : Nat → Nat) : Value := (n * w, fun i => BitVec.ofNat 8 (f (i / w) / 256 ^ (i % w)))

/-- The bytes of a value from an offset on, up to its end. -/
def valueBytes (v : Value) (off n : Nat) : List Byte :=
  (List.range (min n (v.1 - off))).map (fun k => v.2 (off + k))

/-- Spare Hearths left in a cluster (R460). -/
def sparesLeft (d : Dev) (c : Nat) : Nat :=
  if isDegraded d c then 0
  else ((passing d c).filter (fun n => (logicalOf d n).isNone && !d.pow.spares.any (fun s => s.spare == n))).length

/-- An entry of the ash record by its place (R427). -/
def ashPlace (d : Dev) (k : Nat) : BitVec 512 :=
  if k < 1024 then (d.ash.firstFault[k]?).getD 0
  else if k < 3072 then (if d.ash.gaspA.valid then (d.ash.gaspA.entries[k - 1024]?).getD 0 else 0)
  else if k < 5120 then (if d.ash.gaspB.valid then (d.ash.gaspB.entries[k - 3072]?).getD 0 else 0)
  else if k < 8192 then d.ash.start.get 0 (k - 5120)
  else d.ash.main.get 0 (k - 8192)

/-- APP_PLACEMENT (R299, R480). -/
def placementBytes (d : Dev) (a : Nat) : List Byte :=
  match appAt d a with
  | none => leBytes 32 0
  | some x =>
    let p := x.place
    leBytes 2 p.stage ++ leBytes 2 p.len ++ leBytes 2 p.replica ++ leBytes 2 p.replicas ++ leBytes 4 p.prev ++ leBytes 4 p.next ++
      leBytes 4 p.sysApp ++ leBytes 12 0

/-- A manifest record with its header (R310). -/
def manifestBytes (m : Manifest) : List Byte :=
  leBytes 32 (packBits [(0, 32, m.job), (32, 32, m.step), (64, 4, m.level), (68, 1, b2n m.void), (96, 32, m.entries.length),
    (128, 64, m.close)]) ++ m.entries.flatMap (fun e => leBytes 16 e.toNat)

def sessionBytes (s : Session) : List Byte :=
  leBytes 4 s.id ++ leBytes 1 (roleCode s.role) ++ leBytes 1 (transportCode s.transport) ++ leBytes 2 0 ++ leBytes 8 s.openFrame ++
    leBytes 8 s.lastFrame ++ leBytes 8 0

/-- A key slot's status word (R359). -/
def keyWord (d : Dev) (k : Nat) : Nat :=
  let x := keySlot d k
  packBits [(0, 16, if x.st = 0 then 0 else x.tenant), (16, 3, x.st), (64, 32, x.genCur), (96, 32, x.genPrev.getD 0xFFFFFFFF)]

/-- A TENANT_TIMING record (R380; layout of the model: log entry 20): eight 32-bit counts, then the refusals by code 1 to 8. -/
def timingWord (d : Dev) (k : Nat) : Nat :=
  let at_ := fun j => d.sec.timing.get 0 (64 * k + j)
  packBits ((List.range 8).map (fun j => (32 * j, 32, at_ j)) ++ (List.range 8).map (fun j => (256 + 32 * j, 32, at_ (17 + j))))

def tickCode (t : TickState) : Nat :=
  match t with | .locked => 0 | .holdover => 1 | .realigning => 2 | .expired => 3

def srcStateCode (s : SrcState) : Nat :=
  match s with | .inactive => 0 | .pending => 1 | .active => 2 | .activePending => 3

/-- Depth K of an application's reduction tree (R303). -/
def reduceDepth (d : Dev) (a : Nat) : Nat :=
  match appAt d a with | some x => treeDepth x.place.replicas | none => 0

def pendingOf (d : Dev) (key : Nat) : Option PendingWrite := d.waiting.find? (fun w => w.key == key)

/-- Entries of one number that other state holds. -/
def derived (n : Nv) (d : Dev) (index sub : Nat) : Option Nat :=
  match index, sub with
  | 0x0000, 0 => some 0x0100
  | 0x0003, 0 => some Config.stepping
  | 0x1000, 0 => some d.frame.no
  | 0x1002, 0 => some (tickCode d.frame.tick)
  | 0x1010, 1 => some (((pendingOf d (entry 0x1010 0x00)).map (·.edge)).getD 0)
  | 0x1020, 0 => some (if isManager d && reg d 0x1020 0x00 == 1 then 0 else reg d 0x1020 0x00)
  | 0x1022, 0 => some (ofSigned 32 d.frame.error)
  | 0x3009, 0 => some (((d.gen.apps.filterMap (fun x => x.2.map (·.book.kvFormat))).head?).getD 0)
  | 0x3030, 7 => some ((d.gen.reqs.filter (·.admitted)).length)
  | 0x3100, 0 => some 4096
  | 0x3100, 1 => some (4096 - (d.ink.slots.filter (fun x => field x.2 48 2 != 0)).length)
  | 0x7000, 0 => some 2048
  | 0x7010, 0 => some 32768
  | 0x8004, 0 => some n.counter0
  | 0x900C, 0 => some (match d.pow.svc with | .none => 0 | .draining => 1 | .snapshot => 2 | .safe => 3)
  | 0xA002, 0 => some d.ash.next
  | 0xA004, 0 => some d.ash.suppressed
  | 0xA005, 0 => some d.ash.firstFault.length
  | 0xA007, 0 => some (b2n d.ash.gaspA.valid + 2 * b2n d.ash.gaspB.valid +
      4 * b2n (d.ash.gaspB.valid && (!d.ash.gaspA.valid || d.ash.gaspA.startCount < d.ash.gaspB.startCount)))
  | 0xA008, 0 => some d.ash.startCount
  | 0x6042, k => some (reduceDepth d (k - 1))
  | _, _ => none

/-- Entries of many bytes. -/
def composite (n : Nv) (d : Dev) (index sub : Nat) : Option Value :=
  match index, sub with
  | 0x0001, 0 => some (listValue (asciiOf "Gulrara"))
  | 0x0001, _ => some (listValue (asciiOf "Lumlo Axolmey AXM-256"))
  | 0x0002, _ => some (listValue Config.serial)
  | 0x2104, _ => some (listValue (d.base.flatMap (fun x => x.2.journal.flatMap (fun e => leBytes 16 e.word.toNat))))
  | 0x3020, a => some (arrayValue 4096 2 (fun k => d.gen.tokenShare.get 0 (4096 * (a - 1) + k)))
  | 0x3021, a => some (arrayValue 4096 4 (fun k => d.gen.prefillShare.get 0 (4096 * (a - 1) + k)))
  | 0x3022, a => some (arrayValue 4096 4 (fun k => d.gen.kvQuota.get 0 (4096 * (a - 1) + k)))
  | 0x3102, _ => some (arrayValue 4096 16 (fun k => (slot d k).toNat))
  | 0x3120, a => some (arrayValue 4096 2 (fun k => reserveOf d (a - 1) k))
  | 0x4003, 0 => some (listValue (Config.mapBytes (d.lig.map.devices.flatMap (fun x => [x.1, x.2.1, x.2.2]) ++
      d.lig.map.cables.flatMap (fun x => [x.1, x.2.1, x.2.2.1, x.2.2.2]))))
  | 0x4005, 0 => some (arrayValue 262144 1 (fun k => d.lig.routes.get 0xFF k))
  | 0x4005, _ => some (arrayValue (2 ^ 22) 4 (fun k => d.mem.exports.get 0 k))
  | 0x4008, a => some (listValue (placementBytes d (a - 1)))
  | 0x4018, p => some (listValue (leBytes 6 (Config.mac (p - 1))))
  | 0x5020, p => some (arrayValue 1024 16 (fun k => (streamRec d (1024 * (p - 1) + k)).toNat))
  | 0x6008, a => some (arrayValue 4096 2 (fun k => d.train.share.get 0 (4096 * (a - 1) + k)))
  | 0x6041, _ => some (listValue (d.train.late.flatMap (fun b => b.manifests.flatMap manifestBytes)))
  | 0x7001, _ => some (arrayValue 2048 4 (fun k => (source d k).reg.toNat))
  | 0x7002, _ => some (arrayValue 2048 1 (fun k => srcStateCode (source d k).st + 16 * effLevel d (source d k)))
  | 0x7011, _ => some (arrayValue 32768 32 (fun k => (ring d k).toNat))
  | 0x7040, _ => some (arrayValue 4096 64 (fun k => (d.ev.reports.get 0 k).toNat))
  | 0x8001, _ => some (arrayValue 4096 16 (keyWord d))
  | 0x8005, _ => some (4096, fun i => (Config.identityCert[i]?).getD 0)
  | 0x8110, 1 => some (288, fun i => (d.sec.view[i]?).getD 0)
  | 0x8120, _ => some (arrayValue 4096 64 (timingWord d))
  | 0x8200, _ => some (listValue (d.epell.sessions.flatMap sessionBytes))
  | 0x8203, 1 => some (listValue n.operatorKeys)
  | 0x8203, _ => some (listValue n.installerKeys)
  | 0x9008, _ => some (listValue (d.pow.kindle.flatMap (leBytes 4)))
  | 0x900A, 0 => some (arrayValue 32 1 (sparesLeft d))
  | 0x900A, 2 => some (listValue (n.serviceDefects.flatMap (fun e => leBytes 8 e.toNat)))
  | 0xA001, _ => some (arrayValue 524288 64 (fun k => (ashPlace d k).toNat))
  | 0xF000, _ => some (16384, fun i => (n.keyList[i]?).getD 0)
  | 0xF001, _ => some (listValue n.defects)
  | 0xF002, _ => some (listValue n.cal)
  | _, _ => none

/-- What an entry holds: a composite value, or a number in its type's bytes; nothing of a write-only entry, 0 of a W1C one (R387). -/
def entryValue (n : Nv) (d : Dev) (e : Entry) (sub : Nat) : Value :=
  match e.acc with
  | .wo => (0, fun _ => 0)
  | .w1c => listValue (leBytes 4 0)
  | _ => match composite n d e.index sub with
    | some v => v
    | none => listValue (leBytes ((typeLen e.typ).getD 0) ((derived n d e.index sub).getD (reg d e.index sub)))

/-! ## Access (R387, R388, R393) -/

/-- The checks of access, in the order in which the model makes them (log entry 22); 0: granted. -/
def accessStatus (d : Dev) (s : Session) (e : Entry) (sub : Nat) (write : Bool) : Nat :=
  if !e.roles.contains s.role && !(e.readers.contains s.role && !write) then stNoAccess
  else if write ∧ s.label ∧ !(e.index = 0x8202 ∧ sub = 2) then stCredentialExpired
  else if write ∧ e.acc = .ro then stReadOnly
  else if !write ∧ e.acc = .wo then stWriteOnly
  else if !isManager d ∧ (e.mgr = .managerOnly ∨ (write ∧ e.mgr = .roOnWorker)) then stNotManager
  else if !write ∧ e.view ≠ 0 ∧ !bit (reg d 0x8100 0x00) e.view then stPolicyRefused
  else stOk

def isNanBits (v : Nat) : Bool := v / 2 ^ 23 % 256 = 255 && v % 2 ^ 23 != 0

/-- A number lies in the range that the entry's row states. -/
def inRange (e : Entry) (v : Nat) : Bool :=
  match e.range with
  | none => true
  | some (lo, hi) => match e.typ with
    | .i32 => decide ((lo : Int) ≤ toSigned 32 v ∧ toSigned 32 v ≤ (hi : Int))
    | _ => decide (lo ≤ v ∧ v ≤ hi)

/-- TYPE, OFFSET and the stated range of a written value (R386, R395, R396). -/
def valueStatus (e : Entry) (i : Item) : Nat :=
  if i.typ ≠ typeCode e.typ then stTypeMismatch
  else match e.typ with
    | .array =>
      let (w, n) := arrayShape e.index
      if i.data.isEmpty ∨ i.data.length % w ≠ 0 then stTypeMismatch
      else if i.offset % w ≠ 0 ∨ w * n < i.offset + i.data.length then stBadOffset
      else stOk
    | .str => if 256 < i.data.length then stTypeMismatch else if i.offset ≠ 0 then stBadOffset else stOk
    | t =>
      let v := leNat i.data
      if (typeLen t).any (· ≠ i.data.length) then stTypeMismatch
      else if i.offset ≠ 0 then stBadOffset
      else if t = .bool ∧ 1 < v then stTypeMismatch
      else if t = .f32 ∧ isNanBits v then stValueRefused
      else if !inRange e v then stValueRefused
      else stOk

/-! ## Whether admitted work fits (R22, R29, R172, R194, R224, R377) -/

/-- The proposal that a request's items make: slice lengths in hclk at the floor clock, and the shares. -/
structure Proposal where
  hclk : Nat
  decode : Nat
  training : Nat
  housekeeping : Nat
  tokens : Nat → Nat → Nat
  prefill : Nat → Nat → Nat
  quota : Nat → Nat → Nat
  training_ : Nat → Nat → Nat
  fills : Nat
  slips : Nat
  reserve : Nat

/-- The latest accepted value of an entry: pending, or in force (R397). -/
def latest (d : Dev) (index sub : Nat) : Nat :=
  match pendingOf d (entry index sub) with | some w => w.value | none => reg d index sub

/-- The value that the items together would give a scalar entry (R398). -/
def proposed (d : Dev) (items : List Item) (index sub : Nat) : Nat :=
  match items.reverse.find? (fun i => i.index == index && i.sub == sub) with
  | some i => leNat i.data
  | none => latest d index sub

/-- Element k of an array as the items would leave it. -/
def proposedElem (items : List Item) (index sub w k now : Nat) : Nat :=
  match items.reverse.find? (fun i => i.index == index && i.sub == sub && i.offset ≤ w * k && w * k < i.offset + i.data.length) with
  | some i => leNat ((i.data.drop (w * k - i.offset)).take w)
  | none => now

/-- What the items propose, at the floor clock that their POWER_LIMIT gives. -/
def propose (d : Dev) (items : List Item) : Proposal :=
  let floor := floorOf d.pow.calib (proposed d items 0x9001 0x00)
  let hclk := floor * proposed d items 0x1010 0x00
  let f := fun k => sliceLen hclk (proposed d items 0x1011 k)
  { hclk := hclk, decode := f 1, training := f 2, housekeeping := f 3,
    tokens := fun a k => proposedElem items 0x3020 (a + 1) 2 k (d.gen.tokenShare.get 0 (4096 * a + k))
    prefill := fun a k => proposedElem items 0x3021 (a + 1) 4 k (d.gen.prefillShare.get 0 (4096 * a + k))
    quota := fun a k => proposedElem items 0x3022 (a + 1) 4 k (d.gen.kvQuota.get 0 (4096 * a + k))
    training_ := fun a k => proposedElem items 0x6008 (a + 1) 2 k (d.train.share.get 0 (4096 * a + k))
    fills := proposed d items 0x3103 0x00, slips := proposed d items 0x3008 0x00
    reserve := proposed d items 0x1014 0x00 }

def sumSlots (f : Nat → Nat) : Nat := ((List.range 4096).map f).sum

/-- hclk that an application's tasks may take in a frame: the copybook's share of its slices after the edge window. -/
def roomFor (p : Proposal) (share : Nat) : Nat := (p.decode + p.training + p.housekeeping - 1700) * share / 1000

/-- Engines that a copybook's tasks use. -/
def bookEngines (b : Copybook) : List Nat := (b.prices.map (·.eng)).eraseDups
/-- The most that a function of an engine gives over a copybook's engines. -/
def bookMost (b : Copybook) (f : Nat → Nat) : Nat := ((bookEngines b).map f).foldl max 0

/-- hclk that the largest load of a frame takes on an engine (R194): TOKEN_SHARE and SLIP_SLOTS rows, PREFILL_SHARE prompt rows, and
floor(KV_QUOTA / L) blocks, each read once; raised by the reserve (DEDUCED: log entry 100). -/
def genHclk (p : Proposal) (a l : Nat) (b : Copybook) (e : Nat) : Nat :=
  let rows := sumSlots (p.tokens a) + p.slips + sumSlots (p.prefill a)
  let blocks := (sumSlots (fun t => p.quota a t / max 1 l) + b.layers.length - 1) / max 1 b.layers.length
  withReserve p.reserve (((b.prices.filter (·.eng == e)).map (fun x =>
    (rows + 127) / 128 * x.pass + rows * (x.row + x.move) + blocks * x.attn)).sum)
/-- hclk that TRAIN_SHARE's places take on an engine (R224). -/
def trainHclk (p : Proposal) (a : Nat) (b : Copybook) (e : Nat) : Nat :=
  withReserve p.reserve (sumSlots (p.training_ a) * ((b.prices.filter (·.eng == e)).map (·.place)).sum)

def genNeed (p : Proposal) (a : Nat) (x : App) : Nat := bookMost x.book (genHclk p a x.place.len x.book)
def trainNeed (p : Proposal) (a : Nat) (x : App) : Nat := bookMost x.book (trainHclk p a x.book)
def genFits (p : Proposal) (a : Nat) (x : App) : Bool := decide (genNeed p a x ≤ roomFor p x.book.budgetGen)
def trainFits (p : Proposal) (a : Nat) (x : App) : Bool := decide (trainNeed p a x ≤ roomFor p x.book.budgetTrain)
def fillsFit (p : Proposal) : Bool := decide (256 * p.fills ≤ p.housekeeping)

def liveApps (d : Dev) : List (Nat × App) := d.gen.apps.filterMap (fun x => x.2.map (fun y => (x.1, y)))
def liveBooks (d : Dev) : List (Nat × Copybook) := (liveApps d).map (fun x => (x.1, x.2.book))

/-- What this device's admitted work needs, which it tells the manager: hclk a frame, and its share of the slices. -/
def ownLoad (d : Dev) : List (Nat × Nat) :=
  let p := propose d []
  (liveApps d).flatMap (fun x => [(genNeed p x.1 x.2, x.2.book.budgetGen), (trainNeed p x.1 x.2, x.2.book.budgetTrain)])
def publishLoad (d : Dev) : Dev :=
  let l := ownLoad d
  if d.lig.loads.get [] (ownDevice d) = l then d
  else
    let d := { d with lig := { d.lig with loads := d.lig.loads.set [] (ownDevice d) l } }
    if isManager d || ownDevice d == 0xFFFFFFFF then d else emit d (.load l)

/-- The admitted work of this device, and of every device that has told of its own, fits (R20, R22). -/
def workFits (d : Dev) (p : Proposal) : Bool :=
  let others := (d.lig.loads.filter (fun x => x.1 != ownDevice d)).flatMap (·.2)
  (liveApps d).all (fun x => genFits p x.1 x.2 && trainFits p x.1 x.2) && others.all (fun x => decide (x.1 ≤ roomFor p x.2)) &&
    (((liveBooks d).isEmpty && others.isEmpty) || fillsFit p)

def sliceMinima (p : Proposal) : Bool :=
  decide (1700 ≤ p.housekeeping) && decide (p.decode + p.training + p.housekeeping + 3400 ≤ p.hclk)

/-- The reserves of an application stay within its slots (R168). -/
def reservesFit (d : Dev) (items : List Item) (a : Nat) : Bool :=
  decide (sumSlots (fun t => max (proposedElem items 0x3120 (a + 1) 2 t (reserveOf d a t)) (heldSlots d a t)) ≤ (appSlots d a).length)

/-! ## Refusals that an entry's own rule names (R396) -/

def appOfOp (d : Dev) (opId : Nat) : Option Nat := (d.base.find? (fun x => x.2.opId == opId && x.2.phase != 0)).map (·.1)

/-- The cut-off of frame S − 1 has not passed (R331). -/
def abortable (d : Dev) (a : Nat) : Bool :=
  let b := baseOf d a
  1 ≤ b.phase && b.phase ≤ 4 &&
    (match b.switchAt with | none => true | some s => d.frame.no + 1 < s || (d.frame.no + 1 == s && !d.frame.cut))

def viewPolicy (v : View) (r : List Byte) : Nat :=
  match v with | .ddr _ _ => 3 | .tile _ _ _ => 4 | .onChip _ _ => if r.head? = some 1 then 4 else 3

/-- The scope of a RESET_ORDER word (R460); none: a value without a scope. Reserved bits are ignored (R11). -/
def resetScope (v : Nat) : Option Scope :=
  let p := v / 8 % 8
  let c := 4 * p + v / 64 % 4
  let h := v / 256 % 16
  if v / 4 % 2 = 1 ∧ v % 4 ≠ 3 then none
  else match v % 4 with
    | 0 => if h ≤ 8 then some (.hearth (9 * c + h)) else none
    | 1 => some (.cluster c)
    | 2 => some (.partition p)
    | _ => some (if v / 4 % 2 = 1 then .cold else .warm)

def haltable (d : Dev) (a : Nat) : Nat :=
  if !bit (reg d 0x8100 0x00) 0 then stPolicyRefused else if (appAt d a).isNone then stValueRefused else stOk

/-- The status that an entry's own rule gives an item of a request (DEDUCED: log entry 103). -/
def ownStatus (n : Nv) (d : Dev) (s : Session) (items : List Item) (i : Item) : Nat :=
  let v := leNat i.data
  let p := propose d items
  let refuse := fun (bad : Bool) (st : Nat) => if bad then st else stOk
  match i.index, i.sub with
  | 0x1010, _ => refuse (!(sliceMinima p && workFits d p)) stPeriodRefused
  | 0x1011, _ =>
    let f := fun k => proposed d items 0x1011 k
    refuse (!(f 1 + f 2 + f 3 + f 4 == 1000 && 10 ≤ f 3 && sliceMinima p && workFits d p)) stFractionRefused
  | 0x2100, 0 =>
    let o := BitVec.ofNat 1024 v
    if !orderOk o ∨ (appAt d (orderApp o)).isNone then stValueRefused else refuse (baseBusy d (orderApp o)) stBaseBusy
  | 0x2100, 1 => refuse (!(appOfOp d v).any (abortable d)) stAbortRefused
  | 0x2100, 2 => refuse (!(appOfOp d v).any (fun a => (baseOf d a).phase == 5)) stValueRefused
  | 0x3004, 2 => refuse (!(List.range 14).any (fun k => v == 2 ^ (k + 3))) stValueRefused
  | 0x3020, a => refuse (!(appAt d (a - 1)).all (genFits p (a - 1))) stShareRefused
  | 0x3021, a => refuse (!(appAt d (a - 1)).all (genFits p (a - 1))) stShareRefused
  | 0x3022, a => refuse (!(appAt d (a - 1)).all (genFits p (a - 1))) stShareRefused
  | 0x6008, a => refuse (!(appAt d (a - 1)).all (trainFits p (a - 1))) stShareRefused
  | 0x3103, _ => refuse (!fillsFit p) stValueRefused
  | 0x3120, a => refuse ((appAt d (a - 1)).isSome && !reservesFit d items (a - 1)) stReserveRefused
  | 0x4003, _ => match i.parsed with
    | .map m => refuse (!mapOk m (ownNumber n m)) stWiringRefused
    | _ => stWiringRefused
  | 0x4010, k => refuse (v == 2 && 2 < k) stModeRefused
  | 0x6030, 1 => refuse (v == 0 || 0x7F800000 ≤ v) stValueRefused
  | 0x7001, _ =>
    let ok := (List.range (i.data.length / 4)).all (fun k =>
      (sourceWrite d (i.offset / 4 + k) (BitVec.ofNat 32 (leNat ((i.data.drop (4 * k)).take 4)))).isSome)
    refuse (!ok) stValueRefused
  | 0x8002, 0 => refuse ((tenantRec d (v % 65536)).isSome) stValueRefused
  | 0x8002, 1 => refuse ((tenantRec d v).isNone) stValueRefused
  | 0x8100, 1 => haltable d v
  | 0x8100, 2 => haltable d (v % 8)
  | 0x8100, 3 => haltable d v
  | 0x8110, 0 => match i.parsed with
    | .view w => match viewResult d w with
      | none => stNotHalted
      | some r => refuse (!bit (reg d 0x8100 0x00) (viewPolicy w r)) stPolicyRefused
    | _ => stValueRefused
  | 0x9001, _ => refuse (floorOf d.pow.calib v < d.pow.floor && !workFits d p) stShareRefused
  | 0x9009, _ => match resetScope v with
    | none => stValueRefused
    | some sc => refuse (sc == .cold && s.role != .installer) stNoAccess
  | 0x900D, 0 => refuse (startRetrain d v).isNone stValueRefused
  | 0xF000, _ => refuse (!(i.verdict.ok && n.counter1 < i.verdict.version)) stValueRefused
  | 0xF001, _ => refuse (!i.verdict.ok) stValueRefused
  | 0xF002, _ => refuse (!i.verdict.ok) stValueRefused
  | 0xF003, _ => refuse (v != n.serialSum) stValueRefused
  | _, _ => stOk
where
  /-- The number that a wiring map gives this device. -/
  ownNumber (n : Nv) (m : WireMap) : Nat := ((m.devices.find? (fun x => x.2.1 == n.identity)).map (·.1)).getD 0xFFFFFFFF

/-- The status of one item, in order: the entry, access, type and range, the entry's own rule. -/
def itemStatus (n : Nv) (d : Dev) (s : Session) (items : List Item) (i : Item) : Nat :=
  match entryRow i.index i.sub with
  | none => stNoEntry
  | some e =>
    let a := accessStatus d s e i.sub true
    if a ≠ stOk then a
    else
      let t := valueStatus e i
      if t ≠ stOk then t else ownStatus n d s items i

/-! ## The edge that a write's rule names (R20, R22, R381, R397, R413, R437) -/

def edgeOf (d : Dev) (i : Item) : Nat :=
  match i.index, i.sub with
  | 0x1010, 0 => d.frame.no + 16
  | 0x1011, _ => d.frame.no + 16
  | 0x6025, 0 => if leNat i.data = 1 then reachableEdge d else 0
  | 0x7001, _ => d.frame.no + 1
  | 0x8100, 0 => d.frame.no + 1
  | 0x8100, 1 => haltEdgeOf d (leNat i.data)
  | 0x8100, _ => d.frame.no + 16
  | 0x9001, 0 => if floorOf d.pow.calib (leNat i.data) < d.pow.floor then d.frame.no + 16 else 0
  | _, _ => 0

/-- A value that waits for its edge; it replaces one that waits already. -/
def defer (d : Dev) (key v edge : Nat) : Dev :=
  { d with waiting := d.waiting.filter (fun w => w.key != key) ++ [{ key := key, value := v, edge := edge }] }

/-- The key under which a source register waits for a later edge than its own. -/
def sourceKey (n : Nat) : Nat := 2 ^ 24 + n
/-- A source register's value for the next edge (R413), and for a later one that a WRITE_MULTI names (R398). -/
def setNext (d : Dev) (n v : Nat) : Dev := setSource d n { source d n with next := some (BitVec.ofNat 32 v) }
def setNextAt (d : Dev) (n v edge : Nat) : Dev := if edge ≤ d.frame.no + 1 then setNext d n v else defer d (sourceKey n) v edge
/-- The DEBUG_POLICY of the next edge (R380), or of a later one. -/
def setPolicy (d : Dev) (v : Nat) : Dev := { d with sec := { d.sec with policyNext := some v } }

/-! ## What a write does -/

/-- The counters that each bit of a W1C entry clears: bit, index, first subindex, how many (DEDUCED: log entry 119). -/
def clearMap (index : Nat) : List (Nat × Nat × Nat × Nat) :=
  let rows := fun (base n : Nat) => (List.range n).map (fun k => (k, base + k, 1, 8))
  let subs := fun (base n : Nat) => (List.range n).map (fun k => (k, base, k, 1))
  match index with
  | 0x104F => rows 0x1040 5 ++ [(8, 0x1048, 1, 3)]
  | 0x204F => rows 0x2040 7
  | 0x205F => rows 0x2050 7
  | 0x211F => subs 0x2110 5
  | 0x303F => (subs 0x3030 11).filter (fun x => x.1 != 7)
  | 0x313F => subs 0x3130 10
  | 0x402F => (List.range 5).map (fun k => (k, 0x4020 + k, 1, 16)) ++ [(5, 0x4025, 0, 3)]
  | 0x504F => rows 0x5030 4 ++ [(4, 0x5041, 1, 8), (5, 0x5042, 1, 8)]
  | 0x601F => subs 0x6010 6
  | 0x604F => subs 0x6048 8
  | 0x605F => subs 0x6050 9
  | 0x700F => subs 0x7004 6
  | 0x816F => subs 0x8160 4 ++ [(4, 0x8160, 0, 1)]
  | 0x822F => subs 0x8220 3
  | 0x900F => [(0, 0x9007, 0, 2), (1, 0x9009, 1, 1), (2, 0x900B, 0, 1)]
  | _ => []

/-- ASH_CLEAR (R433). -/
def ashClear (d : Dev) (v : Nat) : Dev :=
  let d := if bit v 0 then { d with ash := { d.ash with firstFault := [] } } else d
  if bit v 1 then { d with ash := { d.ash with suppressed := 0 } } else d

/-- The elements of an array item: key slot, or element number, and value. -/
def elems (i : Item) (w : Nat) : List (Nat × Nat) :=
  (List.range (i.data.length / w)).map (fun k => (i.offset / w + k, leNat ((i.data.drop (w * k)).take w)))

def setShares (t : Table Nat) (a : Nat) (l : List (Nat × Nat)) : Table Nat :=
  l.foldl (fun (t : Table Nat) x => t.set 0 (4096 * a + x.1) x.2) t

/-- The wiring map is taken: the manager's own number, and new tables (R290, R297) (DESIGN CHOICE: log entry 99). -/
def takeMap (n : Nv) (d : Dev) (m : WireMap) : Dev :=
  let d := setReg { d with lig := { d.lig with map := m } } 0x4003 0x01 1
  match m.devices.find? (fun x => x.2.1 == n.identity) with
  | none => d
  | some (v, _, _) =>
    let d := setReg d 0x4001 0x00 v
    let d := { d with lig := { d.lig with
      joined := d.lig.joined.filter (fun x => x.1 != v && m.devices.any (fun y => y.1 == x.1)) ++ [(v, reg d 0x4001 0x01)] } }
    changeTopology d

/-- A value of variable length with new bytes from an offset on; at offset 0 it is replaced whole (log entry 22). -/
def patchBytes (old : List Byte) (off : Nat) (bs : List Byte) : List Byte :=
  if off = 0 then bs else old.take off ++ bs ++ old.drop (off + bs.length)

/-- A planned retraining of a port waits for the next edge; the others begin at once (R298). -/
def orderRetrain (d : Dev) (p v : Nat) : Dev :=
  if v = 3 then setPort d p { port d p with leaving := true } else retrainPort d p (v == 1)

/-- RESET_ORDER (R453): an order of device scope gives its cause, and a manager names the topology edge at which it takes effect
(DEDUCED: log entry 136). -/
def writeReset (d : Dev) (s : Scope) : Dev :=
  let whole := s == .warm || s == .cold
  let new := !d.pow.resets.any (fun r => covers r.scope s)
  let d := orderReset (if whole then stopFor d 2 else d) s
  if whole && new && isManager d && d.lig.tables.isSome then changeTopology d else d

/-- The manager writes an application's shares to the other devices of its set (R193, R224). -/
def tellShares (d : Dev) (i : Item) (w : Nat) : Dev :=
  if !isManager d then d
  else match d.lig.sets.find? (fun s => s.members.any (fun m => m.device == ownDevice d && m.app + 1 == i.sub)) with
    | none => mgrSend d []
    | some s => mgrSend d ((s.members.filter (fun m => m.device != ownDevice d)).map (fun m =>
        .shares m.device i.index (m.app + 1) (i.offset / w) ((elems i w).map (·.2))))

/-- What an accepted item does on the device; `edge`: the common edge of the request's items, for those that name one (DEDUCED: log entry 102). -/
def applyDev (n : Nv) (d : Dev) (i : Item) (edge : Nat) : Dev :=
  let v := leNat i.data
  let key := entry i.index i.sub
  match i.index, i.sub with
  | 0x1010, 0 => defer d key v edge
  | 0x1011, _ => defer d key v edge
  | 0x2100, 0 => orderBaseNow d (BitVec.ofNat 1024 v)
  | 0x2100, 1 => match appOfOp d v with | some a => abandonAll d a | none => d
  | 0x2100, 2 => match appOfOp d v with
    | some a => tellBase (setBase d a { baseOf d a with phase := 6 }) a (.baseRetire a)
    | none => d
  | 0x3020, a => tellShares { d with gen := { d.gen with tokenShare := setShares d.gen.tokenShare (a - 1) (elems i 2) } } i 2
  | 0x3021, a => tellShares { d with gen := { d.gen with prefillShare := setShares d.gen.prefillShare (a - 1) (elems i 4) } } i 4
  | 0x3022, a => tellShares { d with gen := { d.gen with kvQuota := setShares d.gen.kvQuota (a - 1) (elems i 4) } } i 4
  | 0x3111, _ => orderWithdraw d v
  | 0x3112, _ => withdrawSlotVariants d v
  | 0x3120, a => { d with ink := { d.ink with reserve := setShares d.ink.reserve (a - 1) (elems i 2) } }
  | 0x4000, _ => takeRole (setReg d 0x4000 0x00 v)
  | 0x4003, _ => match i.parsed with | .map m => takeMap n d m | _ => d
  | 0x4010, k => changeMode d (k - 1) v
  | 0x4015, k => orderRetrain d (k - 1) v
  | 0x5018, _ => damperReset d v
  | 0x6008, a => tellShares { d with train := { d.train with share := setShares d.train.share (a - 1) (elems i 2) } } i 2
  | 0x6025, 0 => if v = 1 then forEach (liveBooks d) d (fun d x => orderSnap d x.1 edge false) else d
  | 0x6025, 1 => if v = 1 then forEach (liveBooks d) d (fun d x => orderRestore d x.1) else d
  | 0x7001, _ => forEach (elems i 4) d (fun d x => match sourceWrite d x.1 (BitVec.ofNat 32 x.2) with
    | some r => setNextAt d x.1 r.toNat edge
    | none => d)
  | 0x8002, 0 => putTenant d { id := v % 65536, code := v / 65536, keyed := false, revoked := false }
  | 0x8002, 1 => revokeTenant d v
  | 0x8100, 0 => if edge ≤ d.frame.no + 1 then setPolicy d v else defer d key v edge
  | 0x8100, 1 => orderHalt d v edge
  | 0x8100, 2 => orderRun d (v % 8) (some (v / 8)) edge
  | 0x8100, 3 => orderRun d v none edge
  | 0x8110, 0 => match i.parsed with
    | .view w => { d with sec := { d.sec with view := (viewResult d w).getD [] } }
    | _ => d
  | 0x9001, 0 => if edge = 0 then setFloor d v else defer d key v edge
  | 0x9009, 0 => match resetScope v with | some s => writeReset d s | none => d
  | 0x900D, 0 => (startRetrain d v).getD d
  | 0xA006, _ => ashClear d v
  | 0x8202, _ => d
  | 0x8203, _ => d
  | 0x8205, _ => d
  | 0xF000, _ => d
  | 0xF001, _ => d
  | 0xF002, _ => d
  | 0xF003, _ => d
  | 0xF004, _ => d
  | _, _ => match (entryRow i.index i.sub).map (fun e => e.acc) with
    | some Access.w1c => clearCounters d v (clearMap i.index)
    | some Access.rw => setReg d i.index i.sub v
    | _ => d

/-- What it does to what outlives a start, credentials and signed records (R393, R411). -/
def applyNv (n : Nv) (d : Dev) (i : Item) : Nv × Dev :=
  let v := leNat i.data
  match i.index, i.sub with
  | 0x8202, 1 => ({ n with operatorPw := some i.data }, d)
  | 0x8202, _ => ({ n with installerPw := i.data, installerLabel := false }, d)
  | 0x8203, 1 => ({ n with operatorKeys := patchBytes n.operatorKeys i.offset i.data }, d)
  | 0x8203, _ => ({ n with installerKeys := patchBytes n.installerKeys i.offset i.data }, d)
  | 0xF000, _ => ({ n with keyList := i.data, counter1 := max n.counter1 i.verdict.version }, d)
  | 0xF001, _ => ({ n with defects := i.data, serviceDefects := [] }, d)
  | 0xF002, _ => ({ n with cal := i.data }, d)
  | 0xF003, _ => makerUnlock n d
  | 0xF004, _ => if v = 1 then ({ n with installerLabel := true, installerKeys := [] }, d) else (n, d)
  | _, _ => (n, d)

/-- An accepted item takes effect. -/
def applyItem (n : Nv) (d : Dev) (i : Item) (edge : Nat) : Nv × Dev :=
  let d := applyDev n d i edge
  applyNv n d i

/-- A waiting value in force: the floor follows a power limit; a policy and a source register go through the steps of this same edge
that bring their next values. -/
def takeWaiting (d : Dev) (w : PendingWrite) : Dev :=
  if w.key = entry 0x9001 0x00 then setFloor d w.value
  else if w.key = entry 0x8100 0x00 then setPolicy d w.value
  else if sourceKey 0 ≤ w.key then setNext d (w.key - sourceKey 0) w.value
  else setReg d (w.key / 256) (w.key % 256) w.value

/-- Writes whose edge has come are in force (R397): step 2 of R25. -/
def waitingEdge (d : Dev) : Dev :=
  let due := d.waiting.filter (fun w => w.edge ≤ d.frame.no)
  let d := { d with waiting := d.waiting.filter (fun w => !decide (w.edge ≤ d.frame.no)) }
  forEach due d takeWaiting

end Sys2Proof.Machine
end

