-- ==== Sys2Proof/Machine/Sessions.lean ====
section
/-!
DEFINITION. Sessions, their records and requests, and the transports (R389 to R405, R410).
-/
namespace Sys2Proof.Machine
open Sys2Proof

/-! ## Transports (R401, R402) -/

/-- Firmware serves the dictionary: from the end of K0 on. -/
def dictUp (d : Dev) : Bool :=
  match d.pow.stage with | .k1 => true | .k2 _ => true | .proof => true | .k3 => true | .ready => true | _ => false

def transportOn (d : Dev) : Transport → Bool
  | .segA => reg d 0x8210 0x01 = 1
  | .segB => reg d 0x8210 0x02 = 1
  | .ligature => true
  | .pcie => reg d 0x8214 0x00 = 1 && !d.pow.perst

/-- Sessions and openings on a disabled transport are dropped (R402). -/
def sweepSessions (d : Dev) : Dev :=
  let d := { d with epell := { d.epell with openings := d.epell.openings.filter (fun o => transportOn d o.transport) } }
  forEach (d.epell.sessions.filter (fun s => !transportOn d s.transport)) d closeSession

/-- A record that cannot be accepted is dropped, and counted (R394). -/
def dropRecord (d : Dev) : Dev := bump d 0x8220 0x02 1

/-! ## Opening (R389 to R393) -/

def lockIdle : AuthLock := { failures := 0, until_ := none, doublings := 0, ended := false }
def lockOf (d : Dev) (r : Role) : AuthLock := d.epell.locks.get lockIdle (roleCode r)
def setLock (d : Dev) (r : Role) (l : AuthLock) : Dev :=
  { d with epell := { d.epell with locks := d.epell.locks.set lockIdle (roleCode r) l } }

/-- Password openings of the role are refused now (R392) (DEDUCED: log entry 114). -/
def locked (d : Dev) (r : Role) : Bool := (lockOf d r).until_.any (fun f => d.frame.no < f)

/-- A failed password proof (R392): AUTH_LIMIT of them lock the role; after a lock each further one doubles the span. -/
def passwordFailed (d : Dev) (r : Role) : Dev :=
  let l := lockOf d r
  if l.ended ∨ l.until_.isSome then
    let k := min 16 (l.doublings + 1)
    setLock d r { l with doublings := k, until_ := some (d.frame.no + 2 ^ k * reg d 0x8204 0x01), ended := true }
  else if reg d 0x8204 0x00 ≤ l.failures + 1 then
    setLock d r { l with failures := l.failures + 1, until_ := some (d.frame.no + reg d 0x8204 0x01) }
  else setLock d r { l with failures := l.failures + 1 }

/-- The salt and verifier of a role's password (R390, R393): the installer's, until it is set, is the label's. -/
def credential (n : Nv) (r : Role) : Option (List Byte) :=
  match r with
  | .operator => n.operatorPw
  | .installer => some (if n.installerLabel then Config.labelVerifier else n.installerPw)
  | .maker => none

/-- The public key at an index of a role's ROLE_KEYS (R410). -/
def roleKey (n : Nv) (r : Role) (i : Nat) : Option (List Byte) :=
  let l := match r with | .operator => n.operatorKeys | .installer => n.installerKeys | .maker => []
  if 516 * (i + 1) ≤ l.length then some ((l.drop (516 * i)).take 516) else none

/-- The device accepts a PROOF (R390, R391): the HMAC under V, or a signature over TH under a key of the role's, for the maker under the key
that a certificate of the maker root names. -/
def proofHolds (n : Nv) (o : Opening) (b : ProofBody) : Bool :=
  match b with
  | .password mac => o.password && (credential n o.role).any (fun c => mac == Config.hmac512 (c.drop 32) (asciiOf "EPELL-PW" ++ o.th))
  | .key i signer signed cert => !o.password && signed == asciiOf "EPELL-KEY" ++ o.th &&
      (if o.role = .maker then cert == some signer else roleKey n o.role i == some signer)

/-- OPEN is answered with ACCEPT (R390): nonce Nd, the device's public key, for a password the salt and its iterations, and the signature;
TH and the two keys follow (DEDUCED: log entry 106) (DEDUCED: log entry 189). -/
def openRecord (n : Nv) (d : Dev) (op : OpenOp) : Dev :=
  if !dictUp d ∨ !transportOn d op.transport then d
  else
    let (nd, d) := drawNat d
    let (own, d) := drawNat d
    let body1 := [BitVec.ofNat 8 (roleCode op.role), if op.password then 1 else 2] ++ leBytes 32 op.nonce ++ leBytes 97 op.pub
    let salt := if op.password then ((credential n op.role).getD []).take 32 ++ leBytes 4 100000 else []
    let clear := leBytes 32 nd ++ leBytes 97 own ++ salt
    let body2 := clear ++ Config.identitySign (Config.sha512 (body1 ++ clear))
    let th := Config.sha512 (body1 ++ body2)
    let keys := Config.hmac512 (Config.ecdh own (leBytes 97 op.pub)) (asciiOf "EPELL-SK" ++ th)
    let o : Opening := { transport := op.transport, role := op.role, password := op.password, nonceC := op.nonce, th := th
                         keyIn := keys.take 32, keyOut := keys.drop 32 }
    emit { d with epell := { d.epell with openings := d.epell.openings.filter (fun x => x.nonceC != op.nonce) ++ [o] } }
      (.record op.transport { hdr := recordHeader 2 0 0, key := [], nonce := [], body := body2 })

/-- The outcome of a proof: the refusal's status, or OK. -/
def proofStatus (n : Nv) (d : Dev) (o : Opening) (b : ProofBody) : Nat :=
  if reg d 0x8201 0x00 ≤ d.epell.sessions.length then stSessionFull
  else if o.password ∧ locked d o.role then stSessionLocked
  else if !proofHolds n o b then stSessionRefused
  else stOk

/-- RESULT: the SESSION_ID, or a refusal code with the ID 0, sealed at SEQ 0 (R390) (DEDUCED: log entry 189). -/
def resultOut (o : Opening) (ses st : Nat) : Out :=
  .record o.transport (sealedRec 4 0 0 o.keyOut (leBytes 4 ses ++ leBytes 1 st))

/-- PROOF is answered with RESULT: a session, or a refusal (R391 to R393). -/
def proofRecord (n : Nv) (d : Dev) (op : ProofOp) : Dev :=
  if !dictUp d ∨ !transportOn d op.transport then d
  else match d.epell.openings.find? (fun o => o.transport == op.transport && o.nonceC == op.nonce) with
    | none => dropRecord d
    | some o =>
      if op.key ≠ o.keyIn then dropRecord d
      else
        let d := { d with epell := { d.epell with openings := d.epell.openings.filter (fun x => x != o) } }
        let st := proofStatus n d o op.body
        if st = stOk then
          let id := d.epell.nextId
          let s : Session := { id := id, role := o.role, transport := o.transport
                               label := decide (o.role = .installer) && o.password && n.installerLabel
                               openFrame := d.frame.no, lastFrame := d.frame.no, seqIn := 0, seqOut := 0, keyIn := o.keyIn, keyOut := o.keyOut
                               subscribed := false, staged := none, latch := none }
          let d := setLock (bump d 0x8220 0x01 1) o.role lockIdle
          let d := { d with epell := { d.epell with sessions := d.epell.sessions ++ [s], nextId := id + 1 } }
          emit (auditSession d 0x11 o.role o.transport stOk id) (resultOut o id stOk)
        else
          let d := if st = stSessionRefused then
              (let d := bump d 0x8220 0x00 1
               if o.password ∧ o.role ≠ .maker then passwordFailed d o.role else d)
            else d
          emit (auditSession d 0x12 o.role o.transport st 0) (resultOut o 0 st)

/-! ## Requests (R394 to R400, R403) -/

def putSession (d : Dev) (s : Session) : Dev :=
  { d with epell := { d.epell with sessions := d.epell.sessions.map (fun x => if x.id = s.id then s else x) } }

/-- The body of an ANSWER (R395): REQ_TAG, then for each item STATUS, LENGTH, EFFECT_FRAME and the bytes read. -/
def answerBody (tag : Nat) (items : List (Nat × Nat × List Byte)) : List Byte :=
  leBytes 4 tag ++ items.flatMap (fun x => leBytes 4 x.1 ++ leBytes 4 x.2.2.length ++ leBytes 8 x.2.1 ++ x.2.2)

/-- An ANSWER leaves on a session. -/
def answer (d : Dev) (id tag : Nat) (items : List (Nat × Nat × List Byte)) : Dev := sendRecord d id 6 (answerBody tag items)

/-- Every item answers the same status. -/
def answerAll (d : Dev) (id tag : Nat) (items : List Item) (st : Nat) : Dev := answer d id tag (items.map (fun _ => (st, 0, [])))

/-- The value before a write, at the bytes written. -/
def oldBytes (n : Nv) (d : Dev) (i : Item) : List Byte :=
  match entryRow i.index i.sub with
  | none => []
  | some e =>
    let v := entryValue n d e i.sub
    if e.typ = .array then valueBytes v i.offset i.data.length else valueBytes v 0 v.1

def isSecret (i : Item) : Bool := ((entryRow i.index i.sub).map (fun e => e.secret)).getD false

def auditItem (d : Dev) (s : Session) (i : Item) (st : Nat) (old : List Byte) (edge : Nat) : Dev :=
  auditWrite d s st i.index i.sub i.offset i.data.length (isSecret i) old i.data edge

/-- Write items refused together for the request's sake (R399, R403). -/
def refuseWrites (n : Nv) (d : Dev) (s : Session) (tag : Nat) (items : List Item) (st : Nat) : Dev :=
  let olds := items.map (oldBytes n d)
  let d := forEach (items.zip olds) d (fun d x => auditItem d s x.1 st x.2 0)
  answerAll d s.id tag items st

/-- What a write does to sessions once its answer has been sent (R389, R402, R410). -/
def afterAnswer (d : Dev) (s : Session) (i : Item) : Dev :=
  if i.index = 0x8205 then
    let id := leNat i.data
    forEach (d.epell.sessions.filter (fun x => if id = 0 then x.id != s.id else x.id == id)) d closeSession
  else if i.index = 0xF003 then forEach d.epell.sessions d closeSession
  else if i.index = 0x8210 ∨ i.index = 0x8214 then sweepSessions d
  else d

/-- Items written as one (R397, R398): all checks, then all effects at one common edge, then the audit and the answer. -/
def writeItems (n : Nv) (d : Dev) (s : Session) (tag : Nat) (items : List Item) : Nv × Dev :=
  let sts := items.map (itemStatus n d s items)
  let olds := items.map (oldBytes n d)
  if sts.any (· ≠ stOk) then
    let sts := sts.map (fun st => if st = stOk then stMultiAborted else st)
    let d := if (items.zip sts).any (fun x => x.2 = stWiringRefused) then setReg d 0x4003 0x01 2 else d
    let d := forEach ((items.zip olds).zip sts) d (fun d x => auditItem d s x.1.1 x.2 x.1.2 0)
    (n, answer d s.id tag (sts.map (fun st => (st, 0, []))))
  else
    let edge := (items.map (edgeOf d)).foldl max 0
    let edges := items.map (fun i => if edgeOf d i = 0 then 0 else edge)
    let (n, d) := (items.zip edges).foldl (fun (x : Nv × Dev) y => applyItem x.1 x.2 y.1 y.2) (n, d)
    let d := forEach ((items.zip olds).zip edges) d (fun d x => auditItem d s x.1.1 stOk x.1.2 x.2)
    let d := answer d s.id tag (edges.map (fun e => (stOk, e, [])))
    (n, forEach items d (fun d i => afterAnswer d s i))

/-- One item of a READ: its status, and its bytes (R400). -/
def readItem (n : Nv) (d : Dev) (s : Session) (i : Item) : Nat × List Byte × Option (Nat × List Byte) :=
  match entryRow i.index i.sub with
  | none => (stNoEntry, [], s.latch)
  | some e =>
    let a := accessStatus d s e i.sub false
    let key := entry i.index i.sub
    if a ≠ stOk then (a, [], s.latch)
    else if i.typ ≠ typeCode e.typ then (stTypeMismatch, [], s.latch)
    else
      let v := entryValue n d e i.sub
      if i.offset = 0 then
        if v.1 ≤ 2 ^ 20 then
          let all := valueBytes v 0 v.1
          (stOk, all.take i.length, some (key, all))
        else (stOk, valueBytes v 0 i.length, none)
      else match s.latch with
        | some (k, bs) => if k = key then (stOk, (bs.drop i.offset).take i.length, s.latch) else (stOk, valueBytes v i.offset i.length, s.latch)
        | none => (stOk, valueBytes v i.offset i.length, s.latch)

/-- The items of a READ in order. -/
def readItems (n : Nv) (d : Dev) (s : Session) (tag : Nat) (items : List Item) : Dev :=
  let (out, s) := items.foldl (fun (x : List (Nat × Nat × List Byte) × Session) i =>
    let (st, bs, latch) := readItem n d x.2 i
    (x.1 ++ [(st, 0, bs)], { x.2 with latch := latch })) ([], s)
  answer (putSession d s) s.id tag out

/-- A segment of a staged value (R399): out of order, BAD_OFFSET; the last one applies the value as one WRITE. -/
def stageSegment (n : Nv) (d : Dev) (s : Session) (tag : Nat) (i : Item) (last : Bool) : Nv × Dev :=
  let have_ := (s.staged.map (·.2)).getD []
  if i.offset ≠ have_.length then
    (n, if last then refuseWrites n d s tag [i] stBadOffset else answer d s.id tag [(stBadOffset, 0, [])])
  else
    let all := have_ ++ i.data
    if last then
      let s := { s with staged := none }
      writeItems n (putSession d s) s tag [{ i with offset := 0, length := all.length, data := all }]
    else (n, answer (putSession d { s with staged := some (entry i.index i.sub, all) }) s.id tag [(stOk, 0, [])])

/-- What a REQUEST asks for. -/
inductive Ask where
  | read (l : List Item)
  | write (l : List Item)
  | staged (i : Item) (last : Bool)
  | subscribe (start : Bool)
  | close

def Ask.items : Ask → List Item
  | .read l => l | .write l => l | .staged i _ => [i] | _ => []
def Ask.isWrite : Ask → Bool
  | .write _ => true | .staged _ _ => true | _ => false

/-- The request continues the session's staged value. -/
def continuesStage (s : Session) : Ask → Bool
  | .staged i _ => s.staged.all (fun x => x.1 == entry i.index i.sub)
  | _ => s.staged.isNone

/-- A REQUEST is served (DEDUCED: log entry 107). -/
def serveAsk (n : Nv) (d : Dev) (s : Session) (tag : Nat) (a : Ask) : Nv × Dev :=
  match a with
  | .read l => if l.isEmpty ∨ 64 < l.length then (n, answerAll d s.id tag l stValueRefused) else (n, readItems n d s tag l)
  | .write l => if l.isEmpty ∨ 64 < l.length then (n, refuseWrites n d s tag l stValueRefused) else writeItems n d s tag l
  | .staged i last => stageSegment n d s tag i last
  | .subscribe start => (n, answer (putSession d { s with subscribed := start && decide (s.role = .operator) }) s.id tag [])
  | .close => (n, closeSession (answer d s.id tag []) s)

/-- A REQUEST record as it arrives (R394, R399, R402, R403): a session on an enabled transport, a right seal and a rising SEQ; BUSY with
64 unanswered; any other request discards a staged value. -/
def request (n : Nv) (d : Dev) (req : Req) (a : Ask) : Nv × Dev :=
  if !dictUp d then (n, d)
  else match d.epell.sessions.find? (fun s => s.id == req.ses) with
    | none => (n, dropRecord d)
    | some s =>
      if !transportOn d s.transport then (n, closeSession d s)
      else if req.key ≠ s.keyIn ∨ req.seq ≤ s.seqIn then (n, dropRecord d)
      else
        let s := { s with seqIn := req.seq, lastFrame := d.frame.no }
        let d := putSession d s
        if 64 ≤ req.held then
          (n, if a.isWrite then refuseWrites n d s req.tag a.items stBusy else answerAll d s.id req.tag a.items stBusy)
        else if !continuesStage s a then
          let s := { s with staged := none }
          let d := putSession d s
          let d := if a.isWrite then refuseWrites n d s req.tag a.items stStageAbandoned else answerAll d s.id req.tag a.items stStageAbandoned
          (n, match a with | .close => closeSession d s | _ => d)
        else serveAsk n d s req.tag a

/-- A request command. -/
def ask (s : State) (req : Req) (a : Ask) : Host.Outcome State Fault Refusal := onBoth s (fun n d => request n d req a)

/-- The largest record of a transport, and the length of a REQUEST record: its header, the request, its items, the tag (R394, R395, R401). -/
def largestRecord : Transport → Nat
  | .segA => 1232 | .segB => 1232 | .ligature => 4096 | .pcie => 4096
def requestLen (a : Ask) : Nat := 40 + (a.items.map (fun i => 12 + (i.data.length + 3) / 4 * 4)).sum

/-- The record fits the transport of its session: a longer one does not reach the device (DEDUCED: log entry 189). -/
def carried (d : Dev) (req : Req) (a : Ask) : Bool := (sessionOf d req.ses).all (fun s => decide (requestLen a ≤ largestRecord s.transport))

/-- A REQUEST record. -/
def requestRec (n : Nv) (d : Dev) (req : Req) (a : Ask) : Nv × Dev := if carried d req a then request n d req a else (n, d)
def askRec (s : State) (req : Req) (a : Ask) : Host.Outcome State Fault Refusal := onBoth s (fun n d => requestRec n d req a)

/-- The session of a request is on a transport. -/
def onTransport (d : Dev) (t : Transport) (req : Req) : Bool :=
  (d.epell.sessions.find? (fun s => s.id == req.ses)).all (fun s => s.transport == t)

/-- A record that arrives on a transport in one piece (R401); none: the transport is disabled. -/
def serveRecord (n : Nv) (d : Dev) (t : Transport) (r : MailRecord) : Option (Nv × Dev × Bool) :=
  if !transportOn d t then none
  else
    let drop := some (n, dropRecord d, false)
    let serve := fun (req : Req) (a : Ask) =>
      if onTransport d t req then (let (n, d) := requestRec n d req a
                                   some (n, d, true)) else drop
    match r with
    | .opening op => if op.transport = t then some (n, openRecord n d op, true) else drop
    | .proof op => if op.transport = t then some (n, proofRecord n d op, true) else drop
    | .read op => serve op.req (.read op.items)
    | .write op => serve op.req (.write [op.item])
    | .writeMulti op => serve op.req (.write op.items)
    | .writeStaged op => serve op.req (.staged op.item op.last)
    | .subscribe op start => serve op.req (.subscribe start)
    | .close op => serve op.req .close

/-- A record from the mailbox's request window; its answer raises the mailbox vector (R401). -/
def mailRecord (n : Nv) (d : Dev) (r : MailRecord) : Nv × Dev :=
  match serveRecord n d .pcie r with
  | none => (n, d)
  | some (n, d, answered) => (n, if answered then emit d .mailbox else d)

/-! ## The commands -/

def execOpenSession (op : OpenOp) (s : State) : Host.Outcome State Fault Refusal := onDev s (fun d => openRecord s.nv d op)
def execProof (op : ProofOp) (s : State) : Host.Outcome State Fault Refusal := onDev s (fun d => proofRecord s.nv d op)
def execRead (op : ItemsOp) (s : State) : Host.Outcome State Fault Refusal := askRec s op.req (.read op.items)
def execWrite (op : ItemOp) (s : State) : Host.Outcome State Fault Refusal := askRec s op.req (.write [op.item])
def execWriteMulti (op : ItemsOp) (s : State) : Host.Outcome State Fault Refusal := askRec s op.req (.write op.items)
def execWriteStaged (op : StagedOp) (s : State) : Host.Outcome State Fault Refusal := askRec s op.req (.staged op.item op.last)
def execSubscribeStart (op : SesOp) (s : State) : Host.Outcome State Fault Refusal := ask s op.req (.subscribe true)
def execSubscribeStop (op : SesOp) (s : State) : Host.Outcome State Fault Refusal := ask s op.req (.subscribe false)
def execCloseSession (op : SesOp) (s : State) : Host.Outcome State Fault Refusal := ask s op.req .close

/-- A session without a record for SESSION_IDLE frames closes (R389). -/
def execSessionIdleExpiry (op : SessionOp) (s : State) : Host.Outcome State Fault Refusal :=
  onDev s (fun d => match d.epell.sessions.find? (fun x => x.id == op.ses) with
    | some x => if x.lastFrame + reg d 0x8201 0x01 ≤ d.frame.no then closeSession d x else d
    | none => d)

/-- A lock's span ends (R392). -/
def execAuthLockExpiry (op : RoleOp) (s : State) : Host.Outcome State Fault Refusal :=
  onDev s (fun d =>
    let l := lockOf d op.role
    if l.until_.any (fun f => f ≤ d.frame.no) then setLock d op.role { l with until_ := none, ended := true } else d)

def execMailboxDoorbell (op : MailOp) (s : State) : Host.Outcome State Fault Refusal := onBoth s (fun n d => mailRecord n d op.record)

/-! ## Writes of entries with a row of their own -/

/-- The item that writes a number into a whole entry (DESIGN CHOICE: log entry 104). -/
def numItem (index sub v : Nat) : Item :=
  let t := ((entryRow index sub).map (fun e => e.typ)).getD .u32
  let bs := leBytes ((typeLen t).getD 4) v
  { index, sub, typ := typeCode t, offset := 0, length := bs.length, data := bs, verdict := ⟨true, 0⟩, parsed := .raw }

/-- The item that writes elements of an array entry. -/
def elemItem (index sub first w : Nat) (vs : List Nat) : Item :=
  let bs := vs.flatMap (leBytes w)
  { index, sub, typ := 10, offset := w * first, length := bs.length, data := bs, verdict := ⟨true, 0⟩, parsed := .raw }

/-- The item that writes bytes into a whole entry: a value longer than a record comes in segments (R399), all of which the command stands for
(DESIGN CHOICE: log entry 104). -/
def byteItem (index sub : Nat) (bs : List Byte) (v : Verdict) (p : Parsed) : Item :=
  { index, sub, typ := ((entryRow index sub).map (fun e => typeCode e.typ)).getD 0, offset := 0, length := bs.length, data := bs, verdict := v, parsed := p }

/-- A WRITE of one entry. -/
def writeNum (s : State) (req : Req) (index sub v : Nat) : Host.Outcome State Fault Refusal := ask s req (.write [numItem index sub v])
def writeElems (s : State) (req : Req) (index sub first w : Nat) (vs : List Nat) : Host.Outcome State Fault Refusal :=
  ask s req (.write [elemItem index sub first w vs])
def writeBlob (s : State) (req : Req) (index : Nat) (bs : List Byte) (v : Verdict) (p : Parsed) : Host.Outcome State Fault Refusal :=
  ask s req (.write [byteItem index 0 bs v p])

/-- A RESET_ORDER word with its scope set by the command. -/
def resetWord (v scope cold : Nat) : Nat := v / 8 * 8 + 4 * cold + scope

def execFramePeriod (op : EntryWrite) (s : State) : Host.Outcome State Fault Refusal := writeNum s op.req 0x1010 0x00 op.value
def execDecodeFraction (op : EntryWrite) (s : State) : Host.Outcome State Fault Refusal := writeNum s op.req 0x1011 0x01 op.value
def execTrainingFraction (op : EntryWrite) (s : State) : Host.Outcome State Fault Refusal := writeNum s op.req 0x1011 0x02 op.value
def execHousekeepingFraction (op : EntryWrite) (s : State) : Host.Outcome State Fault Refusal := writeNum s op.req 0x1011 0x03 op.value
def execGuardFraction (op : EntryWrite) (s : State) : Host.Outcome State Fault Refusal := writeNum s op.req 0x1011 0x04 op.value
def execCounterClear (op : EntryWrite) (s : State) : Host.Outcome State Fault Refusal := writeNum s op.req 0x104F 0x00 op.value
def execArrayCounterClear (op : EntryWrite) (s : State) : Host.Outcome State Fault Refusal := writeNum s op.req 0x204F 0x00 op.value
def execDamperReset (op : EntryWrite) (s : State) : Host.Outcome State Fault Refusal := writeNum s op.req 0x5018 0x00 op.value
def execNumCounterClear (op : EntryWrite) (s : State) : Host.Outcome State Fault Refusal := writeNum s op.req 0x504F 0x00 op.value
def execXferCounterClear (op : EntryWrite) (s : State) : Host.Outcome State Fault Refusal := writeNum s op.req 0x205F 0x00 op.value
def execWithdrawVariant (op : EntryWrite) (s : State) : Host.Outcome State Fault Refusal := writeNum s op.req 0x3111 0x00 op.value
def execWithdrawTenant (op : EntryWrite) (s : State) : Host.Outcome State Fault Refusal := writeNum s op.req 0x3112 0x00 op.value
def execFillPerFrame (op : EntryWrite) (s : State) : Host.Outcome State Fault Refusal := writeNum s op.req 0x3103 0x00 op.value
def execVariantCounterClear (op : EntryWrite) (s : State) : Host.Outcome State Fault Refusal := writeNum s op.req 0x313F 0x00 op.value
def execGenCounterClear (op : EntryWrite) (s : State) : Host.Outcome State Fault Refusal := writeNum s op.req 0x303F 0x00 op.value
def execTrainCounterClear (op : EntryWrite) (s : State) : Host.Outcome State Fault Refusal := writeNum s op.req 0x601F 0x00 op.value
def execSnapNow (op : EntryWrite) (s : State) : Host.Outcome State Fault Refusal := writeNum s op.req 0x6025 0x00 op.value
def execRestoreNow (op : EntryWrite) (s : State) : Host.Outcome State Fault Refusal := writeNum s op.req 0x6025 0x01 op.value
def execScribeCounterClear (op : EntryWrite) (s : State) : Host.Outcome State Fault Refusal := writeNum s op.req 0x605F 0x00 op.value
def execLateCounterClear (op : EntryWrite) (s : State) : Host.Outcome State Fault Refusal := writeNum s op.req 0x604F 0x00 op.value
def execLigCounterClear (op : EntryWrite) (s : State) : Host.Outcome State Fault Refusal := writeNum s op.req 0x402F 0x00 op.value
def execBaseAbort (op : EntryWrite) (s : State) : Host.Outcome State Fault Refusal := writeNum s op.req 0x2100 0x01 op.value
def execBaseRetire (op : EntryWrite) (s : State) : Host.Outcome State Fault Refusal := writeNum s op.req 0x2100 0x02 op.value
def execBaseCounterClear (op : EntryWrite) (s : State) : Host.Outcome State Fault Refusal := writeNum s op.req 0x211F 0x00 op.value
def execTenantRemove (op : EntryWrite) (s : State) : Host.Outcome State Fault Refusal := writeNum s op.req 0x8002 0x01 op.value
def execDebugPolicy (op : EntryWrite) (s : State) : Host.Outcome State Fault Refusal := writeNum s op.req 0x8100 0x00 op.value
def execDebugHalt (op : EntryWrite) (s : State) : Host.Outcome State Fault Refusal := writeNum s op.req 0x8100 0x01 op.value
def execDebugStep (op : EntryWrite) (s : State) : Host.Outcome State Fault Refusal := writeNum s op.req 0x8100 0x02 op.value
def execDebugResume (op : EntryWrite) (s : State) : Host.Outcome State Fault Refusal := writeNum s op.req 0x8100 0x03 op.value
def execMakerUnlock (op : EntryWrite) (s : State) : Host.Outcome State Fault Refusal := writeNum s op.req 0xF003 0x00 op.value
def execSecCounterClear (op : EntryWrite) (s : State) : Host.Outcome State Fault Refusal := writeNum s op.req 0x816F 0x00 op.value
def execSessionClose (op : EntryWrite) (s : State) : Host.Outcome State Fault Refusal := writeNum s op.req 0x8205 0x00 op.value
def execMailboxEnable (op : EntryWrite) (s : State) : Host.Outcome State Fault Refusal := writeNum s op.req 0x8214 0x00 op.value
def execInstallerReset (op : EntryWrite) (s : State) : Host.Outcome State Fault Refusal := writeNum s op.req 0xF004 0x00 op.value
def execSessionCounterClear (op : EntryWrite) (s : State) : Host.Outcome State Fault Refusal := writeNum s op.req 0x822F 0x00 op.value
def execEventCounterClear (op : EntryWrite) (s : State) : Host.Outcome State Fault Refusal := writeNum s op.req 0x700F 0x00 op.value
def execPowerLimit (op : EntryWrite) (s : State) : Host.Outcome State Fault Refusal := writeNum s op.req 0x9001 0x00 op.value
def execRetrainChannel (op : EntryWrite) (s : State) : Host.Outcome State Fault Refusal := writeNum s op.req 0x900D 0x00 op.value
def execPowerCounterClear (op : EntryWrite) (s : State) : Host.Outcome State Fault Refusal := writeNum s op.req 0x900F 0x00 op.value

/-- ASH_CLEAR bit 0 and bit 1 (R433). -/
def execAshClearFirstFault (op : EntryWrite) (s : State) : Host.Outcome State Fault Refusal :=
  writeNum s op.req 0xA006 0x00 (op.value / 4 * 4 + 1)
def execAshClearSuppressed (op : EntryWrite) (s : State) : Host.Outcome State Fault Refusal :=
  writeNum s op.req 0xA006 0x00 (op.value / 4 * 4 + 2)

/-- RESET_ORDER with each scope (R453, R460). -/
def execResetHearth (op : EntryWrite) (s : State) : Host.Outcome State Fault Refusal :=
  writeNum s op.req 0x9009 0x00 (resetWord op.value 0 0)
def execResetCluster (op : EntryWrite) (s : State) : Host.Outcome State Fault Refusal :=
  writeNum s op.req 0x9009 0x00 (resetWord op.value 1 0)
def execResetPartition (op : EntryWrite) (s : State) : Host.Outcome State Fault Refusal :=
  writeNum s op.req 0x9009 0x00 (resetWord op.value 2 0)
def execResetDeviceWarm (op : EntryWrite) (s : State) : Host.Outcome State Fault Refusal :=
  writeNum s op.req 0x9009 0x00 (resetWord op.value 3 0)
def execResetDeviceCold (op : EntryWrite) (s : State) : Host.Outcome State Fault Refusal :=
  writeNum s op.req 0x9009 0x00 (resetWord op.value 3 1)

/-- Shares and reserves (R168, R193, R194, R224). -/
def execSlotReserve (op : ShareWrite) (s : State) : Host.Outcome State Fault Refusal := writeElems s op.req 0x3120 op.sub op.first 2 op.values
def execTokenShare (op : ShareWrite) (s : State) : Host.Outcome State Fault Refusal := writeElems s op.req 0x3020 op.sub op.first 2 op.values
def execPrefillShare (op : ShareWrite) (s : State) : Host.Outcome State Fault Refusal := writeElems s op.req 0x3021 op.sub op.first 4 op.values
def execKvQuota (op : ShareWrite) (s : State) : Host.Outcome State Fault Refusal := writeElems s op.req 0x3022 op.sub op.first 4 op.values
def execTrainShare (op : ShareWrite) (s : State) : Host.Outcome State Fault Refusal := writeElems s op.req 0x6008 op.sub op.first 2 op.values

/-- PORT_RETRAIN with each value, PORT_MODE and T1S_ENABLE (R271, R296, R298, R402). -/
def execPortRetrainFast (op : SubWrite) (s : State) : Host.Outcome State Fault Refusal := writeNum s op.req 0x4015 op.sub 1
def execPortRetrainFull (op : SubWrite) (s : State) : Host.Outcome State Fault Refusal := writeNum s op.req 0x4015 op.sub 2
def execPortRetrainPlanned (op : SubWrite) (s : State) : Host.Outcome State Fault Refusal := writeNum s op.req 0x4015 op.sub 3
def execPortMode (op : SubWrite) (s : State) : Host.Outcome State Fault Refusal := writeNum s op.req 0x4010 op.sub op.value
def execT1sEnable (op : SubWrite) (s : State) : Host.Outcome State Fault Refusal := writeNum s op.req 0x8210 op.sub op.value

/-- SOURCE_REG: one register (R413). -/
def execSourceReg (op : ArrayWrite) (s : State) : Host.Outcome State Fault Refusal := writeElems s op.req 0x7001 op.sub op.elem 4 [op.value]

/-- Values of many bytes (R290, R321, R355, R382, R411). -/
def execWiringMap (op : WiringOp) (s : State) : Host.Outcome State Fault Refusal := writeBlob s op.req 0x4003 op.data ⟨true, 0⟩ (.map op.map)
def execBaseOrder (op : BaseOrderOp) (s : State) : Host.Outcome State Fault Refusal :=
  writeBlob s op.req 0x2100 (leBytes 128 op.order.toNat) ⟨true, 0⟩ .raw
def execTenantAdd (op : TenantOp) (s : State) : Host.Outcome State Fault Refusal :=
  writeBlob s op.req 0x8002 (leBytes 2 op.tenant ++ leBytes 4 op.code) ⟨true, 0⟩ .raw
def execViewRequest (op : ViewOp) (s : State) : Host.Outcome State Fault Refusal := writeBlob s op.req 0x8110 op.data ⟨true, 0⟩ (.view op.view)
def execAcceptKeys (op : BlobWrite) (s : State) : Host.Outcome State Fault Refusal := writeBlob s op.req 0xF000 op.data op.verdict .raw
def execDefectRecord (op : BlobWrite) (s : State) : Host.Outcome State Fault Refusal := writeBlob s op.req 0xF001 op.data op.verdict .raw
def execFactoryCal (op : BlobWrite) (s : State) : Host.Outcome State Fault Refusal := writeBlob s op.req 0xF002 op.data op.verdict .raw

end Sys2Proof.Machine
end

