-- ==== Sys2Proof/Machine/Management.lean ====
section
/-!
DEFINITION. MGMT messages: what the manager tells the other devices, what they answer, and dictionary records over Ligature (R255,
R278, R289 to R294, R358, R401, R429, R480).
-/
namespace Sys2Proof.Machine
open Sys2Proof

/-! ## Joining, placements and system state -/

/-- The manager's tables reach a device (R290, R297): it has its number, and they wait for their edge. With its first number it sends
the manager its START entry (R429). -/
def takeTables (d : Dev) (t : Tables) : Dev :=
  let joins := ownDevice d == 0xFFFFFFFF
  let d := setReg (setReg d 0x4001 0x00 t.number) 0x4006 0x00 t.edge
  let d := { d with lig := { d.lig with tablesNext := some t } }
  if joins then emit d (.ashMsg (startEntry d)) else d

/-- A change of system state reaches the standby, which keeps it and acknowledges it (R292). -/
def takeStandby (d : Dev) (map : WireMap) (joined : List (Nat × Nat)) (sets : List AppSet) : Dev :=
  if isManager d then d
  else emit { d with lig := { d.lig with map := map, joined := joined, sets := sets } } .standbyAck

def takeSysState (d : Dev) (x : SysState) : Dev :=
  if isManager d then d else emit { d with lig := { d.lig with sys := some x } } .standbyAck

/-- The standby's acknowledgement lets the manager act on the oldest change that waits; a topology is computed once none waits after it
(R292). -/
def standbyAcked (d : Dev) (device : Nat) : Dev :=
  if !isManager d ∨ device ≠ reg d 0x4002 0x01 then d
  else match d.held with
    | [] => d
    | (topo, l) :: r =>
      let d := forEach l { d with held := r } emit
      if topo && !r.any (·.1) then sendTopology d else d

/-- The rack of a device by the wiring map. -/
def rackOf (d : Dev) (dev : Nat) : Option Nat := (d.lig.map.devices.find? (fun x => x.1 == dev)).map (·.2.2)

/-- The manager names a buddy for each device of a set: a joined device in a rack that holds none of the set (R255) (DEDUCED: log entry 109). -/
def nameBuddies (d : Dev) : Dev :=
  if !isManager d then d
  else forEach d.lig.sets d (fun d s =>
    let racks := s.members.map (fun m => rackOf d m.device)
    match (d.lig.joined.map (·.1)).find? (fun v => !racks.contains (rackOf d v)) with
    | none => d
    | some b => forEach s.members d (fun d m =>
        if m.device = ownDevice d then newBuddy d b else emit d (.buddy m.device b)))

/-! ## Admissions along a chain (R171) -/

/-- The request of an admission on a later device of its chain. -/
def admittedReq (d : Dev) (x : App) (k holder : Nat) (a : Admission) : GenReq :=
  let key := (keyOfGen (keySlot d k) a.keyGen).getD []
  let sk := leNat ((Config.hmac512 key (asciiOf "SAMPLE" ++ leBytes 8 a.seed)).take 8)
  { slot := k, tenant := a.tenant, id := a.id, keyGen := a.keyGen, app := a.app, source := 0, reply := 0, origin := holder,
    handle := a.handle, holder := holder, variant := a.variant, maxNew := a.maxNew, prompt := a.prompt, temp := a.temp,
    topK := a.topK, topP := a.topP, stops := a.stops, seed := a.seed, streamFrames := 0, bad := 0, sk := sk,
    arrived := d.frame.no, onRing := false, waited := 0, stage := .active, phase := a.phase, order := d.gen.admitted,
    reserved := x.book.layers.length * ((a.prompt.length + a.maxNew + 63) / 64), tableAt := none, blocks := [], rows := 0,
    out := [], reported := 0, asked := [], waiting := [], parked := 0, cancel := false, cancelSeen := false, first := a.first, planned := 0,
    sampled := false, lps := [], rollout := none }

/-- An admission reaches a later device: it takes the sequence, and has or binds a slot if it holds a record of the variant. -/
def takeAdmission (d : Dev) (holder : Nat) (a : Admission) : Dev :=
  match slotOfTenant d a.tenant, appAt d a.app with
  | some k, some x =>
    if (findReq d k a.id).isSome then d
    else
      let (d, q) := openBlocks d x (admittedReq d x k holder a)
      let d := setReqs d (d.gen.reqs ++ [q])
      let d := { d with gen := { d.gen with admitted := d.gen.admitted + 1 } }
      let u := Use.request k a.id
      if !holdsRec d a.variant then d
      else if d.ink.bound.any (fun y => y.1 == u && (slot d y.2.1).st == 2) then reportLive d (· == u)
      else bindFor d u a.variant k a.app
  | _, _ => d

/-! ## Key records (R358, R361, R362) -/

/-- A key record: a new tenant's takes a key slot, one with the next generation rotates the slot's; one that says REVOKED revokes it. -/
def takeKeyRecord (d : Dev) (r : BitVec 1024) : Dev :=
  match tenantSlot d (field r 0 16) with
  | none => if bit (field r 96 1) 0 then d else loadRecord d r
  | some k =>
    let x := keySlot d k
    if bit (field r 96 1) 0 then revokeKey d k
    else if x.st = 1 ∧ field r 32 32 = x.genCur + 1 then rotateKey d k (leBytes 32 (field r 128 256)) else d

/-! ## What a message does -/

/-- Bytes of an element of a share entry: none for other entries. -/
def shareWidth (index : Nat) : Option Nat :=
  if index = 0x3020 ∨ index = 0x3120 ∨ index = 0x6008 then some 2
  else if index = 0x3021 ∨ index = 0x3022 then some 4
  else none

/-- The application that a control names, for those that name one. -/
def controlApp : Control → Option Nat
  | .placement a _ | .snapOrder a _ _ _ | .snapInterrupt a _ | .snapAsk a _ | .service a _ | .serviceStop a | .chainLost a | .restoreStop a _ | .resumeEdge a _ | .baseMap a | .baseSwitch a _ | .baseAbandon a
  | .baseRetire a | .haltAt a _ | .runAt a _ _ | .bindAsk _ _ _ a | .pinAsk _ _ a => some a
  | .schedule x => some x.app
  | .baseOrder _ _ o => some (orderApp o)
  | _ => none

/-- The manager writes export entries; no frame beyond the usable ones is exported (R122, R128). -/
def takeExports (d : Dev) (l : List (Nat × Nat)) : Dev :=
  { d with mem := { d.mem with
    exports := (l.filter (fun x => frameUsable d x.1)).foldl (fun (t : Table Nat) x => t.set 0 x.1 x.2) d.mem.exports } }

/-- Control that reaches this device from `src`. -/
def takeControl (n : Nv) (d : Dev) (src : Nat) (c : Control) : Dev :=
  match c with
  | .tables t => takeTables d t
  | .placement a p => match appAt d a with
    | some x => setApp d a { x with placeNext := some p }
    | none => d
  | .exports l => if src = d.lig.manager then takeExports d l else d
  | .shares index sub first vs => match shareWidth index with
    | some w => applyDev n d (elemItem index sub first w vs) 0
    | none => d
  | .admission a => takeAdmission d src a
  | .bindAsk t id v a => takeBindAsk d t id v a
  | .bindAnswer t id code => takeBindAnswer d src t id code
  | .pinAsk u v a => takeAsk d u v (useSlot u) a
  | .pinRelease u => takePinRelease d u
  | .pinAnswer u code => takePinAnswer (checkAnswered d src u) src u code
  | .schedule x => noteProbe (takeNote d x) x
  | .slip c k => moveSeq d c k
  | .reduceOpen i => openReduce d i
  | .reduceVoid job s => voidReduce d job s
  | .snapOrder a number edge boosted =>
    setSnap d a { snapOf d a with order := some edge, boosted := boosted, number := number }
  | .snapInterrupt a number => snapInterrupted d a number
  | .snapAsk a boosted => if isManager d then askSnap d a boosted else d
  | .service a on => { d with gen := { d.gen with
      serviced := d.gen.serviced.filter (fun x => !(x.1 == a && x.2.1 == src)) ++ if on then [(a, src, deviceEpoch d src)] else [] } }
  | .serviceStop a => stopServed d a
  | .jobEnded job => dropJobReduces d job
  | .chainLost a => if isManager d then d else chainLost d a
  | .restoreStop a e => setSnap d a { snapOf d a with stopAt := some e, restored := [], resumeAt := none }
  | .resumeEdge a r => setSnap d a { snapOf d a with resumeAt := some r }
  | .baseOrder opId newGen o => if baseBusy d (orderApp o) then d else beginBase d o opId newGen
  | .baseMap a => if (baseOf d a).phase = 1 then beginMap d a else d
  | .baseSwitch a e => setBase d a { baseOf d a with phase := 4, switchAt := some e }
  | .baseAbandon a => abandonBase d a
  | .baseRetire a => setBase d a { baseOf d a with phase := 6 }
  | .haltAt a e => setHalt d a { haltOf d a with at_ := some e }
  | .runAt a e steps => setHalt d a { haltOf d a with resume := some e, steps := steps }
  | .keyRecord r => takeKeyRecord d r
  | .swk k => if isManager d then d else { d with sec := { d.sec with swk := some k } }
  | .keyRetire t => match tenantSlot d t with
    | some k => if (keySlot d k).genPrev.isSome then setKey d k { keySlot d k with retire := true } else d
    | none => d
  | .keyRevoke t => match tenantSlot d t with
    | some k => revokeKey d k
    | none => d
  | .buddy v => newBuddy d v
  | .standby m j s => takeStandby d m j s
  | .standbyState x => takeSysState d x
  | .standbyAck => standbyAcked d src
  | .capacity t => if isManager d then { d with lig := { d.lig with caps := d.lig.caps.set [] src t } } else d
  | .load l => if isManager d then { d with lig := { d.lig with loads := d.lig.loads.set [] src l } } else d
  | .migrate a page g => if src = d.lig.manager then migrate d a page g true else d
  | .migration f g phase => importMigration d src f g phase
  | .migrationAck f phase => importerDone d src f phase
  | .record _ => d

/-- A MGMT message for this device: a record of a session, or control (DESIGN CHOICE: log entry 113). -/
def takeMgmt (n : Nv) (d : Dev) (op : MgmtOp) : Nv × Dev :=
  match op.control with
  | .record r => match serveRecord n d .ligature r with
    | some (n, d, _) => (n, d)
    | none => (n, d)
  | c => if (controlApp c).any (fun a => decide (8 ≤ a)) then (n, d) else (n, takeControl n d op.msg.srcDevice c)

def execMgmt (op : MgmtOp) (s : State) : Host.Outcome State Fault Refusal :=
  if 16 ≤ op.port then .fault .noSuchUnit
  else onBoth s (fun n d =>
    let (d, mine) := receive (atOff d op.off) op.port 0x02 op.msg
    if mine then takeMgmt n d op else (n, d))

end Sys2Proof.Machine
end

