-- ==== Sys2Proof/Machine/Remote.lean ====
section
/-!
DEFINITION. Remote requests and ring slots as they arrive (R128, R137, R145, R187, R280, R281), and the datagrams of the intake ports.
-/
namespace Sys2Proof.Machine
open Sys2Proof

/-! ## The target's side (R128, R280) -/

/-- Local granules that a request names: ADDR is PFN × 2^21 + offset, ARG the count. -/
def reqGrans (m : Msg) : List Nat := (List.range m.arg).map (fun k => m.addr / granSize + k)

/-- Why a request is refused: the export table, which exports no frame beyond the usable ones (R122), then (R145) granules that do not verify; 0: it is served. A write of whole granules
needs no granule read, but a frame whose version tree failed takes none (DEDUCED: log entry 82). -/
def requestCause (d : Dev) (m : Msg) (write : Bool) : Nat :=
  let gs := reqGrans m
  let sys := m.stamp % 2 ^ 32
  if sys = 0 ∨ gs.any (fun g => d.mem.exports.get 0 (g / 8192) != sys || !frameUsable d (g / 8192)) then 5
  else if gs.any (fun g => if write then treeFailed d (g / 8192) else !granReads d g (granKey d g)) then 6
  else 0

/-- An uncorrectable granule is counted at its channel, for the partition of its die group. -/
def requestRefused (d : Dev) (p : Nat) (m : Msg) (cause : Nat) : Dev :=
  let d := if cause = 6 then
      match (reqGrans m).find? (fun g => !granReads d g (granKey d g)) with
      | some g => memError d (chanOf g / 4) g
      | none => d
    else d
  answerMsg d p m 0x14 cause []

def readReq (d : Dev) (p : Nat) (m : Msg) : Dev :=
  match requestCause d m false with
  | 0 => answerMsg d p m 0x12 m.arg ((reqGrans m).flatMap (fun g => readBytes d.mem.ddr (g * granSize) granSize))
  | c => requestRefused d p m c

def writeReq (d : Dev) (p : Nat) (m : Msg) : Dev :=
  match requestCause d m true with
  | 0 =>
    let d := forEach (reqGrans m) d (fun d g => granWhole d g (d.mem.frameOwner.get 0 (g / 8192)))
    let d := { d with mem := { d.mem with ddr := writeBytes d.mem.ddr (m.addr / granSize * granSize) m.body } }
    answerMsg d p m 0x13 m.arg []
  | c => requestRefused d p m c

/-! ## The requester's side (R280) -/

def waitOf (d : Dev) (tag : Nat) : Option RemoteWait := d.mem.remote.find? (fun w => w.tag == tag)
def endWait (d : Dev) (tag : Nat) : Dev := { d with mem := { d.mem with remote := d.mem.remote.filter (fun w => w.tag != tag) } }

/-- The executing transfer of a request, if it still waits for its answer. -/
def waiter (d : Dev) (w : RemoteWait) : Option Xfer :=
  ((teQueue d w.cluster).head?).bind (fun x => if x.waits.contains w.key then some x else none)

/-- An answer arrives: the transfer takes it and goes on. -/
def answered (d : Dev) (m : Msg) (write : Bool) : Dev :=
  match waitOf d m.tag with
  | none => d
  | some w =>
    if w.device ≠ m.srcDevice ∨ w.write ≠ write then d
    else
      let d := endWait d m.tag
      match waiter d w with
      | none => d
      | some x =>
        let x := { x with waits := x.waits.filter (· ≠ w.key) }
        let x := if write then { x with acked := x.acked ++ [w.key] }
          else { x with got := x.got.filter (fun y => y.1 != w.key) ++ [(w.key, m.body)] }
        teGo (setTeHead d w.cluster x) w.cluster (2 ^ 41)

/-- A request fails with a cause: the access faults at the cursor that waits for it. -/
def requestFails (d : Dev) (w : RemoteWait) (cause : Nat) : Dev :=
  let d := endWait d w.tag
  match waiter d w with
  | none => d
  | some x => faultXfer d w.cluster x cause (w.key * granSize)

def refusedResp (d : Dev) (m : Msg) : Dev :=
  match waitOf d m.tag with
  | some w => if w.device = m.srcDevice ∧ 5 ≤ m.arg ∧ m.arg ≤ 7 then requestFails d w m.arg else d
  | none => d

/-- No answer within REMOTE_TIMEOUT hclk of sending. -/
def remoteTimeout (d : Dev) (tag : Nat) : Dev :=
  match waitOf d tag with
  | some w => if w.sent + reg d 0x4017 0x00 ≤ now d then requestFails d w 4 else d
  | none => d

/-! ## Ring slots (R137, R281) -/

/-- Token records of stage L − 1 (R200): handle, token, t (DESIGN CHOICE: log entry 85). -/
def tokenRecords (d : Dev) (stamp : Nat) : Nat → List Byte → Dev
  | 0, _ => d
  | n + 1, bs =>
    tokenRecords (tokenArrives d (leNat (bs.take 8)) (leNat ((bs.drop 8).take 4)) (leNat ((bs.drop 12).take 4)) stamp) stamp n (bs.drop 16)

/-- A slot with all its segments in. -/
def slotArrives (d : Dev) (c r stamp : Nat) (bytes : List Byte) : Dev :=
  let (d, taken) := acceptSlot d c r stamp bytes
  if taken ∧ bytes.length % 16 = 0 then tokenRecords d stamp (bytes.length / 16) bytes else d

/-- A segment: the slot is assembled by SEG_INDEX under its STAMP and ADDR. -/
def ringSlot (d : Dev) (m : Msg) : Dev :=
  let (c, r) := nameRing m.addr
  if m.segs ≤ 1 then slotArrives d c r m.stamp m.body
  else
    let same := fun (x : InSlot) => x.cluster == c && x.ring == r && x.stamp == m.stamp
    let x := (d.mem.inSlots.find? same).getD { cluster := c, ring := r, stamp := m.stamp, count := m.segs, segs := [] }
    let x := { x with segs := x.segs.put m.seg m.body }
    let rest := d.mem.inSlots.filter (fun y => !same y)
    if x.segs.length < x.count then { d with mem := { d.mem with inSlots := rest ++ [x] } }
    else slotArrives { d with mem := { d.mem with inSlots := rest } } c r m.stamp (x.segs.flatMap (·.2))

/-- Slots still incomplete at the edge that begins their stamped frame are discarded and counted (R281). -/
def inSlotsEdge (d : Dev) : Dev :=
  let gone := d.mem.inSlots.filter (fun x => x.stamp ≤ d.frame.no)
  let d := { d with mem := { d.mem with inSlots := d.mem.inSlots.filter (fun x => !(x.stamp ≤ d.frame.no)) } }
  forEach gone d (fun d x =>
    raise (bumpPart d 0x2053 (partOfCluster x.cluster) 1) (partSrc (partOfCluster x.cluster) 18) 0 (x.cluster * 64 + x.ring))

/-! ## Datagrams of the intake ports (R187) -/

/-- The port is in ETHERNET mode and UP, and the address is the one configured for it; 0 disables the protocol. -/
def addressed (d : Dev) (p : Nat) (v6 : Bool) (dst : Nat) : Bool :=
  p < 2 && portMode d p == 2 && (port d p).st == .up && dst != 0 &&
    dst == reg d (if v6 then 0x3003 else 0x3002) (p + 1)

/-- An envelope under reassembly is discarded and counted. -/
def dropReasm (d : Dev) (tenant id : Nat) : Dev :=
  bump { d with gen := { d.gen with reasm := d.gen.reasm.filter (fun x => !(x.tenant == tenant && x.id == id)) } } 0x3030 0x01 1

/-- A segment joins its envelope; duplicates are ignored; an envelope that finds the buffer full is discarded. -/
def udpSegment (d : Dev) (op : UdpOp) : Dev :=
  if !addressed d op.port op.v6 op.dst ∨ op.dstPort ≠ reg d 0x3001 0x00 ∨ op.fragment ∨ op.count = 0 ∨ 2048 < op.count ∨
      op.count ≤ op.index ∨ 8192 < op.bytes.length then d
  else
    let same := fun (x : Reasm) => x.tenant == op.tenant && x.id == op.id
    let x := (d.gen.reasm.find? same).getD
      { tenant := op.tenant, id := op.id, started := d.frame.no, count := op.count, reply := op.reply, port := op.port, segs := [] }
    if op.full then dropReasm d op.tenant op.id
    else if x.segs.any (fun y => y.1 == op.index) ∨ x.count ≠ op.count then d
    else
      let x := { x with segs := x.segs.put op.index op.bytes, reply := if op.index = 0 then op.reply else x.reply }
      let rest := d.gen.reasm.filter (fun y => !same y)
      if x.segs.length < x.count then { d with gen := { d.gen with reasm := rest ++ [x] } }
      else
        let bs := x.segs.flatMap (·.2)
        let d := { d with gen := { d.gen with reasm := rest } }
        if bs.length < 80 then bump d 0x3030 0x01 1
        else { d with gen := { d.gen with ready := d.gen.ready ++ [(x.port, x.reply, bs)] } }

/-! ## The commands -/

/-- A message of a kind for this device (DEDUCED: log entry 108). -/
def onMessage (op : MsgOp) (kind : Nat) (s : State) (f : Dev → Dev) : Host.Outcome State Fault Refusal :=
  onDevIf (op.port < 16) s (fun d =>
    let (d, mine) := receive (atOff d op.off) op.port kind op.msg
    if mine then f d else d)

def execReadReq (op : MsgOp) (s : State) : Host.Outcome State Fault Refusal :=
  onMessage op 0x10 s (fun d => if 1 ≤ op.msg.arg ∧ op.msg.arg ≤ 16 then readReq d op.port op.msg else d)

def execWriteReq (op : MsgOp) (s : State) : Host.Outcome State Fault Refusal :=
  onMessage op 0x11 s (fun d =>
    if 1 ≤ op.msg.arg ∧ op.msg.arg ≤ 16 ∧ op.msg.body.length = granSize * op.msg.arg then writeReq d op.port op.msg else d)

def execReadResp (op : MsgOp) (s : State) : Host.Outcome State Fault Refusal :=
  onMessage op 0x12 s (fun d => answered d op.msg false)

def execWriteAck (op : MsgOp) (s : State) : Host.Outcome State Fault Refusal :=
  onMessage op 0x13 s (fun d => answered d op.msg true)

def execRefusedResp (op : MsgOp) (s : State) : Host.Outcome State Fault Refusal :=
  onMessage op 0x14 s (fun d => refusedResp d op.msg)

def execRemoteTimeout (op : TagOp) (s : State) : Host.Outcome State Fault Refusal :=
  onDev s (fun d => remoteTimeout (atOff d op.off) op.tag)

def execRingSlot (op : MsgOp) (s : State) : Host.Outcome State Fault Refusal :=
  onMessage op 0x20 s (fun d => ringSlot d op.msg)

def execUdpSegment (op : UdpOp) (s : State) : Host.Outcome State Fault Refusal :=
  onDevIf (op.port < 16) s (fun d => udpSegment (atOff d op.off) op)

/-- Not complete within REASSEMBLY_FRAMES frames of its first segment. -/
def execReassemblyTimeout (op : ReasmOp) (s : State) : Host.Outcome State Fault Refusal :=
  onDev s (fun d =>
    let d := atOff d op.off
    if d.gen.reasm.any (fun x => x.tenant == op.tenant && x.id == op.id && x.started + reg d 0x3005 0x00 ≤ d.frame.no) then
      dropReasm d op.tenant op.id
    else d)

/-- The MAC address of L00 or L01 (R272). -/
def macAddr (_ : Dev) (p : Nat) : Nat := Config.mac p % 2 ^ 48

def execArpRequest (op : AddrOp) (s : State) : Host.Outcome State Fault Refusal :=
  onDevIf (op.port < 16) s (fun d =>
    let d := atOff d op.off
    if addressed d op.port false op.addr then emit d (.arp op.port op.addr (macAddr d op.port)) else d)

def execNeighborDiscovery (op : AddrOp) (s : State) : Host.Outcome State Fault Refusal :=
  onDevIf (op.port < 16) s (fun d =>
    let d := atOff d op.off
    if addressed d op.port true op.addr then emit d (.neighbor op.port op.addr (macAddr d op.port)) else d)

end Sys2Proof.Machine
end

