-- ==== Sys2Proof/Machine/Planner.lean ====
section
/-!
DEFINITION. What the planner may plan for the next frame: what every task costs on each engine and of each die group's DDR, the rows of
the micro-batches and their runs, ring fills and hand-offs, and the work that is due (R24, R28, R29, R32, R123, R151, R163, R170, R178,
R179, R198, R223, R234, R249, R287). The planner works from shapes alone.
-/
namespace Sys2Proof.Machine
open Sys2Proof

/-! ## The next frame (R27, R30) -/

/-- The device as it stands in the next frame: its period, its slices and its clock. -/
def nextFrame (d : Dev) : Dev :=
  let d := waitingEdge { d with frame := { d.frame with no := d.frame.no + 1 } }
  setPow d (fun p => { p with mhz := p.mhzNext.getD p.mhz })

/-- The partition of an engine. -/
def engPart (e : Nat) : Nat := if e < 1024 then partOfHearth (e / 4) else if e < 1056 then partOfCluster (e - 1024) else e - 1056
def engMatrix (e : Nat) : Bool := e < 1024 && e % 4 < 2
/-- The Scribe of a partition. -/
def engScribe (p : Nat) : Nat := 1056 + p

/-! ## Windows (R29) -/

/-- A window lies between the edge window and the guard band, on an engine of its task's partition. -/
def windowOk (n : Dev) (t : TaskPlan) (w : Window) : Bool :=
  decide (1700 ≤ w.start) && decide (w.start < w.stop) && decide (w.stop ≤ guardStart n) && decide (w.eng < 1064) && engPart w.eng == t.part

/-- Two windows on one engine are apart by the seam. -/
def apart (seam : Nat) (v w : Window) : Bool := v.eng != w.eng || decide (v.stop + seam ≤ w.start) || decide (w.stop + seam ≤ v.start)
def allApart (seam : Nat) : List Window → Bool
  | [] => true
  | w :: r => r.all (apart seam w) && allApart seam r

/-- The longest tile step of the copybooks on the device. -/
def bookSeam (d : Dev) : Nat := ((liveBooks d).map (·.2.tileStep)).foldl max 0

/-- A fill task keeps its fill window (R172). -/
def fillOk (n : Dev) (t : TaskPlan) : Bool :=
  match t.fill with
  | none => true
  | some k => decide (k < reg n 0x3103 0x00) &&
      t.windows.all (fun w => decide (hkStart n + 256 * k ≤ w.start) && decide (w.stop ≤ hkStart n + 256 * (k + 1)))

/-- A window of a boosted drain inside the training slice (R254). -/
def boostWindow (n : Dev) (w : Window) : Bool := decide (trainStart n ≤ w.start) && decide (w.stop ≤ hkStart n)
/-- A drain's windows come after the fill windows; a boosted one's may lie in the training slice (R254). -/
def drainOk (n : Dev) (t : TaskPlan) : Bool :=
  match t.drain with
  | none => true
  | some a => t.windows.all (fun w => decide (hkStart n + 256 * reg n 0x3103 0x00 ≤ w.start) || ((snapOf n a).boosted && boostWindow n w))

/-- hclk that windows take together. -/
def windowsLen (ws : List Window) : Nat := (ws.map (fun w => w.stop - w.start)).sum
def lenOn (ts : List TaskPlan) (e : Nat) : Nat := windowsLen ((ts.flatMap (·.windows)).filter (·.eng == e))
def engsOf (ts : List TaskPlan) : List Nat := ((ts.flatMap (·.windows)).map (·.eng)).eraseDups

/-- Staging runs on transfer engines in housekeeping windows after the fill windows and any drain, while its operation stages (R323). -/
def stageOk (d n : Dev) (p : Plan) (t : TaskPlan) : Bool :=
  (appOfPart d t.part).any (fun a => (baseOf d a).phase == 1) && t.cls == .housekeeping &&
    t.windows.all (fun w => engTransfer w.eng && decide (hkStart n + 256 * reg n 0x3103 0x00 ≤ w.start) &&
      p.tasks.all (fun s => s.drain.isNone || s.windows.all (fun v => decide (v.stop ≤ w.start))))

/-- Drains take at most SNAP_BOOST / 1,000 of the training slice on each engine (R254). -/
def boostOk (n : Dev) (p : Plan) : Bool :=
  let ws := ((p.tasks.filter (·.drain.isSome)).flatMap (·.windows)).filter (boostWindow n)
  ws.all (fun w => decide (windowsLen (ws.filter (·.eng == w.eng)) * 1000 ≤ reg n 0x6020 0x06 * (hkStart n - trainStart n)))

/-! ## Hand-offs (R29, R287) -/

/-- A hand-off arrives 85 hclk before the tick edge: its departure, its serialisation at 100 GB/s for each UP port of the group, the
links' delays, 120 ns for each device passed through and 24 hclk for each die-to-die hop. -/
def handOffOk (n : Dev) (h : HandOff) : Bool :=
  let ps := upPorts n h.group
  let up := fun (x y : Nat) => (x + y - 1) / y
  let serial := up (h.bytes * n.pow.mhz) (100000 * ps.length)
  let delay := (ps.map (fun p => reg n 0x4014 (p + 1))).foldl max 0
  let path := up ((delay + h.beyond + 120000 * h.through) * n.pow.mhz) 1000000 + 24 * h.hops
  !ps.isEmpty && decide (h.depart + serial + path + 85 ≤ periodHclk n)

/-! ## Micro-batches (R178, R198) -/

def batchAt (p : Plan) (i : Nat) : Option Batch := p.batches[i]?
def batchTotal (b : Batch) : Nat := (b.rows.map (·.n)).sum
def batchBack (b : Batch) : Bool := b.chunk.any (·.back)
/-- Its rows are those of a check (R329): they run under the new base, its weights streamed, and read the half that is not live. -/
def batchChecks (b : Batch) : Bool := b.chunk.any (fun c => isCheck c.use)
def checkBook (c : Copybook) : Copybook := { c with streamLayers := c.layers }
def batchBook (d : Dev) (b : Batch) : Option Copybook :=
  if batchChecks b then (baseOf d b.app).package.map (fun p => checkBook p.book) else (appAt d b.app).map (·.book)
/-- Rows times their context, in 64-token blocks. -/
def batchAttention (b : Batch) : Nat := (b.rows.map (fun x => x.n * x.ctx)).sum
def batchVariants (b : Batch) : List Nat := ((b.rows.map (·.variant)).eraseDups).filter (· ≠ 0)

/-- The sequence a piece belongs to: 2^192·key slot + REQUEST_ID. -/
def pieceSeq? (x : RowPiece) : Option Nat :=
  match x.use with
  | .request slot id => some (2 ^ 192 * slot + id)
  | _ => none
def batchSeqs (b : Batch) : List Nat := (b.rows.filterMap pieceSeq?).eraseDups

/-- Generation micro-batches of an application, and the pieces of one sequence in plan order. -/
def genBatches (p : Plan) (a : Nat) : List Batch := p.batches.filter (fun b => b.app == a && b.chunk.isNone)
def seqPieces (p : Plan) (k : Nat) : List RowPiece := (p.batches.flatMap (·.rows)).filter (fun x => pieceSeq? x == some k)
/-- Rows planned for a sequence. -/
def seqRows (p : Plan) (k : Nat) : Nat := ((seqPieces p k).map (·.n)).sum

/-- The admission order of a sequence: those that the coming edge admits come last, in their order. -/
def admissionOrder (d : Dev) (k : Nat) : Nat :=
  match d.gen.reqs.find? (fun q => seqKey q == k) with
  | some q => if q.stage = .active then q.order else d.gen.admitted + d.gen.reqs.idxOf q
  | none => 0

def pieceKey (d : Dev) (x : RowPiece) : Nat × Nat := (x.variant, ((pieceSeq? x).map (admissionOrder d)).getD 0)
def inOrder : List (Nat × Nat) → Bool
  | a :: b :: r => (decide (a.1 < b.1) || (a.1 == b.1 && decide (a.2 ≤ b.2))) && inOrder (b :: r)
  | _ => true

/-- Rows of a sequence stand in order: each piece's context ends with its last row. -/
def contextsOk (rows : Nat) : List RowPiece → Bool
  | [] => true
  | x :: r => decide (0 < x.n) && decide (x.ctx = (rows + x.n + 63) / 64) && contextsOk (rows + x.n) r

/-- A request's variant on this device: none where the device holds no record of it (R171). -/
def variantHere (d : Dev) (q : GenReq) : Nat := if holdsRec d q.variant then q.variant else 0

/-- The micro-batches of generation: at most 128 rows each, ordered by variant and then by admission (R178). -/
def batchesOk (d : Dev) (p : Plan) : Bool :=
  p.batches.all (fun b => decide (0 < batchTotal b) && decide (batchTotal b ≤ 128) && (appAt d b.app).isSome) &&
    (liveApps d).all (fun x => inOrder (((genBatches p x.1).flatMap (·.rows)).map (pieceKey d))) &&
    d.gen.reqs.all (fun q => contextsOk q.rows (seqPieces p (seqKey q)) &&
      (seqPieces p (seqKey q)).all (fun x => x.variant == variantHere d q))

/-! ## What is due (R198, R200, R223, R225) -/

/-- Every sequence that is due is planned, late and slipped tokens too: a decode row, or the next prompt rows, up to PREFILL_CHUNK; a key
slot's prompts may be cut short only by its PREFILL_SHARE (R193, R198). -/
def seqsOk (d : Dev) (slips : List Nat) (p : Plan) : Bool :=
  let due := (plannableSeqs d slips).eraseDups
  let planned := ((p.batches.filter (·.chunk.isNone)).flatMap batchSeqs).eraseDups
  let mine := d.gen.reqs.filter (fun q => q.plannable && due.contains (seqKey q))
  let prompt := fun (q : GenReq) => decide (q.rows < q.prompt.length)
  planned.all (due.contains ·) &&
  mine.all (fun q =>
    let n := seqRows p (seqKey q)
    if prompt q then
      let all := mine.filter (fun x => prompt x && x.slot == q.slot && x.app == q.app)
      let sum := (all.map (fun x => seqRows p (seqKey x))).sum
      let share := d.gen.prefillShare.get 0 (4096 * q.app + q.slot)
      decide (n ≤ unitRows d q) && decide (sum ≤ share) && (n == unitRows d q || sum == share)
    else n == 1)

/-- The chunks of an application's training sequences that its schedules put in a frame at this device's stage, with their rows (R223). -/
def schedChunks (chunk l stage frame n : Nat) (f0 : Nat) (fwd : Bool) : List (Nat × Bool × Nat) :=
  let cs := chunkCount chunk n
  (List.range cs).flatMap (fun c =>
    (if f0 + c + stage = frame then [(c, false, chunkRows chunk n c)] else []) ++
    (if !fwd ∧ f0 + 2 * cs + 2 * l - 3 = frame + c + stage then [(c, true, chunkRows chunk n c)] else []))

def chunksOf (x : App) (frame : Nat) (use : Use) (step : Nat) (score : Bool) (s : Sched) : List (ChunkRef × Nat) :=
  match s.f0 with
  | none => []
  | some f0 => (schedChunks (max 1 x.book.trainChunk) (chainLen x) x.place.stage frame s.n f0 s.fwd).map (fun y =>
      ({ use := use, step := step, g := s.g, i := s.i, chunk := y.1, score := score, back := y.2.1 }, y.2.2))

def dueChunks (d : Dev) (a frame : Nat) : List (ChunkRef × Nat) :=
  match appAt d a with
  | none => []
  | some x =>
    (d.train.jobs.filter (·.app == a)).flatMap (fun j => j.steps.flatMap (fun s =>
      s.seqs.flatMap (chunksOf x frame j.policyUse s.s false) ++ s.scores.flatMap (chunksOf x frame j.rewardUse s.s true))) ++
    (d.train.evals.filter (·.app == a)).flatMap (fun v => v.seqs.flatMap (chunksOf x frame (evalUse v.slot v.id) 0 false)) ++
    (baseOf d a).checks.flatMap (fun y => y.seqs.flatMap (chunksOf x frame (checkUse y.variant) 0 false)) ++
    (d.train.notes.filter (·.app == a)).flatMap (fun y => chunksOf x frame y.use y.step y.score (noteSched y))

/-- The training micro-batches are those of the due chunks, whole. -/
def chunksOk (d : Dev) (p : Plan) : Bool :=
  (liveApps d).all (fun x =>
    let due := dueChunks d x.1 (d.frame.no + 1)
    let mine := p.batches.filter (fun b => b.app == x.1 && b.chunk.isSome)
    due.all (fun y => ((mine.filter (fun b => b.chunk == some y.1)).map batchTotal).sum == y.2) &&
    mine.all (fun b => due.any (fun y => b.chunk == some y.1)))

/-! ## Tasks by the work they share -/

/-- Tasks that together do one piece of work: ring slots of one layer's weights count as one. -/
def workOf : Shape → Shape
  | .weights b l c _ _ => .weights b l c 0 0
  | s => s

def tasksOf (p : Plan) (s : Shape) : List TaskPlan := p.tasks.filter (fun t => t.resumes.isNone && workOf t.shape == workOf s)

/-- The application whose work a task does. -/
def shapeApp (d : Dev) (t : TaskPlan) : Option (Nat × App) :=
  (appOfPart d t.part).bind (fun a => (appAt d a).map (fun x => (a, x)))

/-- A micro-batch's layers: every layer held. -/
def batchLayers (d : Dev) (b : Batch) : List Nat := ((appAt d b.app).map (·.book.layers)).getD []

/-- Every micro-batch runs through every layer held, in tasks of its application, its class and its sequences. -/
def layersOk (d : Dev) (p : Plan) : Bool :=
  p.batches.zipIdx.all (fun x => (batchLayers d x.1).all (fun l => !(tasksOf p (.rows x.2 l)).isEmpty)) &&
  p.tasks.all (fun t => match t.shape with
    | .rows i l => match batchAt p i with
      | none => false
      | some b => (batchLayers d b).contains l && appOfPart d t.part == some b.app && t.seqs == batchSeqs b &&
          t.cls == (if b.chunk.isSome then .training else .decode)
    | _ => t.seqs.isEmpty)

/-! ## Contributions (R301, R303) -/

/-- A step's sequences in rank order, and a place in the record that lies in one target. -/
def seqRank (r : Reduce) (g i : Nat) : Option Nat := r.info.seqs.findIdx? (fun y => y.1 == g && y.2.1 == i)

/-- A contribution of a task's rows: of the step of its chunk, at the position of its sequence, chunk and micro-batch, on elements of one
target. -/
def contribOk (d : Dev) (p : Plan) (i : Nat) (b : Batch) (c : Contrib) : Bool :=
  match b.chunk, findReduce d c.job c.step with
  | some k, some r =>
    let mb := ((p.batches.take i).filter (·.chunk == some k)).length
    k.back && k.use == .job (2 * c.job) && k.step == c.step &&
      (seqRank r k.g k.i).any (fun n => c.pos / 2 ^ 8 == n * 2 ^ 20 + k.chunk * 2 ^ 8 + mb) &&
      ((targetsOf d r.info.variant)[c.target]?).any (fun o => decide (c.elem + c.n ≤ o.len))
  | _, _ => false

/-- A position of a reduction plan: of a sequence of the step, on a target. -/
def positionOk (d : Dev) (x : Nat × Nat × Nat × Nat) : Bool :=
  match findReduce d x.1 x.2.1 with
  | some r => decide (x.2.2.1 < (targetsOf d r.info.variant).length) && decide (x.2.2.2 / 2 ^ 28 < r.info.seqs.length)
  | none => false

/-- Contributions come from backward rows alone, and every position named is one of its step's. -/
def contribsOk (d : Dev) (p : Plan) : Bool :=
  p.reduction.all (positionOk d) &&
  p.tasks.all (fun t => match t.shape with
    | .rows i _ => (batchAt p i).all (fun b => t.contribs.all (contribOk d p i b))
    | _ => t.contribs.isEmpty)

/-! ## Costs (R28, R180, R234, R249) -/

def priceOf (b : Copybook) (l e : Nat) : Option Price := b.prices.find? (fun x => x.layer == l && x.eng == e)

/-- What a pass costs is charged to the ring fills of a STREAMED layer on the transfer engines (R151). -/
def passOf (b : Copybook) (x : Price) : Nat := if b.streamLayers.contains x.layer && engTransfer x.eng then 0 else x.pass

/-- Patch definitions of a variant on a layer. -/
def patchesAt (d : Dev) (v l : Nat) : List PatchDef :=
  match variant d v with
  | some r => r.patches.filter (fun p => PatchDef.layer p == l)
  | none => []
def matrixN (b : Copybook) (p : PatchDef) : Nat :=
  ((b.matrices.find? (fun m => m.layer == PatchDef.layer p && m.number == PatchDef.matrix p)).map (·.n)).getD 0

/-- 128 × 128 weight-gradient blocks that the masks of a micro-batch's variants let in on a layer (R230). -/
def maskBlocks (d : Dev) (c : Copybook) (b : Batch) (l : Nat) : Nat :=
  ((batchVariants b).map (fun v => ((patchesAt d v l).map (fun p => if PatchDef.blocks p then PatchDef.count p else matrixN c p / 128)).sum)).sum

/-- hclk of a micro-batch's rows on an engine through one layer. Backward: the input gradient at the forward cost and the masked-in
weight gradients, at most twice the forward cost; attention twice; four activation moves for one (R234). -/
def rowsCost (d : Dev) (c : Copybook) (b : Batch) (l e : Nat) : Nat :=
  match priceOf c l e with
  | none => 0
  | some x =>
    let n := batchTotal b
    let attn := batchAttention b * x.attn
    if batchBack b then
      passOf c x + min (2 * x.row * n) ((x.row + maskBlocks d c b l * x.grad) * n) + 2 * attn + 4 * x.move * n
    else passOf c x + (x.row + x.move) * n + attn

/-- Bytes of a variant's live patch copy on a layer (R180). -/
def patchLen (d : Dev) (c : Copybook) (v l : Nat) : Nat :=
  ((patchesAt d v l).map (fun p =>
    if PatchDef.blocks p then 16896 * PatchDef.count p
    else matrixN c p * ((if PatchDef.count p ≤ 32 then 32 else 64) + 4))).sum

/-- Master elements that a Scribe updates: of steering rows, and of patch rows; its DDR bytes, and its hclk (R249). -/
def scribeElems (c : Copybook) (r : VarRec) : Nat × Nat := (r.nLayers * r.width, masterElems c r - r.nLayers * r.width)
def scribeBytes (c : Copybook) (r : VarRec) : Nat := 16 * (scribeElems c r).1 + 21 * (scribeElems c r).2
def scribeHclk (c : Copybook) (r : VarRec) : Nat :=
  max ((masterElems c r + 31) / 32) ((scribeBytes c r + c.scribeRate - 1) / c.scribeRate)

/-- hclk that one piece of work costs on an engine, before the reserve. -/
def workCost (d : Dev) (c : Copybook) (p : Plan) (s : Shape) (e : Nat) : Nat :=
  match s with
  | .rows i l => ((batchAt p i).map (fun b => rowsCost d c b l e)).getD 0
  | .weights _ l k _ _ => if e = engTe k then ((priceOf c l e).map (·.pass)).getD 0 else 0
  | .scribe v => match variant d v with
    | some r => if e = engScribe r.home then scribeHclk c r else 0
    | none => 0
  | .fixed n => ((((c.fixedPrices.find? (·.line == n)).map (·.hclk)).getD []).find? (·.1 == e)).elim 0 (·.2)
  | .carry v => match variant d v with
    | some r => if e = engScribe r.home then scribeHclk c r else 0
    | none => 0
  | .patch _ _ _ _ => 0
  | .fill => 0
  | .drain => 0
  | .stage => 0
  | .reload _ => 0

/-- Engines that a copybook prices for a piece of work. -/
def workEngines (c : Copybook) (s : Shape) : List Nat :=
  match s with
  | .fixed n => ((c.fixedPrices.find? (·.line == n)).map (fun x => x.hclk.map (·.1))).getD []
  | .scribe _ => []
  | .carry _ => []
  | _ => (c.prices.map (·.eng)).eraseDups

/-- The copybook that prices a piece of work: for a check's rows, that of the package. -/
def shapeBook (d : Dev) (c : Copybook) (p : Plan) (s : Shape) : Copybook :=
  match s with
  | .rows i _ => ((batchAt p i).bind (batchBook d)).getD c
  | .weights i _ _ _ _ => ((batchAt p i).bind (batchBook d)).getD c
  | _ => c

/-- The windows of the tasks that do a piece of work are as long as its cost, raised by REPEAT_RESERVE; each line of other work has its
own task; a patch copy may take its hclk on any transfer engines. Fills, drains, staging and reloads have windows of their own rules
(R28); a carry task costs what a Scribe's update does (DESIGN CHOICE: log entry 187). -/
def costOk (d n : Dev) (p : Plan) (t : TaskPlan) : Bool :=
  match shapeApp d t with
  | none => false
  | some (_, x) =>
    let c := shapeBook d x.book p t.shape
    let reserve := reg n 0x1014 0x00
    match t.shape with
    | .fill => t.fill.isSome
    | .drain => t.drain.isSome
    | .stage => stageOk d n p t
    | .reload q => q == t.part && t.cls == .housekeeping && t.windows.all (fun w => engTransfer w.eng)
    | .patch _ l v _ =>
      let ts := tasksOf p t.shape
      windowsLen (ts.flatMap (·.windows)) == withReserve reserve ((patchLen d c v l + c.copyRate - 1) / c.copyRate) &&
        (engsOf ts).all engTransfer
    | .fixed _ =>
      (workEngines c t.shape ++ engsOf [t]).all (fun e => lenOn [t] e == withReserve reserve (workCost d c p t.shape e))
    | s =>
      let ts := tasksOf p s
      (workEngines c s ++ engsOf ts).all (fun e => lenOn ts e == withReserve reserve (workCost d c p s e))

/-- What work resumes takes at most what the whole costs. -/
def resumedCost (d n : Dev) (p : Plan) (t : TaskPlan) : Bool :=
  match shapeApp d t with
  | none => false
  | some (_, x) => match t.shape with
    | .fixed _ => (engsOf [t]).all (fun e => decide (lenOn [t] e ≤ withReserve (reg n 0x1014 0x00) (workCost d x.book p t.shape e)))
    | .scribe _ => (engsOf [t]).all (fun e => decide (lenOn [t] e ≤ withReserve (reg n 0x1014 0x00) (workCost d x.book p t.shape e)))
    | _ => true

/-! ## The DDR limit (R123) -/

def dieGroup (part : Nat) : Nat := part

/-- Bytes that a reload frame moves into a partition (R333): its share of half of the resident weights. -/
def reloadBytes (d : Dev) (a part : Nat) : Nat :=
  match (baseOf d a).package with
  | none => 0
  | some p =>
    let n := (p.book.weights.length + 1) / 2
    let half := if (baseOf d a).switchAt = some (d.frame.no + 1) then p.book.weights.take n else p.book.weights.drop n
    (half.filter (fun w => (if w.1 then partOfHearth w.2.1 else partOfCluster w.2.1) == part)).length

/-- DDR bytes of a piece of work by die group. -/
def workDdr (d n : Dev) (c0 : Copybook) (p : Plan) (t : TaskPlan) : List (Nat × Nat) :=
  let c := shapeBook d c0 p t.shape
  match t.shape with
  | .rows i l => match batchAt p i with
    | none => []
    | some b => (c.prices.filter (fun x => x.layer == l)).flatMap (fun x => x.ddr.map (fun y =>
        (y.1, (if passOf c x = x.pass then y.2.1 else 0) + batchAttention b * y.2.2.1 + batchTotal b * y.2.2.2 * (if batchBack b then 4 else 1))))
  | .weights _ l k _ _ => ((priceOf c l (engTe k)).map (fun x => x.ddr.map (fun y => (y.1, y.2.1)))).getD []
  | .patch _ l v _ => [(dieGroup (((variant d v).map (·.home)).getD t.part), patchLen d c v l)]
  | .scribe v => match variant d v with
    | some r => [(dieGroup r.home, scribeBytes c r)]
    | none => []
  | .fixed m => (((c.fixedPrices.find? (·.line == m)).map (·.ddr)).getD []).map (fun y => (y.2.1, y.2.2))
  | .fill => (partsOf d ((appOfPart d t.part).getD 0)).map (fun q => (dieGroup q, 65536 / (4 * (partsOf d ((appOfPart d t.part).getD 0)).length)))
  | .drain => [(dieGroup t.part, reg n 0x6020 0x05 * windowsLen t.windows)]
  | .stage => [(dieGroup t.part, reg n 0x2105 0x00 * windowsLen t.windows)]
  | .carry v => match variant d v with
    | some r => [(dieGroup r.home, scribeBytes c r)]
    | none => []
  | .reload q => [(dieGroup q, reloadBytes d ((appOfPart d q).getD 8) q)]

/-- The windows over which the bytes of a piece of work are spread: those on transfer engines, if it has any. -/
def ddrWindows (ts : List TaskPlan) : List Window :=
  let ws := ts.flatMap (·.windows)
  let te := ws.filter (fun w => engTransfer w.eng)
  if te.isEmpty then ws else te

/-- Bytes that windows move in a span of 4,096 hclk from x on, spread evenly over the windows (DESIGN CHOICE: log entry 153). -/
def spanBytes (x bytes : Nat) (ws : List Window) : Nat :=
  let len := max 1 (windowsLen ws)
  let within := (ws.map (fun w => min w.stop (x + 4096) - max w.start x)).sum
  (bytes * within + len - 1) / len

/-- Tasks whose bytes count together: one list for each piece of work. -/
def workTasks (p : Plan) (t : TaskPlan) : List TaskPlan :=
  match t.shape with
  | .fixed _ => [t]
  | .fill => [t]
  | .drain => [t]
  | .stage => [t]
  | s => if t.resumes.isSome then [t] else tasksOf p s

/-- The pieces of work of a plan: its DDR bytes by group, with the windows they are spread over. -/
def ddrLoads (d n : Dev) (p : Plan) : List (Nat × Nat × List Window) :=
  (p.tasks.filter (fun t => (workTasks p t).head?.any (·.id == t.id))).flatMap (fun t =>
    match shapeApp d t with
    | none => []
    | some (_, x) => (workDdr d n x.book p t).map (fun y => (y.1, y.2, ddrWindows (workTasks p t))))

/-- Scrubs run in the housekeeping slice (R369). -/
def scrubsOk (n : Dev) (p : Plan) : Bool :=
  p.scrubs.all (fun x => decide (x.1 < 8) && decide (hkStart n ≤ x.2.1) && decide (x.2.1 < x.2.2) && decide (x.2.2 ≤ guardStart n))
/-- The bytes that they write, at SCRUB_RATE. -/
def scrubLoads (n : Dev) (p : Plan) : List (Nat × Nat × List Window) :=
  p.scrubs.map (fun x => (x.1, reg n 0x8150 0x00 * (x.2.2 - x.2.1), [{ eng := 0, start := x.2.1, stop := x.2.2, count := 0, reads := [] }]))

/-- In no span of 4,096 hclk do the planned bytes of a die group pass DDR_PLAN_LIMIT / 1,000 of what it moves at its peak, 32 bytes a
transfer; a load of even rate is most where a span begins or ends with a window. A disabled group moves none. -/
def ddrOk (d n : Dev) (p : Plan) : Bool :=
  let loads := ddrLoads d n p ++ scrubLoads n p
  (List.range 8).all (fun g =>
    let mine := loads.filter (·.1 == g)
    let ends := (mine.flatMap (fun (y : Nat × Nat × List Window) => y.2.2)).flatMap (fun w => [w.start, w.stop])
    let peak := if n.mem.usable.get 0 g = 0 then 0 else reg n 0x1100 0x00 * 32 * 4096
    (ends ++ ends.map (· - 4096)).all (fun x =>
      decide ((mine.map (fun (y : Nat × Nat × List Window) => spanBytes x y.2.1 y.2.2)).sum * 1000 * n.pow.mhz ≤ reg n 0x1104 0x00 * peak)))

/-! ## Ring fills ahead of use (R150, R151, R180) -/

def planTask (p : Plan) (id : Nat) : Option TaskPlan := p.tasks.find? (·.id == id)

/-- A matrix window opens after the planned completion of the transfers that fill the slots it reads. -/
def readsOk (p : Plan) (t : TaskPlan) : Bool :=
  t.windows.all (fun w => w.reads.all (fun id => (planTask p id).any (fun s => s.windows.all (fun v => decide (v.stop ≤ w.start)))))

/-- A transfer that fills a slot for a micro-batch and layer is read by a matrix window of that work. -/
def isRead (p : Plan) (i l id : Nat) : Bool :=
  (tasksOf p (.rows i l)).any (fun t => t.windows.any (fun w => engMatrix w.eng && w.reads.contains id))

def overlaps (v w : Window) : Bool := decide (v.start < w.stop) && decide (w.start < v.stop)

/-- The layer worked before a layer. -/
def layerBefore (ls : List Nat) (l : Nat) : Option Nat := if ls.idxOf l = 0 then none else ls[ls.idxOf l - 1]?

/-- Slots of the ring that a plan's transfers fill: at least three (R150). -/
def ringSlots (p : Plan) (c r : Nat) : Nat :=
  ((p.rings.find? (fun x => x.1 == c && x.2.1 == r)).map (fun x => BRing.slots x.2.2)).getD 0

/-- The transfers that fill the first slots of a streamed layer overlap the matrix windows of the layer before it. -/
def firstFillsOk (d : Dev) (p : Plan) (b : Batch) (i l k : Nat) : Bool :=
  let ts := tasksOf p (.weights i l k 0 0)
  let slots := ((ts.head?.map (fun t => match t.shape with | .weights _ _ c r _ => ringSlots p c r | _ => 0)).getD 0)
  match layerBefore (batchLayers d b) l with
  | none => true
  | some m =>
    let matrix := ((tasksOf p (.rows i m)).flatMap (·.windows)).filter (fun w => engMatrix w.eng)
    (ts.take slots).all (fun t => t.windows.all (fun v => matrix.any (overlaps v)))

/-- The half that LIVE_BUF will hold in the planned frame (R177). -/
def plannedHalf (d : Dev) (v : Nat) : Bool := (variant d v).any (fun r => r.liveB != r.flipSeen)

/-- The half that a micro-batch reads: for a check, the one that is not live. -/
def batchHalf (d : Dev) (b : Batch) (v : Nat) : Bool := plannedHalf d v != batchChecks b

/-- Every pass through a streamed layer is fed by ring fills, each read (R151); every patch that a micro-batch's variants have on a layer
is copied from the buffer half planned (R177, R180). -/
def feedsOk (d : Dev) (p : Plan) : Bool :=
  p.tasks.all (readsOk p) &&
  p.batches.zipIdx.all (fun x => match batchBook d x.1 with
    | none => false
    | some c => (batchLayers d x.1).all (fun l =>
      (!c.streamLayers.contains l ||
        (appClusters d x.1.app).all (fun k => (priceOf c l (engTe k)).isNone ||
          (!(tasksOf p (.weights x.2 l k 0 0)).isEmpty && firstFillsOk d p x.1 x.2 l k))) &&
      (batchVariants x.1).all (fun v => (patchesAt d v l).isEmpty ||
        !(tasksOf p (.patch x.2 l v (batchHalf d x.1 v))).isEmpty))) &&
  p.tasks.all (fun t => match t.shape with
    | .weights i l c r s => decide (3 ≤ ringSlots p c r) && decide (s < ringSlots p c r) && isRead p i l t.id
    | .patch i l v b => (batchAt p i).any (fun y => b == batchHalf d y v) && isRead p i l t.id
    | _ => true)

/-! ## Run tables (R163, R170, R179) -/

/-- Runs of a micro-batch: pieces of one variant side by side. -/
def runsIn : List RowPiece → List (Nat × Nat)
  | [] => []
  | x :: r => match runsIn r with
    | (v, n) :: rest => if v = x.variant then (v, n + x.n) :: rest else (x.variant, x.n) :: (v, n) :: rest
    | [] => [(x.variant, x.n)]

/-- VEC_ADDR × 16 of a variant at a layer on a Hearth, in a half of its slot (R163); none where it does not steer the layer. -/
def vecAddr (d : Dev) (v l h : Nat) (bufB : Bool) : Option Nat :=
  match variant d v, ownedSlot d v with
  | some r, some s =>
    let layers := (List.range r.nLayers).map r.layer
    if !layers.contains l then none
    else
      let p := (partsOf d r.app).length
      let rank := (appSlots d r.app).idxOf s
      let k := (appClusters d r.app).idxOf (clusterOf h)
      let half := if bufB then 8192 / p else 0
      some (reg d 0x3101 (r.app + 1) + rank * (16384 / p) + half + layers.idxOf l * (2 * r.width / (4 * p)) - 2 * (k * r.width / (4 * p)))
  | _, _ => none

/-- A run table entry (R114); none: NONE is set. -/
def runEntry (rows : Nat) (a : Option Nat) : List Byte :=
  leBytes 8 (match a with
    | some x => rows + x / 16 * 2 ^ 16
    | none => rows + 2 ^ 38)

/-- The run table of a micro-batch for a layer's drain on a Hearth: an entry for each run, in row order (R179). -/
def runTable (d : Dev) (b : Batch) (l h : Nat) : List Byte := (runsIn b.rows).flatMap (fun x => runEntry x.2 (vecAddr d x.1 l h (batchHalf d b x.1)))

/-- A run table lies in a CONTROL region, on a 64-byte address (R371). -/
def runPlanOk (d : Dev) (p : Plan) (x : RunPlan) : Bool :=
  match batchAt p x.batch with
  | none => false
  | some b =>
    let len := (runTable d b x.layer x.hearth).length
    x.addr % 64 == 0 && runOk x.addr len && hitsControl d x.hearth x.addr 1 && hitsControl d x.hearth (x.addr + len - 1) 1

def runsApart (d : Dev) (p : Plan) : List RunPlan → Bool
  | [] => true
  | x :: r =>
    let len := fun (y : RunPlan) => ((batchAt p y.batch).map (fun b => (runTable d b y.layer y.hearth).length)).getD 0
    r.all (fun y => x.hearth != y.hearth || decide (x.addr + len x ≤ y.addr) || decide (y.addr + len y ≤ x.addr)) && runsApart d p r

/-- Every steering-point drain has its run table. -/
def runTablesOk (d : Dev) (p : Plan) : Bool :=
  p.runTables.all (runPlanOk d p) && runsApart d p p.runTables &&
  p.batches.zipIdx.all (fun x => match appAt d x.1.app with
    | none => false
    | some a => batchBack x.1 || (batchLayers d x.1).all (fun l => (((a.book.steering.find? (·.1 == l)).map (·.2)).getD []).all (fun h =>
        (p.runTables.filter (fun y => y.batch == x.2 && y.layer == l && y.hearth == h)).length == 1)))

/-- The variants that a plan names hold LIVE slots, pinned for the use that names them (R170, R171). -/
def slotsNamed (d : Dev) (p : Plan) : Bool :=
  p.batches.all (fun b => b.rows.all (fun x => !holdsRec d x.variant ||
    (match ownedSlot d x.variant with
     | some s => (slot d s).st == 2 && decide (0 < (slot d s).pin) && d.ink.bound.any (fun y => y.1 == x.use && y.2.1 == s)
     | none => false)))

/-- The copybook's scale of a layer, head and kind (R203). -/
def kvScale (c : Copybook) (l h k : Nat) : Option Word := (c.kvScales.find? (fun x => x.1 == l && x.2.1 == h && x.2.2.1 == k)).map (·.2.2.2)

/-- The row scales of a micro-batch's key/value writes: the copybook's one scale in each row (R203). -/
def scaleRows (d : Dev) (p : Plan) (x : ScalePlan) : List Byte :=
  match batchAt p x.batch with
  | none => []
  | some b => match (appAt d b.app).bind (fun a => kvScale a.book x.layer x.head x.kind) with
    | some w => wordBytes (List.replicate (batchTotal b) w)
    | none => []

/-- Scales lie in a CONTROL region, at a place that RS_ADDR can name. -/
def scalePlanOk (d : Dev) (p : Plan) (x : ScalePlan) : Bool :=
  let len := (scaleRows d p x).length
  len != 0 && x.addr % 64 == 0 && runOk x.addr len && hitsControl d x.hearth x.addr 1 && hitsControl d x.hearth (x.addr + len - 1) 1

/-- The scales of every head of each layer are there for the micro-batches that append key/value entries, and none lies on a run table
or on others (R203) (DESIGN CHOICE: log entry 176). -/
def scalesOk (d : Dev) (p : Plan) : Bool :=
  p.scales.all (scalePlanOk d p) &&
  p.scales.zipIdx.all (fun x => p.scales.zipIdx.all (fun y => x.2 == y.2 || x.1.hearth != y.1.hearth ||
    decide (x.1.addr + (scaleRows d p x.1).length ≤ y.1.addr) || decide (y.1.addr + (scaleRows d p y.1).length ≤ x.1.addr))) &&
  p.scales.all (fun x => p.runTables.all (fun y => x.hearth != y.hearth ||
    decide (x.addr + (scaleRows d p x).length ≤ y.addr) || decide (y.addr + 8 * 128 ≤ x.addr))) &&
  p.batches.zipIdx.all (fun x => x.1.chunk.isSome || (batchLayers d x.1).all (fun l =>
    (List.range (((appAt d x.1.app).map (·.book.kvHeads)).getD 0)).all (fun h => [0, 1].all (fun k =>
      p.scales.any (fun y => y.batch == x.2 && y.layer == l && y.head == h && y.kind == k)))))

/-- The run tables and the key/value scales are written at the cut-off (R115, R179, R203). -/
def writeTables (d : Dev) (p : Plan) : Dev :=
  let d := forEach p.scales d (fun d x => opPutAll d x.hearth x.addr (scaleRows d p x))
  forEach p.runTables d (fun d x => match batchAt p x.batch with
    | some b => opPutAll d x.hearth x.addr (runTable d b x.layer x.hearth)
    | none => d)

/-! ## Carried work (R32, R64) -/

/-- Descriptors that a task plans for an engine. -/
def plannedOn (t : TaskPlan) (e : Nat) : Nat := ((t.windows.filter (·.eng == e)).map (·.count)).sum

/-- A task resumes carried work where it may, on the same ring, with what is left of its descriptors. -/
def resumeOk (d : Dev) (p : Plan) (t : TaskPlan) : Bool :=
  match t.resumes with
  | none => true
  | some (f, i, k) => d.frame.carry.any (fun c =>
      c.frame == f && c.id == i && (resumePoints c).contains k && t.cls == .housekeeping && t.part == c.plan.part &&
      workOf t.shape == workOf c.plan.shape && t.drain == c.plan.drain && t.fill.isNone && t.controls == c.plan.controls &&
      p.binds.any (fun b => b.1 == t.stream && b.2 == c.ring) &&
      (engsOf [c.plan] ++ engsOf [t]).all (fun e =>
        plannedOn t e == plannedOn c.plan e || (plannedOn t e == 0 && (keptCounts c k).get 0 e == plannedOn c.plan e)))

/-- A task of an application: it runs in the next frame, and a reload plan holds housekeeping alone (R333, R381). -/
def taskAppOk (d : Dev) (t : TaskPlan) : Bool :=
  match appOfPart d t.part with
  | none => false
  | some a => (appAt d a).any (fun x => !x.stopped) && !haltedNext d a && (t.cls == .housekeeping || !reloadFrame d a (d.frame.no + 1))

/-- Carried work of an application that runs is planned again, once; a fill takes its fill window instead (R172). -/
def carriedOk (d : Dev) (p : Plan) : Bool :=
  d.frame.carry.all (fun c => c.plan.fill.isSome || !taskAppOk d c.plan ||
    (p.tasks.filter (fun t => t.resumes.any (fun x => x.1 == c.frame && x.2.1 == c.id))).length == 1)

/-- Scribe tasks that the cut-off has planned have their tasks (R244). -/
def scribesOk (d : Dev) (p : Plan) : Bool :=
  d.train.scribe.all (fun x => !x.planned || x.running || !(tasksOf p (.scribe x.notice.variant)).isEmpty ||
    p.tasks.any (fun t => t.resumes.isSome && t.shape == .scribe x.notice.variant))

/-- Carry tasks are those of variants in MAPPING, each once (R327); a reload frame loads every partition's half (R333). -/
def basesOk (d : Dev) (p : Plan) : Bool :=
  p.tasks.all (fun t => match t.shape with
    | .carry v => t.cls == .training && (appOfPart d t.part).any (fun a => (entryOf d a v).any (fun e => e.st == jMapping)) &&
        d.frame.tasks.all (fun y => y.2.all (fun z => z.plan.shape != t.shape))
    | .reload q => (appOfPart d q).any (fun a => reloadFrame d a (d.frame.no + 1))
    | _ => true) &&
  (liveApps d).all (fun x => x.2.stopped || !reloadFrame d x.1 (d.frame.no + 1) ||
    (partsOf d x.1).all (fun q => reloadBytes d x.1 q == 0 || !(tasksOf p (.reload q)).isEmpty))

/-! ## Recalibrations (R121) -/

/-- Every channel that is due recalibrates once, as a task of its own inside the housekeeping slice. -/
def recalsOk (d n : Dev) (p : Plan) : Bool :=
  (p.recals.map (·.1)).eraseDups.length == p.recals.length &&
  p.recals.all (fun x => decide (x.1 < 32) && recalDue n (d.frame.no + 1) x.1 && decide (hkStart n ≤ x.2) && decide (x.2 + recalHclk ≤ guardStart n)) &&
  (List.range 32).all (fun k => !recalDue n (d.frame.no + 1) k || p.recals.any (·.1 == k))

/-- Tally slots are mapped to streams that the plan has as written or read, and to its tasks (R85, R86). -/
def streamsOk (p : Plan) : Bool :=
  p.tallyMap.all (fun x => (decide (8192 ≤ x.2.1) || p.numStreams.contains x.2.1) && p.tasks.any (·.id == x.2.2))

/-! ## The plan (R22, R23, R27 to R30, R65) -/

/-- What the planner may plan for the next frame: it admits no shape that breaks the fit (R29). Everything due is planned, and no
window takes another's hclk, so that no class keeps the first claim of another from it (R24) (DEDUCED: log entry 30). -/
def planOk (d : Dev) (slips : List Nat) (p : Plan) : Bool :=
  let n := nextFrame d
  p.tasks.all (fun t => t.windows.all (windowOk n t) && t.handoffs.all (handOffOk n) && fillOk n t && drainOk n t &&
    taskAppOk d t && !unitGone d t && decide (t.part < 8) && p.binds.any (fun b => b.1 == t.stream) &&
    resumeOk d p t && (if t.resumes.isSome then resumedCost d n p t else costOk d n p t)) &&
  decide (bookSeam d ≤ p.seam) && allApart p.seam (p.tasks.flatMap (·.windows)) &&
  (p.tasks.map (·.id)).eraseDups.length == p.tasks.length &&
  (p.binds.map (·.1)).eraseDups.length == p.binds.length && p.binds.all (fun b => streamOk b.1 && decide (b.2 < 32768)) &&
  (p.tiles.map (·.1)).eraseDups.length == p.tiles.length &&
  batchesOk d p && seqsOk d slips p && chunksOk d p && layersOk d p && scrubsOk n p && ddrOk d n p && feedsOk d p && runTablesOk d p && scalesOk d p && slotsNamed d p &&
  carriedOk d p && scribesOk d p && basesOk d p && contribsOk d p && boostOk n p && recalsOk d n p && streamsOk p

end Sys2Proof.Machine
end

