-- ==== Sys2Proof/Machine/Frames.lean ====
section
/-!
DEFINITION. Frames and the tick: tick sources and holdover, the admission cut-off and the plan, window closes, the guard band, and
the ordered actions of a tick edge (R12 to R37).
-/
namespace Sys2Proof.Machine
open Sys2Proof

def setFrame (d : Dev) (f : FrameS → FrameS) : Dev := { d with frame := f d.frame }

/-! ## Tick sources and alignment (R12 to R17) -/

/-- A manager's TICK has reached this device, which is none itself: it counts FRAME_NO from them (R12) (DEDUCED: log entry 131). -/
def follows (d : Dev) : Bool := !isManager d && d.lig.manager != 0xFFFFFFFF

/-- TICK_SOURCE in effect (R12): LIGATURE is no source of a manager, nor LOCAL one of a device with a manager; each then has the
source of its role (DEDUCED: log entry 27). -/
def tickSource (d : Dev) : Nat :=
  let k := reg d 0x1020 0x00
  if isManager d && k == 1 then 0 else if follows d && k == 0 then 1 else k

/-- Picoseconds of ±50 ns (R14). -/
def tickBound : Nat := 50000
/-- hclk in ps, and ps in hclk, at the clock in force. -/
def psOfHclk (d : Dev) (n : Int) : Int := n * 1000000 / (d.pow.mhz : Int)
def hclkOfPs (d : Dev) (ps : Nat) : Nat := ps * d.pow.mhz / 1000000

def setError (d : Dev) (e : Int) : Dev := setReg (setFrame d (fun f => { f with error := e })) 0x1022 0x00 (ofSigned 32 e)

/-- A change of a guard band, which cannot become shorter than nothing. -/
def clipGuard (d : Dev) (k : Int) : Int := max k (-((periodHclk d - guardStart d : Nat) : Int))

/-- The change of a guard band that an error calls for: in LOCKED the next edge lies one period after the manager's (R13); while
the device realigns it is at most 85 hclk, and none within the bound (R16) (DESIGN CHOICE: log entry 120). -/
def guardFor (d : Dev) (tick : TickState) (e : Int) : Int :=
  let k : Int := hclkOfPs d e.natAbs
  let signed := fun (k : Int) => if 0 < e then -k else k
  match tick with
  | .locked => clipGuard d (signed k)
  | .holdover => 0
  | .realigning => if e.natAbs ≤ tickBound then 0 else signed (min 85 k)
  | .expired => if e.natAbs ≤ tickBound then 0 else signed (min 85 k)

/-- The tick's edge, in ps from this device's latest edge, belongs to that edge, or to the coming one: the nearer. -/
def nearLast (d : Dev) (t : Int) : Bool := 2 * t < psOfHclk d (periodHclk d)

/-- Within 0.25 frame periods of the edge it belongs to, or after a loss, a tick's edge counts (R16) (DEDUCED: log entry 131). -/
def tickCounts (d : Dev) (t : Int) : Bool :=
  let len := psOfHclk d (periodHclk d)
  d.frame.timer || 4 * t < len || 3 * len ≤ 4 * t

/-- The tick has come, its edge `t` ps after this device's latest edge (R13, R15, R16): the error of the nearer edge is measured; a
device in HOLDOVER enters REALIGNING, one in EXPIRED stays (DEDUCED: log entry 25) (DEDUCED: log entry 121). The error of the latest
edge changes this frame's guard band. -/
def tickCame (d : Dev) (t : Int) : Dev :=
  if !tickCounts d t then d
  else
    let e := if nearLast d t then -t else psOfHclk d (periodHclk d) - t
    let tick := if d.frame.tick = .holdover then .realigning else d.frame.tick
    setFrame (setError d e) (fun f => { f with
      timer := false, holdRun := 0, tick := tick, guardAdj := if nearLast d t then guardFor d tick e else f.guardAdj })

/-- The guard band of the frame that an edge begins (R13, R16): the last frame's change has moved the edge; within the bound
REALIGNING ends, else this frame's guard band changes (DESIGN CHOICE: log entry 120). -/
def realign (d : Dev) : Dev :=
  if tickSource d = 0 ∨ d.frame.timer then setFrame d (fun f => { f with guardAdj := 0 })
  else
    let e := d.frame.error + psOfHclk d d.frame.guardAdj
    let tick := if d.frame.tick = .realigning ∧ e.natAbs ≤ tickBound then .locked else d.frame.tick
    setFrame d (fun f => { f with error := e, tick := tick, guardAdj := guardFor d tick e })

/-- Bytes of a TICK body: the correction, the manager's term, and the changes (layout of the model: log entry 20). -/
def tickBody (correction term : Nat) (changes : List (Nat × Nat × Nat)) : List Byte :=
  leBytes 8 correction ++ leBytes 4 term ++ changes.flatMap (fun x => leBytes 4 x.1 ++ leBytes 8 x.2.1 ++ leBytes 8 x.2.2)

/-- Children in the relay tree. -/
def relayChildren (d : Dev) : List Nat := (d.lig.tables.map (fun t => t.children)).getD []

/-- A TICK for each child. -/
def sendTicks (d : Dev) (src epoch stamp : Nat) (body : List Byte) : Dev :=
  forEach (relayChildren d) d (fun d v =>
    sendMsg d { kind := 0x01, vc := 0, cls := 3, dstUnit := 8, dstDevice := v, srcDevice := src, srcUnit := 8, tag := 0, hops := 15,
                epoch := epoch, stamp := stamp, addr := 0, seg := 0, segs := 1, arg := 0, body := body } .first)

/-- Pending period and fraction changes (R20, R22). -/
def pendingChanges (d : Dev) : List (Nat × Nat × Nat) :=
  (d.waiting.filter (fun w => w.key / 256 == 0x1010 || w.key / 256 == 0x1011)).map (fun w => (w.key, w.value, w.edge))

/-- The period and fractions in force, which a joining worker mirrors (R20): with 0 for their edge. -/
def inForce (d : Dev) : List (Nat × Nat × Nat) :=
  [(0x1010, 0x00), (0x1011, 0x01), (0x1011, 0x02), (0x1011, 0x03), (0x1011, 0x04)].map (fun x => (entry x.1 x.2, reg d x.1 x.2, 0))

/-- A worker mirrors a value in force from the next edge, and a change at the edge that the manager named (R20). -/
def mirror (d : Dev) (x : Nat × Nat × Nat) : Dev :=
  if x.2.2 ≠ 0 then defer d x.1 x.2.1 x.2.2
  else if reg d (x.1 / 256) (x.1 % 256) = x.2.1 then d
  else { d with waiting := { key := x.1, value := x.2.1, edge := d.frame.no + 1 } :: d.waiting }

/-- The manager's TICK at its edge, announcing the next one (R13). -/
def managerTick (d : Dev) : Dev :=
  if !isManager d then d
  else sendTicks d (ownDevice d) (reg d 0x4001 0x01) (d.frame.no + 1) (tickBody 0 (reg d 0x4002 0x00) (pendingChanges d ++ inForce d))

/-- The correction as a relay passes it on: its residence time and the delay of its upstream link added (R13). -/
def relayed (d : Dev) (op : TickMsg) : Nat := op.correction + op.residence + reg d 0x1023 0x00

/-- The manager's edge as a TICK shows it: its arrival less the correction, to which this device adds the delay of its own link,
in ps from this device's latest edge (R13). -/
def tickAt (d : Dev) (op : TickMsg) : Int := psOfHclk d d.frame.off - ((op.correction + reg d 0x1023 0x00 : Nat) : Int)

/-- A TICK for this device: the term, the number of the next frame, the manager's edge, the changes; then it is relayed. A term older
than the highest seen is not followed (R293) (DEDUCED: log entry 26) (DEDUCED: log entry 28). -/
def takeTick (d : Dev) (op : TickMsg) : Dev :=
  if op.term < reg d 0x4002 0x00 ∨ (isManager d ∧ op.term = reg d 0x4002 0x00) then d
  else
    let d := seeTerm d op.term
    let d := { d with lig := { d.lig with lastTick := d.frame.no, manager := op.msg.srcDevice } }
    let d := setFrame d (fun f =>
      if nearLast d (tickAt d op) then { f with announced := some op.msg.stamp } else { f with announcedNext := some op.msg.stamp })
    let d := if tickSource d = 1 then tickCame d (tickAt d op) else d
    let d := forEach op.changes d mirror
    sendTicks d op.msg.srcDevice op.msg.epoch op.msg.stamp (tickBody (relayed d op) op.term op.changes)

/-- A frame's first quarter has passed without its tick (R16): HOLDOVER, whose first frame is this one (DESIGN CHOICE: log entry 24). -/
def holdoverEntry (d : Dev) : Dev :=
  let missed := match tickSource d with
    | 1 => d.frame.announced.isNone
    | 2 => !d.frame.tickIn
    | _ => false
  if !running d ∨ !missed ∨ d.frame.timer then d
  else
    let d := setFrame (raise d 1 0 0) (fun f => { f with
      timer := true, guardAdj := 0, holdRun := 1, tick := if f.tick = .expired then .expired else .holdover })
    bump d 0x1048 0x03 1

/-- HOLDOVER_LIMIT frames in HOLDOVER (R16). -/
def holdoverExpired (d : Dev) : Dev :=
  if d.frame.tick = .holdover ∧ reg d 0x1021 0x00 ≤ d.frame.holdRun then
    raise (setFrame d (fun f => { f with tick := .expired })) 2 0 0
  else d

/-- PPS_IN is used (R17): by a manager, whose source is LOCAL or PIN, or a device that no manager's TICK has reached, with PPS_ENABLE
set (DEDUCED: log entry 131). -/
def usesPps (d : Dev) : Bool := (isManager d || d.lig.manager == 0xFFFFFFFF) && reg d 0x1030 0x00 == 1

/-- The change of the guard band that puts a tick edge on a pulse (R17): one in the guard band ends it; after any other the next edge
lies one period later, so that an edge falls on each pulse to come (DEDUCED: log entry 34). -/
def ppsGuard (d : Dev) : Int :=
  if guardStart d ≤ d.frame.off then (d.frame.off : Int) - periodHclk d else d.frame.off

/-- A rising edge on PPS_IN: it places the tick edge where the period divides a second, and its time tells WALL_TIME of the next edge
(DEDUCED: log entry 34). -/
def ppsEdge (d : Dev) (op : EdgePinOp) : Dev :=
  if !usesPps d then d
  else setFrame d (fun f => { f with
    pps := some (op.wall, f.off), guardAdj := if 1000000 % reg d 0x1010 0x00 = 0 then ppsGuard d else f.guardAdj })

/-! ## Window closes and the guard band (R31 to R37) -/

/-- A hold is in force while the tile's owner has not drained it (R61). -/
def holdStands (d : Dev) (x : Stream) (k : Nat) : Bool :=
  let d := ductEnter d (k / 16)
  (tile d k).owner.any (· != x.ring)

/-- A task's head descriptor is held on a tile at an engine (R61); `none`: at any engine. -/
def heldAt (d : Dev) (t : Task) (id : Nat) (eng : Option Nat) : Bool :=
  let x := stream d t.plan.stream
  x.tasks.head? == some id && x.held.any (fun y => eng.all (· == y.2) && holdStands d x y.1)

/-- A task that is stopped at its window's close is counted once (R37) (DEDUCED: log entry 31). -/
def countOverrun (d : Dev) (id : Nat) : Dev :=
  match task d id with
  | none => d
  | some t =>
    if t.overrun then d
    else
      let p := t.plan.part
      markOverrun (addInc (bumpPart (setTask d id { t with overrun := true }) 0x1043 p 1) p 3 1) p

/-- A task's operations on an engine stop; its transfers are carried or cut. -/
def closeEngine (d : Dev) (id eng : Nat) : Dev :=
  if 1024 ≤ eng ∧ eng < 1056 then closeXfers d id (eng - 1024) else stopEngine d id eng

/-- The held operand block of an array is released with the task's window (R67). -/
def releaseHeld (d : Dev) (eng : Nat) : Dev :=
  if eng < 1024 ∧ eng % 4 < 2 then
    let k := arrayKey (eng / 4) (eng % 4)
    setArray d k { array d k with held := none }
  else d

/-- A window of a task on an engine closes: what has not completed never will, and the task is late, or fails on a hold (R32, R33). -/
def windowClose (d : Dev) (id eng : Nat) : Dev :=
  match task d id with
  | none => d
  | some t =>
    let ws := t.plan.windows.filter (fun w => w.eng == eng)
    let ended := ws.filter (fun w => decide (w.stop ≤ d.frame.off))
    if ended.isEmpty ∨ t.closed.contains eng then d
    else
      let last := ended.length == ws.length
      let d := if eng < 1024 ∧ eng % 4 = 2 then ductEnter d (eng / 4) else d
      let d := if last then setTask d id { t with closed := eng :: t.closed } else d
      let d := releaseHeld d eng
      let d := match t.plan.drain with
        | some a => if last ∧ t.status ≠ .failed then drained d a (windowsLen ws) else d
        | none => d
      if (ended.map (·.count)).sum ≤ t.completed.get 0 eng then d
      else if t.status = .live ∧ heldAt d t id (some eng) then failTask d id .accConflict
      else if t.status = .live ∨ t.status = .late then closeEngine (countOverrun (lateTask d id) id) id eng
      else d

/-- Tasks of the plan in force. -/
def taskList (d : Dev) : List (Nat × Task) := d.frame.tasks.filterMap (fun x => x.2.map (fun t => (x.1, t)))

/-- The first hclk of the guard band (R31, R32): nothing issues, what has not completed is late; without a complete plan the next
frame runs none. -/
def guardBand (d : Dev) : Dev :=
  if !running d ∨ d.frame.guard then d
  else
    let d := setFrame d (fun f => { f with guard := true })
    let d := forEach (taskList d) d (fun d x =>
      if x.2.status ≠ .live then d
      else if heldAt d x.2 x.1 none then failTask d x.1 .accConflict else lateTask d x.1)
    if d.frame.next.isNone then raise (bump d 0x1048 0x02 1) 3 0 0 else d

/-! ## The admission cut-off (R27) -/

/-- Slipped tokens beyond SLIP_SLOTS wait, and each wait is counted (R200, R380). -/
def countSlips (d : Dev) (slips : List Nat) : Dev :=
  let late := slips.drop (reg d 0x3008 0x00)
  forEach late (bump d 0x3030 0x08 late.length) (fun d k => timing d (k / 2 ^ 192) 3 1)

/-- Chunks that slipped take slip places, sequence by sequence, while TRAIN_SLIP_ROWS rows last, and are due in the next frame; the
others wait a frame more, each counted. Each sequence moves on by the frames lost, at every stage (R225). -/
def slipCut (d : Dev) : Dev :=
  let next := d.frame.no + 1
  (forEach (firstSlips d.frame.slipped) (d, reg d 0x6009 0x00) (fun y c =>
    let mine := y.1.frame.slipped.filter (fun x => sameSeq c x.1)
    let rest := y.1.frame.slipped.filter (fun x => !sameSeq c x.1)
    let rows := (mine.map (·.2.2)).sum
    let from_ := (mine.map (·.2.1)).foldl min next
    if rows ≤ y.2 then (slipSeq (setFrame y.1 (fun f => { f with slipped := rest })) c (next - from_), y.2 - rows)
    else
      let d := setFrame y.1 (fun f => { f with slipped := rest ++ mine.map (fun x => (x.1, x.2.1 + (next + 1 - from_), x.2.2)) })
      (slipSeq (bump d 0x6010 0x04 mine.length) c (next + 1 - from_), y.2))).1

/-- The admission cut-off (R27): the Flue reads and decides, orders pass it, admission closes, and the plan of the next frame is
built. A plan that is not complete when the guard band begins is none (R31). -/
def cutoff (d : Dev) (op : CutoffOp) : Dev :=
  if !running d ∨ d.frame.cut then d
  else
    let d := atOff d (trainStart d)
    let d := flueCut d op.sensors
    let d := { d with num := { d.num with rateNext := if reg d 0x5040 0x00 = 1 then some (reg d 0x5040 0x01) else none } }
    let d := variantsCut (baseCut (unitsCut (revokeCut (resetsCut d))))
    let d := parkCut (admitCut d)
    let d := countSlips (trainCut (slipCut d)) op.slips
    let d := setFrame d (fun f => { f with cut := true, next := none })
    match op.plan with
    | none => d
    | some p =>
      if d.frame.guard || !planOk d op.slips p then d
      else
        let d := pinPlan (coldCut (forEach p.numStreams (setFrame d (fun f => { f with next := some p })) (planStep p))) p
        writeTables (expectContribs d p) p

/-! ## The end of a frame (R34, R37) -/

/-- Operations still in flight: on the arrays, in the Ductus, and transfers in ACTIVE or RING_WAIT (DEDUCED: log entry 32). -/
def inFlight (d : Dev) : Nat :=
  (d.hearth.arrays.map (fun x => x.2.queue.length)).sum + (d.hearth.ductus.map (fun x => x.2.length)).sum +
    (d.mem.te.map (fun x => (x.2.filter (fun y => y.st == 2 || y.st == 3)).length)).sum

/-- What is still in flight is stopped as at a window's close, and counted (R34) (DESIGN CHOICE: log entry 29). -/
def breach (d : Dev) : Dev :=
  let k := inFlight d
  let d' := forEach (taskList d) d (fun d x => forEach (taskEngines x.2) (lateTask d x.1) (fun d e => closeEngine d x.1 e))
  if k = 0 then d' else raise (bump d' 0x1048 0x01 k) 4 0 0

/-- One OVERRUN for each partition with a lateness in the frame that has ended, at the edge (R37, R420). -/
def overrunEvents (d : Dev) : Dev :=
  let d := forEach ((List.range 8).filter (fun p => d.frame.overrun.contains p)) d (fun d p =>
    raiseReport d (partSrc p 0) 0 (BitVec.ofNat 512 (packBits
      [(0, 32, p), (64, 64, d.frame.no - 1), (128, 64, d.frame.inc.get 0 (4 * p)), (192, 64, d.frame.inc.get 0 (4 * p + 1)),
       (256, 64, d.frame.inc.get 0 (4 * p + 2)), (320, 64, d.frame.inc.get 0 (4 * p + 3))])))
  setFrame d (fun f => { f with inc := [], overrun := [] })

/-- Resume records of transfers that ended: IDLE (R144) (DEDUCED: log entry 43). -/
def resumeEdge (d : Dev) : Dev :=
  { d with mem := { d.mem with resume := d.mem.resume.mapVals resumeIdle (fun r =>
      if r.st = 5 ∨ r.st = 6 ∨ r.st = 7 then { r with st := 0 } else r) } }

/-- Carried housekeeping work, and failed work that is queued again from its start (R32, R64). -/
def carryEdge (d : Dev) : Dev :=
  let work := fun (failed : Bool) (id : Nat) => (task d id).map (fun t =>
    { frame := d.frame.no, id := id, plan := t.plan, ring := (stream d t.plan.stream).ring, start := t.start,
      order := if failed then [] else t.order, completed := if failed then [] else t.completed : Carry })
  setFrame d (fun f => { f with
    carry := f.carry ++ f.carried.filterMap (work false) ++ f.again.filterMap (work true), again := [] })

/-- The frame that ends: what is in flight stops; completed units advance; tallies are handed off and FRAME streams close their step;
fills and drains are taken into account. -/
def frameEnds (d : Dev) : Dev :=
  let d := carryEdge (resumeEdge (breach (guardBand d)))
  let d := sweepContribs (seqsEnd d)
  let d := tallyHandOff d
  let d := forEach (d.frame.numStreams.filter (fun st => !(streamRec d st).training)) d (fun d st => closeStep d st (0, 0))
  tracerEdge (drainsEdge (fillsEdge d))

/-! ## The edge actions (R25) -/

/-- FRAME_NO of the frame that begins (R12, R18): one more; a device that follows a manager counts from its TICKs, the first of which
it adopts, and is never behind them (DEDUCED: log entry 26). -/
def nextNo (d : Dev) : Nat :=
  let f := d.frame
  let told := (f.announcedNext.map (· - 1)).or f.announced
  match told with
  | some n => if follows d && (!f.adopted || f.no < n) then n else f.no + 1
  | none => f.no + 1

/-- WALL_TIME of the edge that begins a frame: the time that the last frame's pulse tells, or the device's own. -/
def edgeTime (d : Dev) (len wall : Nat) : Nat :=
  match d.frame.pps with
  | some (t, off) => t + (len - off) * 1000 / d.pow.mhz
  | none => wall

/-- Step 1: FRAME_NO and WALL_TIME; a frame on the own timer is counted while its tick is lost (R16). -/
def newFrame (d : Dev) (wall : Nat) : Dev :=
  let len := ((periodHclk d : Int) + d.frame.guardAdj).toNat
  let no := nextNo d
  let wall := edgeTime d len wall
  let d := setFrame d (fun f => { f with
    no := no, off := 0, base := f.base + len, cut := false, guard := false, announced := f.announcedNext, announcedNext := none
    adopted := f.adopted || f.announced.isSome || f.announcedNext.isSome, pps := none
    tickIn := f.tickInNext, tickInNext := false,
    holdRun := if f.timer ∧ f.tick = .holdover then f.holdRun + 1 else f.holdRun })
  let d := if d.frame.timer ∧ (d.frame.tick = .holdover ∨ d.frame.tick = .expired) then bump d 0x1048 0x03 1 else d
  let d := { d with ash := { d.ash with perFrame := 0 } }
  realign (setReg (bump d 0x0006 0x00 1) 0x1031 0x00 wall)

/-- Step 3 and what else waits for an edge before the bases: topology, units, halts and keys. -/
def unitsEdge (d : Dev) : Dev :=
  let topology := topologyDue d
  let d := modulesEdge (portsEdge (topologyEdge d) topology)
  let d := if topology then nameBuddies d else d
  let d := degradeEdge (remapEdge (resetsEdge (fecEdge d) topology))
  let d := takeOverEdge (unreachEdge (channelsEdge (sleepEdge d)))
  let d := sourcesEdge (policyEdge (serviceEdge d))
  let d := sentEdge (inSlotsEdge (dataLostEdge (haltsEdge (keysEdge d))))
  let d := publishLoad (publishOwn d)
  if topology then publishSystem d else d

/-- Step 4: base switches; a restore that stops an application ends an operation not complete (R332, R339). -/
def basesEdge (d : Dev) : Dev :=
  let d := switchesEdge d
  forEach (d.snap.apps.filter (fun x => x.2.stopAt == some d.frame.no)) d (fun d x => baseRestored d x.1)

/-- Step 5: withdrawals and replacements. -/
def withdrawalsEdge (d : Dev) : Dev :=
  let d := forEach (withdrawSeen d) d (fun d v => withdrawEffect (cancelScribe (endJobsOf d v causeWithdrawn) v) v)
  forEach (d.ink.recs.map (·.1)) d replaceEffect

/-- Step 6: flips, each with its step's end, and its training streams' steps (R85, R177). -/
def flipsEdge (d : Dev) : Dev :=
  forEach (flipsDue d) d (fun d v =>
    let d := flipEffect d v
    forEach (stepsLive d v) (flipJob d v) (fun d x => closeTraining d (x.1 + 1, x.2)))

/-- Step 7: admissions and ends; restores; training. -/
def resultsEdge (d : Dev) (op : TickEdgeOp) : Dev :=
  let stops := (d.snap.apps.filter (fun x => x.2.stopAt == some d.frame.no)).map (·.1)
  let d := forEach stops (restoresEdge (genEdge d)) takePlacement
  unpinsEdge (trainEdge d op)

/-! ## Plan release (step 8) -/

/-- The owner of the SRAM line of a byte under a plan's runs. -/
def lineOwner (l : List LineRun) (well : Bool) (unit off : Nat) : Option Nat :=
  (l.find? (fun r => r.well == well && r.unit == unit && decide (r.lo ≤ off / 64 * 64) && decide (off / 64 * 64 < r.hi))).map (·.owner)

/-- A byte of an Inkstone lies in the Inkwell band of its application (R161, R370). -/
def inBand (d : Dev) (c off : Nat) : Bool :=
  match appOfPart d (partOfCluster c) with
  | none => false
  | some a =>
    let base := reg d 0x3101 (a + 1) - inkBase
    decide (base ≤ off) && decide (off < base + 512 * 16384)

/-- Lines that change hands, or belong to nobody, read as unwritten (R370). -/
def flagLines (d : Dev) (next : List LineRun) : Dev :=
  let keeps := fun (well : Bool) (unit off : Nat) =>
    (lineOwner (d.mem.resident ++ d.mem.control) well unit off).isSome ||
      (match lineOwner d.mem.lines well unit off, lineOwner next well unit off with
       | some a, some b => a == b
       | _, _ => false)
  { d with mem := { d.mem with
    well := d.mem.well.filter (fun x => keeps true (x.1 / wellSize) (x.1 % wellSize))
    ink := d.mem.ink.filter (fun x => inBand d (x.1 / inkSize) (x.1 % inkSize) || keeps false (x.1 / inkSize) (x.1 % inkSize))
    lines := next } }

/-- Semaphores take the plan's values, carried ones keep theirs, and no POISON stays (R133). -/
def releaseSems (d : Dev) (p : Plan) : Dev :=
  let planned := p.sems.foldl (fun (t : Table Nat) x => t.set 0 (1024 * x.1 + x.2.1) x.2.2) []
  let sems := p.carriedSems.foldl (fun (t : Table Nat) x => t.set 0 (1024 * x.1 + x.2) (sem d x.1 x.2)) planned
  { d with mem := { d.mem with sems := sems, poison := [] } }

/-- A ring that the plan does not name: ENABLED, CARRY, HEAD, TAIL, COUNT and POISONED become 0 (R134). -/
def ringOff (v : BitVec 128) : BitVec 128 := setField (setField v 40 13 0) 73 3 0

/-- Buffer rings take the plan's entries; one that carries in both plans keeps its slots (R134). -/
def releaseRings (d : Dev) (p : Plan) : Dev :=
  let entryOf := fun (x : Nat × Nat × BitVec 128) =>
    let old := bring d x.1 x.2.1
    let new : BitVec 128 := x.2.2
    if old.enabled && old.carry && field new 75 1 == 1 then
      setField (setField (setField (setField new 40 4 (field old 40 4)) 44 4 (field old 44 4)) 48 5 (field old 48 5)) 74 1 (field old 74 1)
    else new
  let kept := (p.rings.filter (fun x => (bring d x.1 x.2.1).enabled && (bring d x.1 x.2.1).carry && field x.2.2 75 1 == 1)).map
    (fun x => 64 * x.1 + x.2.1)
  { d with mem := { d.mem with
    brings := p.rings.foldl (fun (t : Table (BitVec 128)) x => t.set 0 (64 * x.1 + x.2.1) (entryOf x)) (d.mem.brings.mapVals 0 ringOff)
    stamps := d.mem.stamps.filter (fun x => kept.contains x.1) } }

/-- Slots stamped for the frame that have arrived in a ring (R137). -/
def slotsIn (d : Dev) (c r : Nat) : Nat := ((d.mem.stamps.get [] (64 * c + r)).filter (· == d.frame.no)).length

/-- A task whose hand-offs have all arrived (R35). -/
def inputsIn (d : Dev) (t : TaskPlan) : Bool := t.inputs.all (fun x => decide (x.2.2 ≤ slotsIn d x.1 x.2.1))

/-- The list of slots that a ring's tasks expect and that have not arrived (R288). -/
def missingSlots (d : Dev) (p : Plan) : List (Nat × Nat × Nat) :=
  let rings := ((p.tasks.flatMap (·.inputs)).map (fun x => (x.1, x.2.1))).eraseDups
  (rings.map (fun r =>
    let want := ((p.tasks.flatMap (·.inputs)).filter (fun x => x.1 == r.1 && x.2.1 == r.2)).map (fun x => x.2.2)
    (r.1, r.2, want.foldl max 0 - slotsIn d r.1 r.2))).filter (fun x => 0 < x.2.2)

/-- The carried work that a task resumes, and where (R32). -/
def resumedWork (d : Dev) (t : TaskPlan) : Option (Carry × Nat) :=
  t.resumes.bind (fun x => (d.frame.carry.find? (fun c => c.frame == x.1 && c.id == x.2.1)).map (fun c => (c, x.2.2)))

/-- A task as it comes into force on the ring of its stream: absent without its inputs; one without any descriptor is done. -/
def startTask (d : Dev) (p : Plan) (t : TaskPlan) : Task :=
  let base := ((p.binds.find? (fun b => b.1 == t.stream)).map (fun b => ringHead (ring d b.2))).getD 0
  let x : Task := { plan := t, status := .live, issued := [], completed := [], closed := [], taken := false, overrun := false, order := [],
                    start := base + t.slot }
  let x := match resumedWork d t with
    | some (c, k) => resumeTask x c k
    | none => x
  if !inputsIn d t then { x with status := .absent }
  else if allComplete x then { x with status := .done } else x

/-- Transfers of carried work belong to the task that resumes it. -/
def takeOverXfers (d : Dev) (t : TaskPlan) : Dev :=
  match resumedWork d t with
  | none => d
  | some (c, _) => { d with mem := { d.mem with carriedX := d.mem.carriedX.mapVals [] (fun l => l.map (fun x =>
      if x.task = c.id ∧ x.frame = c.frame then { x with task := t.id, frame := d.frame.no } else x)) } }

/-- A task has a part on a unit that failed or is under reset since the plan was built (R449, R453). -/
def unitLost (d : Dev) (t : TaskPlan) : Bool :=
  d.pow.resets.any (fun r => (match r.phase with | .ordered _ => false | _ => true) && onScope d r.scope t) ||
    d.pow.outHearths.any (fun h => onHearth h t) || d.pow.degraded.any (fun c => onCluster c t) || d.pow.lostParts.contains t.part

/-- Streams and tasks of a plan. -/
def releaseTasks (d : Dev) (p : Plan) : Dev :=
  let ts := p.tasks.map (fun t => (t.id, startTask d p t))
  let tasks : Table (Option Task) := ts.foldl (fun (t : Table (Option Task)) x => t.set none x.1 (some x.2)) []
  let live := ts.filter (fun x => x.2.status == .live)
  let streams : Table Stream := p.binds.foldl (fun (t : Table Stream) b =>
    t.set streamIdle b.1 { ring := b.2, tasks := (live.filter (fun x => x.2.plan.stream == b.1)).map (·.1), held := none,
                           base := ringHead (ring d b.2) }) []
  let absent := ts.filter (fun x => x.2.status == .absent)
  let missing := absent.flatMap (fun x => x.2.plan.seqs)
  let rows := fun (k : Nat) => if missing.contains k then 0 else seqRows p k
  let d := forEach p.tasks d takeOverXfers
  let d := setFrame d (fun f => { f with
    tasks := tasks, streams := streams, tiles := p.tiles.foldl (fun (t : Table Nat) x => t.set 0 x.1 (x.2 + 1)) []
    numStreams := p.numStreams, batches := p.batches, recals := p.recals, carried := [], retry := f.retry.filter (fun k => rows k = 0)
    carry := f.carry.filter (fun c => !p.tasks.any (fun t => t.resumes.any (fun x => x.1 == c.frame && x.2.1 == c.id))) })
  let d := forEach absent d (fun d x =>
    let d := bumpPart d 0x1044 x.2.plan.part 1
    if x.2.plan.cls = .training then slipChunk d x.2 else d)
  let d := forEach p.binds (seqsStart d rows) (fun d b => seekStream d b.1)
  forEach live d (fun d x => if unitLost d x.2.plan then failTask d x.1 .quiet else d)

def emptyPlan : Plan :=
  { tasks := [], binds := [], tiles := [], sems := [], rings := [], carryRegs := [], lines := [], carriedSems := [], tallyMap := [],
    numStreams := [], seam := 0, batches := [], runTables := [], scales := [], scrubs := [], recals := [], reduction := [] }

/-- Tags of tiles and held blocks that late tasks left behind, and the scale latches (R113), are cleared; what a tile holds stays. -/
def clearTags (d : Dev) : Dev :=
  { d with hearth := { d.hearth with
    tiles := d.hearth.tiles.mapVals tileIdle (fun t => { t with owner := none, task := 0, draining := false, held := false })
    arrays := [], ductus := [], latch := [] } }

/-- Step 8: tags clear, the plan's values are set, translation caches empty, and the plan is released. After a FATAL, in SERVICE_SAFE (R458), or without a
complete plan, the frame runs no task (R31, R421). -/
def release (d : Dev) : Dev :=
  let next := if d.pow.fatal || d.pow.svc == .safe then none else d.frame.next
  let d := match next, d.frame.next with
    | none, some q => forEach q.numStreams d unplanStep
    | _, _ => d
  let p := next.getD emptyPlan
  let d := clearTags (setFrame d (fun f => { f with next := none }))
  let d := { d with hearth := { d.hearth with vregs := d.hearth.vregs.filter (fun x => p.carryRegs.any (fun y => 32 * y.1 + y.2 == x.1)) } }
  let d := ptesEdge (releaseRings (releaseSems d p) p)
  let d := flagLines d (p.lines.map (fun x => { well := x.1, unit := x.2.1, lo := x.2.2.1, hi := x.2.2.2.1, owner := x.2.2.2.2 }))
  let d := { d with num := { d.num with
    rate := d.num.rateNext, rateNext := none
    tallyMap := p.tallyMap.foldl (fun (t : Table (Nat × Nat)) x => t.set (8192, 0) x.1 x.2) [] } }
  let d := forEach (missingSlots d p) d (fun d x => emit d (.slotReport x.1 x.2.1 x.2.2))
  releasePins (releaseTasks d p) next.isSome

/-- Responses that arose at this edge belong to the frame that ended (R210). -/
def dateResponses (d : Dev) : Dev :=
  { d with gen := { d.gen with resps := d.gen.resps.map (fun r => if r.made = d.frame.no then { r with made := d.frame.no - 1 } else r) } }

/-- A cold device reset that has taken effect at this edge: power is removed, and nothing drains (R454). -/
def coldDue (d : Dev) : Bool := d.pow.resets.any (fun r => r.scope == .cold && r.phase == .draining)

/-- A tick edge (R25): the frame that ends, the ordered actions, and the pulse on TICK_OUT, a microsecond long (R470) (DESIGN CHOICE: log entry 35). -/
def tickEdge (d : Dev) (op : TickEdgeOp) : Dev :=
  if !running d then d
  else
    let d := overrunEvents (newFrame (frameEnds d) op.wall)
    let d := unitsEdge (waitingEdge (clockEdge d))
    if coldDue d then startDev (stopFor d 2) false
    else
      let d := withdrawalsEdge (basesEdge (readyEdge d))
      let d := baseEdge (flipsEdge d)
      let d := release (resultsEdge d op)
      let d := managerTick (dateResponses (snapsEdge d))
      setPow d (fun p => { p with tickOut := now d + p.mhz })

/-! ## The commands -/

def execTickEdge (op : TickEdgeOp) (s : State) : Host.Outcome State Fault Refusal := onDev s (fun d => tickEdge d op)

/-- A TICK message (R13): one for another device is passed on with the correction raised. -/
def execTick (op : TickMsg) (s : State) : Host.Outcome State Fault Refusal :=
  onDevIf (op.port < 16) s (fun d =>
    let d := atOff d op.off
    let (d, mine) := receive d op.port 0x01 { op.msg with body := tickBody (relayed d op) op.term op.changes }
    if mine then takeTick d op else d)

/-- TICK_IN rises (R15, R16): for the edge that began this frame within its first quarter, for the next one within its last. -/
def execTickInEdge (op : EdgePinOp) (s : State) : Host.Outcome State Fault Refusal :=
  onDev s (fun d =>
    let d := atOff d op.off
    if !running d ∨ tickSource d ≠ 2 then d
    else tickCame (setFrame d (fun f => { f with
      tickIn := f.tickIn || decide (4 * d.frame.off < periodHclk d)
      tickInNext := f.tickInNext || decide (3 * periodHclk d ≤ 4 * d.frame.off) })) (psOfHclk d d.frame.off))

def execHoldoverEntry (op : AtOp) (s : State) : Host.Outcome State Fault Refusal := onDev s (fun d => holdoverEntry (atOff d op.off))
def execHoldoverLimitExpiry (op : AtOp) (s : State) : Host.Outcome State Fault Refusal := onDev s (fun d => holdoverExpired (atOff d op.off))
def execPpsInEdge (op : EdgePinOp) (s : State) : Host.Outcome State Fault Refusal :=
  onDev s (fun d => if running d then ppsEdge (atOff d op.off) op else atOff d op.off)
def execAdmissionCutoff (op : CutoffOp) (s : State) : Host.Outcome State Fault Refusal := onDev s (fun d => cutoff d op)
def execGuardBandStart (op : AtOp) (s : State) : Host.Outcome State Fault Refusal := onDev s (fun d => guardBand (atOff d op.off))
/-- The engine's number is one of R29's. -/
def execWindowClose (op : WindowCloseOp) (s : State) : Host.Outcome State Fault Refusal :=
  onDevIf (op.eng < 1064) s (fun d => windowClose (atOff d op.off) op.task op.eng)

end Sys2Proof.Machine
end

