-- ==== Sys2Proof/Machine/Dispatch.lean ====
section
/-! DEFINITION. The one dispatch: each command of the opcode table to its own meaning. -/
namespace Sys2Proof.Machine
open Sys2Proof

def exec (i : Instr) (s : State) : Host.Outcome State Fault Refusal :=
  match i with
  | .tickEdge op => Sys2Proof.Machine.execTickEdge op s
  | .tick op => Sys2Proof.Machine.execTick op s
  | .tickInEdge op => Sys2Proof.Machine.execTickInEdge op s
  | .holdoverEntry op => Sys2Proof.Machine.execHoldoverEntry op s
  | .holdoverLimitExpiry op => Sys2Proof.Machine.execHoldoverLimitExpiry op s
  | .upstreamDelayMeasure op => Sys2Proof.Machine.execUpstreamDelayMeasure op s
  | .ppsInEdge op => Sys2Proof.Machine.execPpsInEdge op s
  | .admissionCutoff op => Sys2Proof.Machine.execAdmissionCutoff op s
  | .guardBandStart op => Sys2Proof.Machine.execGuardBandStart op s
  | .windowClose op => Sys2Proof.Machine.execWindowClose op s
  | .responsePublish op => Sys2Proof.Machine.execResponsePublish op s
  | .framePeriod op => Sys2Proof.Machine.execFramePeriod op s
  | .decodeFraction op => Sys2Proof.Machine.execDecodeFraction op s
  | .trainingFraction op => Sys2Proof.Machine.execTrainingFraction op s
  | .housekeepingFraction op => Sys2Proof.Machine.execHousekeepingFraction op s
  | .guardFraction op => Sys2Proof.Machine.execGuardFraction op s
  | .counterClear op => Sys2Proof.Machine.execCounterClear op s
  | .nop op => Sys2Proof.Machine.execNop op s
  | .matmul op => Sys2Proof.Machine.execMatmul op s
  | .tileStepEnd op => Sys2Proof.Machine.execTileStepEnd op s
  | .tracerPassEnd op => Sys2Proof.Machine.execTracerPassEnd op s
  | .matmulComplete op => Sys2Proof.Machine.execMatmulComplete op s
  | .vop op => Sys2Proof.Machine.execVop op s
  | .drain op => Sys2Proof.Machine.execDrain op s
  | .ductusComplete op => Sys2Proof.Machine.execDuctusComplete op s
  | .copy op => Sys2Proof.Machine.execCopy op s
  | .fill op => Sys2Proof.Machine.execFill op s
  | .gather op => Sys2Proof.Machine.execGather op s
  | .semWait op => Sys2Proof.Machine.execSemWait op s
  | .semAdd op => Sys2Proof.Machine.execSemAdd op s
  | .ringRelease op => Sys2Proof.Machine.execRingRelease op s
  | .ringPublish op => Sys2Proof.Machine.execRingPublish op s
  | .transferComplete op => Sys2Proof.Machine.execTransferComplete op s
  | .transferFault op => Sys2Proof.Machine.execTransferFault op s
  | .resume op => Sys2Proof.Machine.execResume op s
  | .abandon op => Sys2Proof.Machine.execAbandon op s
  | .transferCarryResume op => Sys2Proof.Machine.execTransferCarryResume op s
  | .damperStep op => Sys2Proof.Machine.execDamperStep op s
  | .arrayCounterClear op => Sys2Proof.Machine.execArrayCounterClear op s
  | .damperReset op => Sys2Proof.Machine.execDamperReset op s
  | .numCounterClear op => Sys2Proof.Machine.execNumCounterClear op s
  | .channelRecalibration op => Sys2Proof.Machine.execChannelRecalibration op s
  | .tlbInval op => Sys2Proof.Machine.execTlbInval op s
  | .tlbInvalComplete op => Sys2Proof.Machine.execTlbInvalComplete op s
  | .pageMigrate op => Sys2Proof.Machine.execPageMigrate op s
  | .readReq op => Sys2Proof.Machine.execReadReq op s
  | .writeReq op => Sys2Proof.Machine.execWriteReq op s
  | .readResp op => Sys2Proof.Machine.execReadResp op s
  | .writeAck op => Sys2Proof.Machine.execWriteAck op s
  | .refusedResp op => Sys2Proof.Machine.execRefusedResp op s
  | .remoteTimeout op => Sys2Proof.Machine.execRemoteTimeout op s
  | .ringSlot op => Sys2Proof.Machine.execRingSlot op s
  | .xferCounterClear op => Sys2Proof.Machine.execXferCounterClear op s
  | .lookup op => Sys2Proof.Machine.execLookup op s
  | .claim op => Sys2Proof.Machine.execClaim op s
  | .pin op => Sys2Proof.Machine.execPin op s
  | .unpin op => Sys2Proof.Machine.execUnpin op s
  | .evict op => Sys2Proof.Machine.execEvict op s
  | .withdraw op => Sys2Proof.Machine.execWithdraw op s
  | .slotFree op => Sys2Proof.Machine.execSlotFree op s
  | .slotBind op => Sys2Proof.Machine.execSlotBind op s
  | .slotBindResume op => Sys2Proof.Machine.execSlotBindResume op s
  | .fillComplete op => Sys2Proof.Machine.execFillComplete op s
  | .parkLimitExpiry op => Sys2Proof.Machine.execParkLimitExpiry op s
  | .withdrawVariant op => Sys2Proof.Machine.execWithdrawVariant op s
  | .withdrawTenant op => Sys2Proof.Machine.execWithdrawTenant op s
  | .slotReserve op => Sys2Proof.Machine.execSlotReserve op s
  | .fillPerFrame op => Sys2Proof.Machine.execFillPerFrame op s
  | .slotLiveReport op => Sys2Proof.Machine.execSlotLiveReport op s
  | .flipNotice op => Sys2Proof.Machine.execFlipNotice op s
  | .variantCounterClear op => Sys2Proof.Machine.execVariantCounterClear op s
  | .udpSegment op => Sys2Proof.Machine.execUdpSegment op s
  | .reassemblyTimeout op => Sys2Proof.Machine.execReassemblyTimeout op s
  | .arpRequest op => Sys2Proof.Machine.execArpRequest op s
  | .neighborDiscovery op => Sys2Proof.Machine.execNeighborDiscovery op s
  | .intakeForward op => Sys2Proof.Machine.execIntakeForward op s
  | .generate op => Sys2Proof.Machine.execGenerate op s
  | .cancel op => Sys2Proof.Machine.execCancel op s
  | .registerVariant op => Sys2Proof.Machine.execRegisterVariant op s
  | .replaceVariant op => Sys2Proof.Machine.execReplaceVariant op s
  | .releaseVariant op => Sys2Proof.Machine.execReleaseVariant op s
  | .trainJob op => Sys2Proof.Machine.execTrainJob op s
  | .ledgerAppend op => Sys2Proof.Machine.execLedgerAppend op s
  | .rewards op => Sys2Proof.Machine.execRewards op s
  | .offlineGroup op => Sys2Proof.Machine.execOfflineGroup op s
  | .jobPause op => Sys2Proof.Machine.execJobPause op s
  | .jobResume op => Sys2Proof.Machine.execJobResume op s
  | .jobEnd op => Sys2Proof.Machine.execJobEnd op s
  | .evaluate op => Sys2Proof.Machine.execEvaluate op s
  | .admitWaitExpiry op => Sys2Proof.Machine.execAdmitWaitExpiry op s
  | .tokenSample op => Sys2Proof.Machine.execTokenSample op s
  | .endRecord op => Sys2Proof.Machine.execEndRecord op s
  | .tokenShare op => Sys2Proof.Machine.execTokenShare op s
  | .prefillShare op => Sys2Proof.Machine.execPrefillShare op s
  | .kvQuota op => Sys2Proof.Machine.execKvQuota op s
  | .genCounterClear op => Sys2Proof.Machine.execGenCounterClear op s
  | .rewardWaitExpiry op => Sys2Proof.Machine.execRewardWaitExpiry op s
  | .advantage op => Sys2Proof.Machine.execAdvantage op s
  | .commitNotice op => Sys2Proof.Machine.execCommitNotice op s
  | .scribeDone op => Sys2Proof.Machine.execScribeDone op s
  | .scribeReport op => Sys2Proof.Machine.execScribeReport op s
  | .evalFramesExpiry op => Sys2Proof.Machine.execEvalFramesExpiry op s
  | .reduceDone op => Sys2Proof.Machine.execReduceDone op s
  | .trainShare op => Sys2Proof.Machine.execTrainShare op s
  | .trainCounterClear op => Sys2Proof.Machine.execTrainCounterClear op s
  | .snapshotInterval op => Sys2Proof.Machine.execSnapshotInterval op s
  | .snapNow op => Sys2Proof.Machine.execSnapNow op s
  | .restoreNow op => Sys2Proof.Machine.execRestoreNow op s
  | .snapObject op => Sys2Proof.Machine.execSnapObject op s
  | .snapObjectAck op => Sys2Proof.Machine.execSnapObjectAck op s
  | .snapCompletionRecord op => Sys2Proof.Machine.execSnapCompletionRecord op s
  | .snapshotComplete op => Sys2Proof.Machine.execSnapshotComplete op s
  | .snapTimeout op => Sys2Proof.Machine.execSnapTimeout op s
  | .restore op => Sys2Proof.Machine.execRestore op s
  | .restoreReport op => Sys2Proof.Machine.execRestoreReport op s
  | .scribeCounterClear op => Sys2Proof.Machine.execScribeCounterClear op s
  | .dataFlit op => Sys2Proof.Machine.execDataFlit op s
  | .idleFlit op => Sys2Proof.Machine.execIdleFlit op s
  | .nakFlit op => Sys2Proof.Machine.execNakFlit op s
  | .nakLimit op => Sys2Proof.Machine.execNakLimit op s
  | .helloFlit op => Sys2Proof.Machine.execHelloFlit op s
  | .tsyncFlit op => Sys2Proof.Machine.execTsyncFlit op s
  | .mgmt op => Sys2Proof.Machine.execMgmt op s
  | .event op => Sys2Proof.Machine.execEvent op s
  | .slotReport op => Sys2Proof.Machine.execSlotReport op s
  | .signalDetect op => Sys2Proof.Machine.execSignalDetect op s
  | .lossOfSignal op => Sys2Proof.Machine.execLossOfSignal op s
  | .portTrainingDone op => Sys2Proof.Machine.execPortTrainingDone op s
  | .portRetry op => Sys2Proof.Machine.execPortRetry op s
  | .fecRetrain op => Sys2Proof.Machine.execFecRetrain op s
  | .portRetrainFast op => Sys2Proof.Machine.execPortRetrainFast op s
  | .portRetrainFull op => Sys2Proof.Machine.execPortRetrainFull op s
  | .portRetrainPlanned op => Sys2Proof.Machine.execPortRetrainPlanned op s
  | .portMode op => Sys2Proof.Machine.execPortMode op s
  | .linkDelayMeasure op => Sys2Proof.Machine.execLinkDelayMeasure op s
  | .ucieModuleFail op => Sys2Proof.Machine.execUcieModuleFail op s
  | .managerTimeout op => Sys2Proof.Machine.execManagerTimeout op s
  | .deviceLossTimeout op => Sys2Proof.Machine.execDeviceLossTimeout op s
  | .wiringMap op => Sys2Proof.Machine.execWiringMap op s
  | .ligCounterClear op => Sys2Proof.Machine.execLigCounterClear op s
  | .lateCounterClear op => Sys2Proof.Machine.execLateCounterClear op s
  | .baseOrder op => Sys2Proof.Machine.execBaseOrder op s
  | .baseAbort op => Sys2Proof.Machine.execBaseAbort op s
  | .baseRetire op => Sys2Proof.Machine.execBaseRetire op s
  | .shardVerified op => Sys2Proof.Machine.execShardVerified op s
  | .quiesceExpiry op => Sys2Proof.Machine.execQuiesceExpiry op s
  | .carryTaskDone op => Sys2Proof.Machine.execCarryTaskDone op s
  | .checkOutcome op => Sys2Proof.Machine.execCheckOutcome op s
  | .checkFramesExpiry op => Sys2Proof.Machine.execCheckFramesExpiry op s
  | .baseCounterClear op => Sys2Proof.Machine.execBaseCounterClear op s
  | .keySet op => Sys2Proof.Machine.execKeySet op s
  | .keyRotate op => Sys2Proof.Machine.execKeyRotate op s
  | .keyRetire op => Sys2Proof.Machine.execKeyRetire op s
  | .keyRevoke op => Sys2Proof.Machine.execKeyRevoke op s
  | .roster op => Sys2Proof.Machine.execRoster op s
  | .tenantAdd op => Sys2Proof.Machine.execTenantAdd op s
  | .tenantRemove op => Sys2Proof.Machine.execTenantRemove op s
  | .keyRotateExpiry op => Sys2Proof.Machine.execKeyRotateExpiry op s
  | .spdmRequest op => Sys2Proof.Machine.execSpdmRequest op s
  | .ideKm op => Sys2Proof.Machine.execIdeKm op s
  | .getVersion op => Sys2Proof.Machine.execGetVersion op s
  | .getCapabilities op => Sys2Proof.Machine.execGetCapabilities op s
  | .lockInterface op => Sys2Proof.Machine.execLockInterface op s
  | .getDeviceInterfaceReport op => Sys2Proof.Machine.execGetDeviceInterfaceReport op s
  | .getDeviceInterfaceState op => Sys2Proof.Machine.execGetDeviceInterfaceState op s
  | .startInterface op => Sys2Proof.Machine.execStartInterface op s
  | .stopInterface op => Sys2Proof.Machine.execStopInterface op s
  | .functionLevelReset op => Sys2Proof.Machine.execFunctionLevelReset op s
  | .ideIntegrityFailure op => Sys2Proof.Machine.execIdeIntegrityFailure op s
  | .scrubComplete op => Sys2Proof.Machine.execScrubComplete op s
  | .debugPolicy op => Sys2Proof.Machine.execDebugPolicy op s
  | .debugHalt op => Sys2Proof.Machine.execDebugHalt op s
  | .debugStep op => Sys2Proof.Machine.execDebugStep op s
  | .debugResume op => Sys2Proof.Machine.execDebugResume op s
  | .viewRequest op => Sys2Proof.Machine.execViewRequest op s
  | .makerUnlock op => Sys2Proof.Machine.execMakerUnlock op s
  | .secCounterClear op => Sys2Proof.Machine.execSecCounterClear op s
  | .openSession op => Sys2Proof.Machine.execOpenSession op s
  | .proof op => Sys2Proof.Machine.execProof op s
  | .read op => Sys2Proof.Machine.execRead op s
  | .write op => Sys2Proof.Machine.execWrite op s
  | .writeMulti op => Sys2Proof.Machine.execWriteMulti op s
  | .writeStaged op => Sys2Proof.Machine.execWriteStaged op s
  | .subscribeStart op => Sys2Proof.Machine.execSubscribeStart op s
  | .subscribeStop op => Sys2Proof.Machine.execSubscribeStop op s
  | .closeSession op => Sys2Proof.Machine.execCloseSession op s
  | .sessionIdleExpiry op => Sys2Proof.Machine.execSessionIdleExpiry op s
  | .authLockExpiry op => Sys2Proof.Machine.execAuthLockExpiry op s
  | .sessionClose op => Sys2Proof.Machine.execSessionClose op s
  | .t1sEnable op => Sys2Proof.Machine.execT1sEnable op s
  | .mailboxEnable op => Sys2Proof.Machine.execMailboxEnable op s
  | .mailboxDoorbell op => Sys2Proof.Machine.execMailboxDoorbell op s
  | .installerReset op => Sys2Proof.Machine.execInstallerReset op s
  | .acceptKeys op => Sys2Proof.Machine.execAcceptKeys op s
  | .defectRecord op => Sys2Proof.Machine.execDefectRecord op s
  | .factoryCal op => Sys2Proof.Machine.execFactoryCal op s
  | .sessionCounterClear op => Sys2Proof.Machine.execSessionCounterClear op s
  | .eventFire op => Sys2Proof.Machine.execEventFire op s
  | .eventTake op => Sys2Proof.Machine.execEventTake op s
  | .eoi op => Sys2Proof.Machine.execEoi op s
  | .eventEscalate op => Sys2Proof.Machine.execEventEscalate op s
  | .fatal op => Sys2Proof.Machine.execFatal op s
  | .sourceReg op => Sys2Proof.Machine.execSourceReg op s
  | .doorbellTail op => Sys2Proof.Machine.execDoorbellTail op s
  | .doorbellHead op => Sys2Proof.Machine.execDoorbellHead op s
  | .ringService op => Sys2Proof.Machine.execRingService op s
  | .scrubEscalate op => Sys2Proof.Machine.execScrubEscalate op s
  | .eventCounterClear op => Sys2Proof.Machine.execEventCounterClear op s
  | .ashClearFirstFault op => Sys2Proof.Machine.execAshClearFirstFault op s
  | .ashClearSuppressed op => Sys2Proof.Machine.execAshClearSuppressed op s
  | .powerGood op => Sys2Proof.Machine.execPowerGood op s
  | .k0Complete op => Sys2Proof.Machine.execK0Complete op s
  | .k1Complete op => Sys2Proof.Machine.execK1Complete op s
  | .memoryTrainingDeadline op => Sys2Proof.Machine.execMemoryTrainingDeadline op s
  | .hearthWave op => Sys2Proof.Machine.execHearthWave op s
  | .proofStrokeComplete op => Sys2Proof.Machine.execProofStrokeComplete op s
  | .ready op => Sys2Proof.Machine.execReady op s
  | .recoveryImage op => Sys2Proof.Machine.execRecoveryImage op s
  | .clockStepUp op => Sys2Proof.Machine.execClockStepUp op s
  | .admissionResume op => Sys2Proof.Machine.execAdmissionResume op s
  | .thermalTrip op => Sys2Proof.Machine.execThermalTrip op s
  | .powerLimit op => Sys2Proof.Machine.execPowerLimit op s
  | .hearthFault op => Sys2Proof.Machine.execHearthFault op s
  | .spareReloadDone op => Sys2Proof.Machine.execSpareReloadDone op s
  | .domainFault op => Sys2Proof.Machine.execDomainFault op s
  | .retrainChannel op => Sys2Proof.Machine.execRetrainChannel op s
  | .channelErrorThreshold op => Sys2Proof.Machine.execChannelErrorThreshold op s
  | .channelRetrainDone op => Sys2Proof.Machine.execChannelRetrainDone op s
  | .resetHearth op => Sys2Proof.Machine.execResetHearth op s
  | .resetCluster op => Sys2Proof.Machine.execResetCluster op s
  | .resetPartition op => Sys2Proof.Machine.execResetPartition op s
  | .resetDeviceWarm op => Sys2Proof.Machine.execResetDeviceWarm op s
  | .resetDeviceCold op => Sys2Proof.Machine.execResetDeviceCold op s
  | .resetDrainComplete op => Sys2Proof.Machine.execResetDrainComplete op s
  | .watchdogExpiry op => Sys2Proof.Machine.execWatchdogExpiry op s
  | .serviceDrainExpiry op => Sys2Proof.Machine.execServiceDrainExpiry op s
  | .modulePresentChange op => Sys2Proof.Machine.execModulePresentChange op s
  | .powerCounterClear op => Sys2Proof.Machine.execPowerCounterClear op s
  | .copybookLoad op => Sys2Proof.Machine.execCopybookLoad op s
  | .unitResetComplete op => Sys2Proof.Machine.execUnitResetComplete op s
  | .uncorrectableLogicError op => Sys2Proof.Machine.execUncorrectableLogicError op s
  | .dimmSupplyLoss op => Sys2Proof.Machine.execDimmSupplyLoss op s
  | .responseReturn op => Sys2Proof.Machine.execResponseReturn op s
  | .vfConfigurationChange op => Sys2Proof.Machine.execVfConfigurationChange op s
  | .lossOfInput => Sys2Proof.Machine.execLossOfInput s
  | .gaspComplete => Sys2Proof.Machine.execGaspComplete s
  | .overvoltage => Sys2Proof.Machine.execOvervoltage s
  | .inputSwitchClose => Sys2Proof.Machine.execInputSwitchClose s
  | .serviceReq => Sys2Proof.Machine.execServiceReq s
  | .coldRst => Sys2Proof.Machine.execColdRst s
  | .coldRstRelease => Sys2Proof.Machine.execColdRstRelease s
  | .pePerstAssert => Sys2Proof.Machine.execPePerstAssert s
  | .pePerstRelease => Sys2Proof.Machine.execPePerstRelease s
  | .sysclkPresent => Sys2Proof.Machine.execSysclkPresent s

end Sys2Proof.Machine
end

