-- ==== Sys2Proof/Machine/Step.lean ====
section
/-!
DEFINITION. One step: the command at the front of the queue. On an empty queue the block idles (log entry 8).
-/
namespace Sys2Proof.Machine
open Sys2Proof

/-- Take the command at the front and run it with the queue's rest; idle on an empty queue (DESIGN CHOICE: log entry 115). -/
def step (s : State) : Host.Outcome State Fault Refusal :=
  match s.pending with
  | [] => .next s
  | i :: rest => exec i { s with pending := rest }

/-- The opcode table gives no row any bits, so that no word spells a command: the queue stays as it is. -/
def State.withFetchWord (s : State) (nbits w : Nat) : State :=
  match Sys2Proof.decodeTableWord nbits w with
  | some i => { s with pending := i :: s.pending }
  | none => s

end Sys2Proof.Machine
end

