-- ==== Sys2Proof/Machine/Pins.lean ====
section
/-!
DEFINITION. The levels of the output balls whose state the manual ties to the device's (R459, R461, R466, R468, R470, R471, R475).
-/
namespace Sys2Proof.Machine
open Sys2Proof

/-- The output balls with one level at a time; a port's and a channel's reset carry its number. -/
inductive Ball where
  | pwrGood
  | overTemp
  | svcActive
  | svcSafe
  | svcFault
  | tickOut
  | peClkreq
  | peWake
  | linkRst (port : Nat)
  | dimmRst (channel : Nat)
  | flashRst
  | v3p3
  | v1p8
  deriving DecidableEq, Repr

/-- What a ball shows: high-impedance, low (an open drain sinks), high (a supply is on), or low by turns (R459). -/
inductive Level where
  | z
  | low
  | high
  | blinking
  deriving DecidableEq, Repr

/-- A ball that shows an indicator: lit while it sinks. -/
def lit : Nat → Level
  | 0 => .z
  | 1 => .low
  | _ => .blinking

/-- The level of a ball once power is good: a ball of a domain that is not ON rests as R461 and R468 say. -/
def poweredLevel (d : Dev) : Ball → Level
  | .pwrGood => .z
  | .overTemp => if d.pow.overTemp then .low else .z
  | .svcActive => lit (svcActive d)
  | .svcSafe => lit (svcSafe d)
  | .svcFault => lit (svcFault d)
  | .tickOut => if domain d 87 ≠ 2 then .z else if now d < d.pow.tickOut then .high else .low
  | .peClkreq => if domain d 85 = 2 then .low else .z
  | .peWake => .z
  | .linkRst p => if (port d p).st = .disabled ∨ domain d (88 + p / 2) ≠ 2 then .low else .z
  | .dimmRst c => if domain d (10 * (c / 4) + 9) = 2 then .high else .z
  | .flashRst => if domain d 86 = 2 then .high else .z
  | .v3p3 => if domain d 86 = 2 then .high else .z
  | .v1p8 => if domain d 86 = 2 then .high else .z

/-- The level of a ball (R461, R471): before power-good, PWR_GOOD sinks, OVERTEMP# sinks after a thermal trip, and every other is
high-impedance. -/
def level (d : Dev) (b : Ball) : Level :=
  if d.pow.powerGood then poweredLevel d b
  else match b with
    | .pwrGood => .low
    | .overTemp => if d.pow.overTemp then .low else .z
    | _ => .z

end Sys2Proof.Machine
end

