-- ==== Sys2Proof/WellFormed.lean ====
section
/-!
DEFINITION. Well-formed commands: every unit that a command names is one the device has (the numbers of R29, R119,
R269, R412, R435 and of the chapters that name the others). A command that names any other unit is none of this device's: its meaning answers the fault noSuchUnit.
-/
namespace Sys2Proof

/-- Logical Hearths 0 to 255; physical ones, nine to a cluster, 0 to 287. -/
def isHearth (n : Nat) : Bool := decide (n < 256)
def isPhysical (n : Nat) : Bool := decide (n < 288)
/-- Arrays MA and MB of a Hearth. -/
def isArray (n : Nat) : Bool := decide (n < 2)
def isCluster (n : Nat) : Bool := decide (n < 32)
def isPart (n : Nat) : Bool := decide (n < 8)
/-- Streams: four of each Hearth, then one of each cluster. -/
def isStream (n : Nat) : Bool := decide (n < 1056)
/-- Engines of the seam: four of each Hearth, the transfer engine of each cluster, the Scribe of each partition. -/
def isEngine (n : Nat) : Bool := decide (n < 1064)
/-- A-operand streams of the Tracer, training streams of a partition. -/
def isTraceStream (n : Nat) : Bool := decide (n < 8192)
def isDamperStream (n : Nat) : Bool := decide (n < 1024)
def isApp (n : Nat) : Bool := decide (n < 8)
/-- Slots of the Inkwell, and key slots. -/
def isSlot (n : Nat) : Bool := decide (n < 4096)
/-- Pages of an application's virtual space. -/
def isPage (n : Nat) : Bool := decide (n < 2 ^ 27)
def isChannel (n : Nat) : Bool := decide (n < 32)
/-- Die groups of four channels. -/
def isGroup (n : Nat) : Bool := decide (n < 8)
def isPort (n : Nat) : Bool := decide (n < 16)
def isLink (n : Nat) : Bool := decide (n < 12)
/-- Virtual functions 1 to 8. -/
def isVf (n : Nat) : Bool := decide (1 ≤ n) && decide (n ≤ 8)
def isTransport (n : Nat) : Bool := decide (n < 4)
def isSource (n : Nat) : Bool := decide (n < 2048)
def isCp (n : Nat) : Bool := decide (n < 8)
def isDomain (n : Nat) : Bool := decide (n < 96)

/-- Banks of a Well and of an Inkstone (R447). -/
def isBank (b : Bank) : Bool := if b.ink then isCluster b.unit && decide (b.bank < 66) else isPhysical b.unit && decide (b.bank < 33)

def isScope : Scope → Bool
  | .hearth n => isPhysical n
  | .cluster c => isCluster c
  | .partition p => isPart p
  | .warm => true
  | .cold => true

/-- Targets of events: control processors, PCIe vectors, the management processor. -/
def isTarget : EventTarget → Bool
  | .cp k => isCp k
  | .vector v => decide (v < 64)
  | .epell => true

/-- What escalates: an event source or a descriptor ring. -/
def isEscalatable : EscTarget → Bool
  | .source n => isSource n
  | .ring n => decide (n < 32768)

/-- The command names only units that the device has (DESIGN CHOICE: log entry 130). -/
def Instr.wf : Instr → Bool
  | .tickEdge _ => true
  | .tick op => isPort op.port
  | .tickInEdge _ => true
  | .holdoverEntry _ => true
  | .holdoverLimitExpiry _ => true
  | .upstreamDelayMeasure op => isPort op.port
  | .ppsInEdge _ => true
  | .admissionCutoff _ => true
  | .guardBandStart _ => true
  | .windowClose op => isEngine op.eng
  | .responsePublish _ => true
  | .framePeriod _ => true
  | .decodeFraction _ => true
  | .trainingFraction _ => true
  | .housekeepingFraction _ => true
  | .guardFraction _ => true
  | .counterClear _ => true
  | .nop op => isStream op.stream
  | .matmul op => isStream op.stream
  | .tileStepEnd op => isHearth op.hearth && isArray op.array
  | .tracerPassEnd op => isHearth op.hearth && isArray op.array && isTraceStream op.stream
  | .matmulComplete op => isHearth op.hearth && isArray op.array
  | .vop op => isStream op.stream
  | .drain op => isStream op.stream
  | .ductusComplete op => isHearth op.hearth
  | .copy op => isStream op.stream
  | .fill op => isStream op.stream
  | .gather op => isStream op.stream
  | .semWait op => isStream op.stream
  | .semAdd op => isStream op.stream
  | .ringRelease op => isStream op.stream
  | .ringPublish op => isStream op.stream
  | .transferComplete op => isCluster op.cluster
  | .transferFault op => isCluster op.cluster
  | .resume op => isCluster op.cluster && isStream op.stream
  | .abandon op => isCluster op.cluster && isStream op.stream
  | .transferCarryResume op => isCluster op.cluster
  | .damperStep op => isPart op.part && isDamperStream op.stream
  | .arrayCounterClear _ => true
  | .damperReset _ => true
  | .numCounterClear _ => true
  | .channelRecalibration op => isChannel op.channel
  | .tlbInval op => isPart op.part
  | .tlbInvalComplete op => isPart op.part
  | .pageMigrate op => isApp op.app && isPage op.page
  | .readReq op => isPort op.port
  | .writeReq op => isPort op.port
  | .readResp op => isPort op.port
  | .writeAck op => isPort op.port
  | .refusedResp op => isPort op.port
  | .remoteTimeout _ => true
  | .ringSlot op => isPort op.port
  | .xferCounterClear _ => true
  | .lookup _ => true
  | .claim op => isSlot op.slot && isSlot op.key
  | .pin op => isSlot op.slot
  | .unpin op => isSlot op.slot
  | .evict op => isSlot op.slot
  | .withdraw _ => true
  | .slotFree op => isSlot op.slot
  | .slotBind op => isSlot op.key && isApp op.app
  | .slotBindResume _ => true
  | .fillComplete op => isSlot op.slot
  | .parkLimitExpiry _ => true
  | .withdrawVariant _ => true
  | .withdrawTenant _ => true
  | .slotReserve _ => true
  | .fillPerFrame _ => true
  | .slotLiveReport _ => true
  | .flipNotice _ => true
  | .variantCounterClear _ => true
  | .udpSegment op => isPort op.port
  | .reassemblyTimeout _ => true
  | .arpRequest op => isPort op.port
  | .neighborDiscovery op => isPort op.port
  | .intakeForward _ => true
  | .generate _ => true
  | .cancel _ => true
  | .registerVariant op => isApp op.app
  | .replaceVariant op => isApp op.app
  | .releaseVariant _ => true
  | .trainJob _ => true
  | .ledgerAppend _ => true
  | .rewards _ => true
  | .offlineGroup _ => true
  | .jobPause _ => true
  | .jobResume _ => true
  | .jobEnd _ => true
  | .evaluate _ => true
  | .admitWaitExpiry _ => true
  | .tokenSample _ => true
  | .endRecord _ => true
  | .tokenShare _ => true
  | .prefillShare _ => true
  | .kvQuota _ => true
  | .genCounterClear _ => true
  | .rewardWaitExpiry _ => true
  | .advantage _ => true
  | .commitNotice _ => true
  | .scribeDone _ => true
  | .scribeReport _ => true
  | .evalFramesExpiry _ => true
  | .reduceDone _ => true
  | .trainShare _ => true
  | .trainCounterClear _ => true
  | .snapshotInterval op => isApp op.app
  | .snapNow _ => true
  | .restoreNow _ => true
  | .snapObject _ => true
  | .snapObjectAck op => isApp op.app
  | .snapCompletionRecord op => isApp op.app
  | .snapshotComplete op => isApp op.app
  | .snapTimeout op => isApp op.app
  | .restore op => isApp op.app
  | .restoreReport op => isApp op.app
  | .scribeCounterClear _ => true
  | .dataFlit op => isPort op.port
  | .idleFlit op => isPort op.port
  | .nakFlit op => isPort op.port
  | .nakLimit op => isPort op.port
  | .helloFlit op => isPort op.port
  | .tsyncFlit op => isPort op.port
  | .mgmt op => isPort op.port
  | .event op => isPort op.port
  | .slotReport op => isPort op.port
  | .signalDetect op => isPort op.port
  | .lossOfSignal op => isPort op.port
  | .portTrainingDone op => isPort op.port
  | .portRetry op => isPort op.port
  | .fecRetrain op => isPort op.port
  | .portRetrainFast _ => true
  | .portRetrainFull _ => true
  | .portRetrainPlanned _ => true
  | .portMode _ => true
  | .linkDelayMeasure op => isPort op.port
  | .ucieModuleFail op => isLink op.link
  | .managerTimeout _ => true
  | .deviceLossTimeout _ => true
  | .wiringMap _ => true
  | .ligCounterClear _ => true
  | .lateCounterClear _ => true
  | .baseOrder _ => true
  | .baseAbort _ => true
  | .baseRetire _ => true
  | .shardVerified op => isApp op.app
  | .quiesceExpiry op => isApp op.app
  | .carryTaskDone op => isApp op.app
  | .checkOutcome op => isApp op.app
  | .checkFramesExpiry op => isApp op.app
  | .baseCounterClear _ => true
  | .keySet _ => true
  | .keyRotate _ => true
  | .keyRetire _ => true
  | .keyRevoke _ => true
  | .roster _ => true
  | .tenantAdd _ => true
  | .tenantRemove _ => true
  | .keyRotateExpiry op => isSlot op.slot
  | .spdmRequest op => isTransport op.transport
  | .ideKm op => isVf op.vf
  | .getVersion op => isVf op.vf
  | .getCapabilities op => isVf op.vf
  | .lockInterface op => isVf op.vf
  | .getDeviceInterfaceReport op => isVf op.vf
  | .getDeviceInterfaceState op => isVf op.vf
  | .startInterface op => isVf op.vf
  | .stopInterface op => isVf op.vf
  | .functionLevelReset op => isVf op.vf
  | .ideIntegrityFailure op => isVf op.vf
  | .scrubComplete _ => true
  | .debugPolicy _ => true
  | .debugHalt _ => true
  | .debugStep _ => true
  | .debugResume _ => true
  | .viewRequest _ => true
  | .makerUnlock _ => true
  | .secCounterClear _ => true
  | .openSession _ => true
  | .proof _ => true
  | .read _ => true
  | .write _ => true
  | .writeMulti _ => true
  | .writeStaged _ => true
  | .subscribeStart _ => true
  | .subscribeStop _ => true
  | .closeSession _ => true
  | .sessionIdleExpiry _ => true
  | .authLockExpiry _ => true
  | .sessionClose _ => true
  | .t1sEnable _ => true
  | .mailboxEnable _ => true
  | .mailboxDoorbell _ => true
  | .installerReset _ => true
  | .acceptKeys _ => true
  | .defectRecord _ => true
  | .factoryCal _ => true
  | .sessionCounterClear _ => true
  | .eventFire op => isSource op.src
  | .eventTake op => isTarget op.target
  | .eoi op => isCp op.cp && isSource op.src
  | .eventEscalate op => isEscalatable op.target
  | .fatal _ => true
  | .sourceReg _ => true
  | .doorbellTail _ => true
  | .doorbellHead _ => true
  | .ringService _ => true
  | .scrubEscalate _ => true
  | .eventCounterClear _ => true
  | .ashClearFirstFault _ => true
  | .ashClearSuppressed _ => true
  | .powerGood _ => true
  | .k0Complete _ => true
  | .k1Complete _ => true
  | .memoryTrainingDeadline op => op.channels.all isChannel
  | .hearthWave _ => true
  | .proofStrokeComplete op => op.banks.all isBank && op.hearths.all isPhysical && op.clusters.all isCluster && op.scribes.all isPart && op.channels.all isChannel
  | .ready _ => true
  | .recoveryImage _ => true
  | .clockStepUp _ => true
  | .admissionResume _ => true
  | .thermalTrip _ => true
  | .powerLimit _ => true
  | .hearthFault op => isHearth op.hearth
  | .spareReloadDone op => isHearth op.hearth
  | .domainFault op => isDomain op.domain
  | .retrainChannel _ => true
  | .channelErrorThreshold op => isChannel op.channel
  | .channelRetrainDone op => isGroup op.group
  | .resetHearth _ => true
  | .resetCluster _ => true
  | .resetPartition _ => true
  | .resetDeviceWarm _ => true
  | .resetDeviceCold _ => true
  | .resetDrainComplete op => isScope op.scope
  | .watchdogExpiry op => isCp op.cp
  | .serviceDrainExpiry _ => true
  | .modulePresentChange op => isPort op.port
  | .powerCounterClear _ => true
  | .copybookLoad _ => true
  | .unitResetComplete op => isScope op.scope && op.banks.all isBank
  | .uncorrectableLogicError op => isScope op.scope
  | .dimmSupplyLoss op => isChannel op.channel
  | .responseReturn _ => true
  | .vfConfigurationChange op => isVf op.vf
  | .lossOfInput => true
  | .gaspComplete => true
  | .overvoltage => true
  | .inputSwitchClose => true
  | .serviceReq => true
  | .coldRst => true
  | .coldRstRelease => true
  | .pePerstAssert => true
  | .pePerstRelease => true
  | .sysclkPresent => true

end Sys2Proof
end

