-- ==== Sys2Proof/Safety.lean ====
section
/-!
DEFINITION. What counts as a safe run, in the terms that claims use.
-/
namespace Sys2Proof.Machine
open Sys2Proof

/-- The machine runs on: a step answers a next state, not a fault and not a refusal. -/
def runsOn (s : State) : Prop := ∃ t, step s = .next t

/-- Every waiting command names only units that the device has. -/
def queueWf (s : State) : Bool := s.pending.all Instr.wf

/-- The monotonic counters of R347 stand at `a`, `b` and `c` at least. -/
def countersAtLeast (a b c : Nat) (s : State) : Prop := a ≤ s.nv.counter0 ∧ b ≤ s.nv.counter1 ∧ c ≤ s.nv.counter2

/-- The three memories of the device are in canonical form. -/
def memoryOk (s : State) : Bool := Memory.wf s.dev.mem

/-- A safe state: its memories are in canonical form, and every waiting command is well-formed. -/
def safeState (s : State) : Bool := memoryOk s && queueWf s

/-- A message arrives on an UP port for this device (R278, R279, R283, R372): of the kind, one that crosses a port of the device, of an epoch that is not old, addressed to the
port's own unit or routed to this device, and the device is in no warm start. -/
def arrives (d : Dev) (p kind : Nat) (m : Msg) : Prop :=
  (port d p).st = .up ∧ kindVc m.kind ≠ none ∧ m.kind = kind ∧ crosses d m = true ∧
  (deviceEpoch d m.srcDevice).any (fun e => epochOld e m.epoch) = false ∧ (d.pow.warm && !running d) = false ∧
  (m.dstUnit = 15 ∨ route d m.dstDevice = 0xFE)

/-- An envelope of a kind is whole, by its carriage (R187, R188), names key slot k, opens under the key it names, and is in its time:
checks 1 to 3 of R186 pass. `d'` is the device that has taken it from its carriage. -/
def opened (d d' : Dev) (e : Env) (kind k : Nat) : Prop :=
  e.source ≠ 3 ∧ fetch d e = some (d', true) ∧ headerOk e kind = true ∧ slotOfTenant d e.tenant = some k ∧
  (keyOfGen (keySlot d k) e.keyGen).any (opensUnder e) = true ∧ d.frame.no ≤ e.notAfter ∧
  e.notAfter ≤ d.frame.no + reg d 0x3004 0x00

/-- The checks of R186 accept an envelope for key slot k: it is no replay, the filter has room, no service procedure stands; it came
over PCIe, or its key slot has no intake ring of its own. -/
def accepted (d d' : Dev) (e : Env) (kind k : Nat) : Prop :=
  opened d d' e kind k ∧ (∀ r ∈ filterOf d k, r.id ≠ e.id) ∧ (filterOf d k).length < reg d 0x3004 0x01 ∧ d.pow.svc = .none ∧
  (e.source = 2 ∨ keyRing d k = none)

/-- An application's envelopes are served on this device (R189). -/
def servedHere (d : Dev) (app : Nat) : Prop := goesOn d (some app) = false

/-- The last response made says `code` to an envelope. -/
def answeredWith (d d' : Dev) (e : Env) (code : Nat) : Prop :=
  ∃ r, d'.gen.resps = d.gen.resps ++ [r] ∧ r.status = code ∧ r.tenant = e.tenant ∧ r.id = e.id ∧ r.reply = e.reply ∧
    r.source = e.source ∧ r.final = true

/-- One descriptor of a task has issued and completed on an engine. -/
def advanced (d d' : Dev) (id eng : Nat) : Prop :=
  ∃ t t', task d id = some t ∧ task d' id = some t' ∧
    t'.issued.get 0 eng = t.issued.get 0 eng + 1 ∧ t'.completed.get 0 eng = t.completed.get 0 eng + 1

/-- A task has failed (R64). -/
def hasFailed (d : Dev) (id : Nat) : Prop := ∃ t, task d id = some t ∧ t.status = .failed

/-- A request is let in (R394, R399, R402, R403): firmware serves the dictionary, the session is open on an enabled transport, the seal
is right, SEQ rises, fewer than 64 requests are unanswered, no value is staged. -/
def letIn (d : Dev) (req : Req) (x : Session) : Prop :=
  dictUp d = true ∧ d.epell.sessions.find? (fun y => y.id == req.ses) = some x ∧ transportOn d x.transport = true ∧
  req.key = x.keyIn ∧ x.seqIn < req.seq ∧ req.held < 64 ∧ x.staged = none

/-- The session with the request's SEQ and frame taken; the device that holds it. -/
def noted (d : Dev) (req : Req) (x : Session) : Session := { x with seqIn := req.seq, lastFrame := d.frame.no }
def heard (d : Dev) (req : Req) (x : Session) : Dev := putSession d (noted d req x)

/-- The ANSWER of a session that sends its next record: REQ_TAG and the items (R394, R395). -/
def sesAnswer (x : Session) (tag : Nat) (items : List (Nat × Nat × List Byte)) : Out :=
  .record x.transport (sealedRec 6 x.id (x.seqOut + 1) x.keyOut (answerBody tag items))

/-- A request that writes one item is let in, and the item is accepted (R396 to R398). -/
def admits (s : State) (req : Req) (x : Session) (i : Item) : Prop :=
  letIn s.dev req x ∧ itemStatus s.nv (heard s.dev req x) (noted s.dev req x) [i] i = stOk

/-- After the effect of an accepted write: its audit entry (R406), and its ANSWER with status OK and EFFECT_FRAME `edge`. -/
def writeDone (s : State) (d : Dev) (req : Req) (x : Session) (i : Item) (edge : Nat) : Dev :=
  answer (auditItem d (noted s.dev req x) i stOk (oldBytes s.nv (heard s.dev req x) i) edge) x.id req.tag [(stOk, edge, [])]

/-- Command `c`, which writes item `i`, is answered OK and has the effect `f` on the device wherever it is let in and accepted. -/
def writesAs (s : State) (req : Req) (c : Instr) (i : Item) (edge : Nat) (f : Dev → Dev) : Prop :=
  ∀ x, admits s req x i → exec c s = .next { s with dev := writeDone s (f (heard s.dev req x)) req x i edge }

/-- The same for a command that changes only what outlives a start, by `g`. -/
def writesNv (s : State) (req : Req) (c : Instr) (i : Item) (g : Nv → Nv) : Prop :=
  ∀ x, admits s req x i → exec c s = .next { s with nv := g s.nv, dev := writeDone s (heard s.dev req x) req x i 0 }

/-- Elements that an array write gives: element number, and value in `w` bytes. -/
def numbered (first w : Nat) (vs : List Nat) : List (Nat × Nat) := vs.zipIdx.map (fun y => (first + y.2, y.1 % 256 ^ w))

/-- A READY device in frame n, hclk o and nothing else that the reset state does not have: past its cut-off and in its guard band,
with no application loaded. -/
def readyDev (n o b : Nat) : Dev :=
  { Dev.reset with
    frame := { FrameS.reset with no := n, off := o, base := b, cut := true, guard := true }
    pow := { PowS.reset with stage := .ready, dev := .ready } }

end Sys2Proof.Machine
end

