-- ==== Sys2Proof/Certificates/Slice0/Obligations.lean ====
section
/-!
DEFINITION. The statements of this model, family by family. A statement about a command says for which states and operands
the command has its own effect, and gives the next state: `{ t.dev with … := s.dev.… } = s.dev` says that nothing of
the device changed but the fields named.
-/
open Sys2Proof Sys2Proof.Machine

/-! ## Events (R412 to R426) -/

/-- R416: a PENDING source's effective level is its LEVEL, one more for each full AGE_LIMIT × 1,024 hclk since the firing
that made it PENDING, at most 14, and LEVEL itself where that is 0 or 15 (an AGE_LIMIT of 0 never raises, R413); in any
other state it is LEVEL; and the record written when the source is taken carries it. -/
def Obligations.EffectiveLevel : Prop :=
  ∀ (d : Dev) (n : Nat) (q : Source) (lost : Bool),
    (q.st ≠ .pending → effLevel d q = q.level) ∧
    (q.st = .pending → (q.level = 0 ∨ q.level = 15 ∨ q.ageLimit = 0) → effLevel d q = q.level) ∧
    (q.st = .pending → 0 < q.level → q.level < 15 → 0 < q.ageLimit →
      effLevel d q = min 14 (q.level + (now d - q.since) / (1024 * q.ageLimit))) ∧
    field (eventRecord d n q lost) 11 4 = effLevel d q ∧ q.level ≤ effLevel d q ∧ effLevel d q ≤ 15

/-- EVENT_FIRE (R415): an INACTIVE source of LEVEL above 0 becomes PENDING with the firing's frame, offset, CODE and ARG; a
PENDING one stays, an ACTIVE one becomes ACTIVE_PENDING, each with COALESCED one up; a source at LEVEL 0 is counted and
nothing more. Every firing counts in EVENTS_RAISED, a merged one in EVENTS_COALESCED too; nothing else changes. FATAL (source 0)
has a statement of its own. That the record to come of an ACTIVE source carries CODE and ARG of the first firing merged into it is log entry 13's choice. -/
def Obligations.EventFirePends : Prop :=
  ∀ (op : FireOp) (s : State), op.src < 2048 → op.src ≠ 0 → srcInfo op.src ≠ none →
    let q := source s.dev op.src
    let fired := { q with frame := s.dev.frame.no, offset := max s.dev.frame.off op.off, code := op.code, arg := op.arg }
    ∃ t, exec (.eventFire op) s = .next t ∧
      (q.level ≠ 0 → q.st = .inactive → source t.dev op.src =
        { fired with st := .pending, coalesced := 0, since := s.dev.frame.base + max s.dev.frame.off op.off, raised := 0 }) ∧
      (q.level ≠ 0 → q.st = .pending → source t.dev op.src = { q with coalesced := q.coalesced + 1 }) ∧
      (q.level ≠ 0 → q.st = .active → source t.dev op.src = { fired with st := .activePending, coalesced := q.coalesced + 1 }) ∧
      (q.level ≠ 0 → q.st = .activePending → source t.dev op.src = { q with coalesced := q.coalesced + 1 }) ∧
      (q.level = 0 → source t.dev op.src = q) ∧
      reg t.dev 0x7004 0x00 = reg s.dev 0x7004 0x00 + 1 ∧
      reg t.dev 0x7004 0x01 = reg s.dev 0x7004 0x01 + (if q.level ≠ 0 ∧ q.st ≠ .inactive then 1 else 0) ∧
      (∀ n, n ≠ op.src → source t.dev n = source s.dev n) ∧
      { t.dev with
        ev := { t.dev.ev with sources := s.dev.ev.sources }, regs := s.dev.regs, frame := s.dev.frame } = s.dev

/-- EVENT_TAKE (R414, R417, R418) at a control processor: the offered source is taken if its effective level exceeds the processor's
threshold and current level, fewer than 15 handlers nest and its event ring has room: it is ACTIVE with COALESCED 0, the
handler runs at the effective level, and the record is the newest delivered. A processor whose threshold or current level is
not exceeded takes nothing. For an MSI-X vector the offered source is taken without the level tests whenever its ring has
room: the vector is raised and the source is ACTIVE. -/
def Obligations.EventTaken : Prop :=
  (∀ (op : TakeOp) (s : State) (k n lvl since : Nat), k < 8 → op.target = .cp k →
    let d := atOff s.dev op.off
    offered d (.cp k) = some (lvl, since, n) → targetRoom d (.cp k) = true → d.pow.stage ≠ .gasp →
    ∃ t, exec (.eventTake op) s = .next t ∧
      (reg d 0x7003 (k + 1) < lvl → cpLevel d k < lvl → (d.ev.handlers.get [] k).length < 15 →
        (source d n).to = .cp k →
        source t.dev n = { source d n with st := .active, coalesced := 0 } ∧
        t.dev.ev.handlers.get [] k = (n, effLevel d (source d n)) :: d.ev.handlers.get [] k ∧
        t.dev.ev.delivered.head? = some (eventRecord d n (source d n) false) ∧
        (∀ m, m ≠ n → source t.dev m = source d m) ∧ (∀ j, j ≠ k → t.dev.ev.handlers.get [] j = d.ev.handlers.get [] j) ∧
        t.dev.mem = s.dev.mem) ∧
      ((lvl ≤ reg d 0x7003 (k + 1) ∨ lvl ≤ cpLevel d k) → t.dev = d)) ∧
  (∀ (op : TakeOp) (s : State) (v n lvl since : Nat), v < 64 → op.target = .vector v →
    let d := atOff s.dev op.off
    offered d (.vector v) = some (lvl, since, n) → targetRoom d (.vector v) = true → d.pow.stage ≠ .gasp →
    (source d n).to = .vector v →
    ∃ t, exec (.eventTake op) s = .next t ∧ t.dev.out.head? = some (.msix v) ∧
      (source t.dev n).st = .active ∧ (source t.dev n).coalesced = 0 ∧
      t.dev.ev.delivered.head? = some (eventRecord d n (source d n) false) ∧ t.dev.ev.handlers = d.ev.handlers ∧
      t.dev.mem = s.dev.mem)

/-- EOI (R415, R417): the running handler's completion returns the processor to the handler it preempted; an ACTIVE source
becomes INACTIVE; one in ACTIVE_PENDING whose target has room is taken again at once. -/
def Obligations.EoiCompletes : Prop :=
  ∀ (op : EoiOp) (s : State) (lvl : Nat) (rest : List (Nat × Nat)), op.cp < 8 → op.src < 2048 →
    let d := atOff s.dev op.off
    let q := source d op.src
    d.ev.handlers.get [] op.cp = (op.src, lvl) :: rest →
    ∃ t, exec (.eoi op) s = .next t ∧
      (q.st = .active →
        t.dev = { d with ev := { d.ev with
          handlers := d.ev.handlers.set [] op.cp rest, sources := d.ev.sources.set (srcIdle op.src) op.src (quiet q) } } ∧
        (quiet q).st = .inactive ∧ (quiet q).coalesced = 0) ∧
      (q.st = .activePending → q.to = .cp op.cp → targetRing d (.cp op.cp) = none →
        (source t.dev op.src).st = .active ∧ (source t.dev op.src).coalesced = 0 ∧
        (t.dev.ev.handlers.get [] op.cp).head? = some (op.src, q.level) ∧
        t.dev.ev.delivered.head? = some (eventRecord d op.src q false))

/-- EVENT_ESCALATE (R416, R425, R433) counts a raise of a PENDING source's, or of an ENABLED ring's, effective level once;
SCRUB_ESCALATE (R426) moves the scrub one place earlier for each SCRUB_AGE frames waited, never past the fill windows. -/
def Obligations.Escalations : Prop :=
  (∀ (op : EscalateOp) (s : State) (n : Nat), op.target = .source n → n < 2048 →
    let d := atOff s.dev op.off
    let q := source d n
    q.st = .pending → q.level + q.raised < effLevel d q →
    ∃ t, exec (.eventEscalate op) s = .next t ∧ source t.dev n = { q with raised := q.raised + 1 } ∧
      reg t.dev 0x7004 0x03 = reg s.dev 0x7004 0x03 + 1 ∧
      { t.dev with ev := { t.dev.ev with sources := s.dev.ev.sources }, regs := s.dev.regs, frame := s.dev.frame } = s.dev) ∧
  (∀ (op : EscalateOp) (s : State) (n : Nat), op.target = .ring n → n < 32768 →
    let d := atOff s.dev op.off
    ringEnabled (ring d n) = true → ringPrio (ring d n) + d.ev.ringRaised.get 0 n < ringLevel d n (ring d n) →
    ∃ t, exec (.eventEscalate op) s = .next t ∧ t.dev.ev.ringRaised.get 0 n = d.ev.ringRaised.get 0 n + 1 ∧
      reg t.dev 0x7004 0x03 = reg s.dev 0x7004 0x03 + 1 ∧
      { t.dev with ev := { t.dev.ev with ringRaised := s.dev.ev.ringRaised }, regs := s.dev.regs, frame := s.dev.frame } = s.dev) ∧
  (∀ (op : AtOp) (s : State), s.dev.ev.scrubPlace < 2 → 0 < reg s.dev 0x7020 0x00 →
    (s.dev.ev.scrubPlace + 1) * reg s.dev 0x7020 0x00 ≤ s.dev.ev.scrubWait →
    exec (.scrubEscalate op) s = .next { s with dev := { atOff s.dev op.off with
      ev := { s.dev.ev with scrubPlace := s.dev.ev.scrubPlace + 1 } } })

/-- FATAL (R413, R415, R421): with CODE 1 or 2 a FAULT entry is appended to the ash record, the EVENT message goes to the manager, CP0
runs the handler at level 15, and nothing is released or admitted from the next edge (the mark `fatal`); where LOG is set and
ASH_RATE leaves room an EVENT entry follows. A firing while the handler runs merges (log entry 138): it writes its FAULT entry, and no second
handler begins. Every other CODE is reserved and does nothing (log entry 1). The STOP_CAUSE to come is 3 or 4 (R429). -/
def Obligations.FatalStops : Prop :=
  ∀ (op : FatalOp) (s : State),
    (op.code = 1 ∨ op.code = 2 → s.dev.pow.stage ≠ .gasp → (source s.dev 0).st = .active →
      ∃ t e, exec (.fatal op) s = .next t ∧ t.dev.pow = { s.dev.pow with fatal := true } ∧
        t.dev.ash.stopCause = (if op.code = 2 then 4 else 3) ∧ field e 0 8 = 0x02 ∧ field e 144 8 = op.code ∧
        t.dev.ash.main = s.dev.ash.main.set 0 (s.dev.ash.next % 516096) e ∧
        (source t.dev 0).st = .activePending ∧ (source t.dev 0).coalesced = (source s.dev 0).coalesced + 1 ∧
        t.dev.ev.handlers = s.dev.ev.handlers ∧ t.dev.out = s.dev.out) ∧
    (op.code = 1 ∨ op.code = 2 → s.dev.pow.stage ≠ .gasp → (source s.dev 0).st = .inactive →
      ∃ t e, exec (.fatal op) s = .next t ∧ t.dev.pow.fatal = true ∧
        t.dev.ash.stopCause = (if op.code = 2 then 4 else 3) ∧
        field e 0 8 = 0x02 ∧ field e 144 8 = op.code ∧ field e 64 64 = s.dev.frame.no % 2 ^ 64 ∧
        (let logged := (source s.dev 0).log = true ∧ s.dev.ash.perFrame < reg s.dev 0xA003 0x00
         (¬logged → t.dev.ash.main = s.dev.ash.main.set 0 (s.dev.ash.next % 516096) e) ∧
         (logged → ∃ v, field v 0 8 = 0x01 ∧ t.dev.ev.delivered.head?.map (·.toNat) = some (field v 128 128) ∧
          t.dev.ash.main = (s.dev.ash.main.set 0 (s.dev.ash.next % 516096) e).set 0 ((s.dev.ash.next + 1) % 516096) v)) ∧
        (s.dev.ash.firstFault.length < 1024 → t.dev.ash.firstFault = s.dev.ash.firstFault ++ [e]) ∧
        t.dev.ev.handlers.get [] 0 = (0, 15) :: s.dev.ev.handlers.get [] 0 ∧
        (∃ r, t.dev.out = .eventMsg r :: s.dev.out ∧ t.dev.ev.delivered.head? = some r ∧ field r 0 11 = 0 ∧ field r 16 8 = op.code) ∧
        reg t.dev 0x7004 0x00 = reg s.dev 0x7004 0x00 + 1 ∧
        { t.dev with
          ev := s.dev.ev, ash := s.dev.ash, regs := s.dev.regs, out := s.dev.out, frame := s.dev.frame
          pow := { t.dev.pow with fatal := s.dev.pow.fatal } } = s.dev) ∧
    (op.code ≠ 1 → op.code ≠ 2 → exec (.fatal op) s = .next s)

/-- DOORBELL_TAIL and DOORBELL_HEAD (R423), while no response waits for a ring: a new TAIL that does not move backwards and leaves
at most a full ring is taken, a new HEAD that does not pass TAIL is taken, and the ring's context changes in nothing else; a
doorbell that fails its check leaves every ring as it is, counts in DOORBELL_BAD and fires source 7 with the ring
number as ARG. Firmware's service of a ring (RING_SERVICE, R425) moves HEAD of the ring next in order by one. -/
def Obligations.DoorbellsMoveIndices : Prop :=
  (∀ (op : DoorbellOp) (s : State) (n : Nat),
    let d := atOff s.dev op.off
    let c := ring d n
    doorbellRing d op.pcie op.owner op.slot = some n → (∀ r ∈ s.dev.gen.resps, r.waits = false) →
    (op.index < 2 * ringSize c → ringFill c ≤ ringAhead c (ringHead c) op.index → ringAhead c (ringHead c) op.index ≤ ringSize c →
      field c 113 17 ≠ op.index →
      ∃ t, exec (.doorbellTail op) s = .next t ∧ t.dev.ev.rings = d.ev.rings.set ringReset n (setField c 113 17 op.index) ∧
        t.dev.mem = s.dev.mem) ∧
    (op.index < 2 * ringSize c → ringAhead c (ringHead c) op.index ≤ ringFill c → field c 96 17 ≠ op.index →
      passed d n (ringHead c) (ringAhead c (ringHead c) op.index) = [] →
      ∃ t, exec (.doorbellHead op) s = .next t ∧ t.dev.ev.rings = d.ev.rings.set ringReset n (setField c 96 17 op.index) ∧
        t.dev.mem = s.dev.mem) ∧
    (2 * ringSize c ≤ op.index ∨ ringAhead c (ringHead c) op.index < ringFill c ∨ ringSize c < ringAhead c (ringHead c) op.index →
      ∃ t, exec (.doorbellTail op) s = .next t ∧ t.dev.ev.rings = d.ev.rings ∧
        reg t.dev 0x7004 0x04 = reg d 0x7004 0x04 + 1 ∧ ((source d 7).st = .inactive → (source d 7).level ≠ 0 →
          (source t.dev 7).st = .pending ∧ (source t.dev 7).arg = n)) ∧
    (2 * ringSize c ≤ op.index ∨ ringFill c < ringAhead c (ringHead c) op.index →
      ∃ t, exec (.doorbellHead op) s = .next t ∧ t.dev.ev.rings = d.ev.rings ∧
        reg t.dev 0x7004 0x04 = reg d 0x7004 0x04 + 1)) ∧
  (∀ (op : RingServiceOp) (s : State) (n : Nat),
    let d := atOff s.dev op.off
    let c := ring d n
    servedRing d = some n → ringShared c = true → ringHead c < 2 * ringSize c → 0 < ringFill c →
    passed d n (ringHead c) 1 = [] →
    ∃ t, exec (.ringService op) s = .next t ∧
      t.dev.ev.rings = d.ev.rings.set ringReset n (setField c 96 17 ((ringHead c + 1) % (2 * ringSize c))) ∧ t.dev.mem = s.dev.mem)

/-! ## Frames and the tick (R12 to R37) -/

/-- TICK_EDGE (R18, R25) on a READY device with nothing loaded, no plan and every entry at its default: FRAME_NO rises by one, time
starts anew where the frame's 500 µs at 850 MHz have passed, WALL_TIME is taken, the frames of service are counted, and TICK_OUT
pulses; before READY there is no edge. -/
def Obligations.TickEdgeBeginsFrame : Prop :=
  (∀ (op : TickEdgeOp) (s : State) (n o b : Nat), s.dev = readyDev n o b → op.tree = [] → op.losses = [] → op.evals = [] →
    ∃ t, exec (.tickEdge op) s = .next t ∧
      t.dev.frame = { FrameS.reset with no := n + 1, off := 0, base := b + 425000 } ∧
      t.dev.pow.tickOut = b + 425000 + 850 ∧ reg t.dev 0x1031 0x00 = op.wall ∧ reg t.dev 0x0006 0x00 = 1 ∧
      t.dev.mem = s.dev.mem ∧ t.nv = s.nv) ∧
  (∀ (op : TickEdgeOp) (s : State), running s.dev = false → exec (.tickEdge op) s = .next s)

/-- The manager's tick (R13, R16): a TICK for this worker, of a term not older than it has seen, announces a frame's number for the
nearer edge, is remembered with its manager, and its error is measured: the manager's edge is its arrival less its correction.
HOLDOVER becomes REALIGNING and the run of HOLDOVER frames ends; one that counts for no edge leaves the alignment alone.
TICK_IN_EDGE (R15) does the same on a device whose TICK_SOURCE is TICK_IN, with the offset at which the pin rose. -/
def Obligations.TickArrives : Prop :=
  (∀ (op : TickMsg) (s : State), op.port < 16 →
    arrives (atOff s.dev op.off) op.port 0x01
      { op.msg with body := tickBody (relayed (atOff s.dev op.off) op) op.term op.changes } →
    reg s.dev 0x4002 0x00 ≤ op.term → reg s.dev 0x4000 0x01 ≠ 1 → reg s.dev 0x1020 0x00 = 1 →
    let d := atOff s.dev op.off
    let at' := tickAt d op
    let e := if nearLast d at' then -at' else psOfHclk d (periodHclk d) - at'
    let tick := if d.frame.tick = .holdover then .realigning else d.frame.tick
    let told := if nearLast d at' then { d.frame with announced := some op.msg.stamp }
      else { d.frame with announcedNext := some op.msg.stamp }
    ∃ t, exec (.tick op) s = .next t ∧
      (tickCounts d at' = true → t.dev.frame = { told with
        error := e, timer := false, holdRun := 0, tick := tick
        guardAdj := if nearLast d at' then guardFor d tick e else d.frame.guardAdj }) ∧
      (tickCounts d at' = false → t.dev.frame = told) ∧
      t.dev.lig.lastTick = s.dev.frame.no ∧ t.dev.lig.manager = op.msg.srcDevice ∧
      t.dev.mem = s.dev.mem ∧ t.dev.gen = s.dev.gen) ∧
  (∀ (op : EdgePinOp) (s : State), running s.dev = true → tickSource s.dev = 2 →
    let d := atOff s.dev op.off
    let at' := psOfHclk d d.frame.off
    let e := if nearLast d at' then -at' else psOfHclk d (periodHclk d) - at'
    let tick := if d.frame.tick = .holdover then .realigning else d.frame.tick
    let seen := { d.frame with
      tickIn := d.frame.tickIn || decide (4 * d.frame.off < periodHclk d)
      tickInNext := d.frame.tickInNext || decide (3 * periodHclk d ≤ 4 * d.frame.off) }
    ∃ t, exec (.tickInEdge op) s = .next t ∧
      (tickCounts d at' = true → t.dev.frame = { seen with
        error := e, timer := false, holdRun := 0, tick := tick
        guardAdj := if nearLast d at' then guardFor d tick e else d.frame.guardAdj } ∧ reg t.dev 0x1022 0x00 = ofSigned 32 e) ∧
      (tickCounts d at' = false → t.dev.frame = seen) ∧
      { t.dev with frame := s.dev.frame, regs := s.dev.regs } = s.dev)

/-- A missing tick (R16): a worker whose frame's first quarter passes without the TICK it awaits enters HOLDOVER, on its own timer,
counted and raised as E0001; at HOLDOVER_LIMIT frames in HOLDOVER it is EXPIRED, raised as E0002. A device on its own timer
(TICK_SOURCE 0) never enters HOLDOVER. -/
def Obligations.HoldoverAndExpiry : Prop :=
  (∀ (op : AtOp) (s : State), running s.dev = true → tickSource s.dev = 1 → s.dev.frame.announced = none →
    s.dev.frame.timer = false → s.dev.frame.tick ≠ .expired →
    ∃ t, exec (.holdoverEntry op) s = .next t ∧
      t.dev.frame = { (atOff s.dev op.off).frame with timer := true, guardAdj := 0, holdRun := 1, tick := .holdover } ∧
      reg t.dev 0x1048 0x03 = reg s.dev 0x1048 0x03 + 1 ∧
      ((source s.dev 1).st = .inactive → (source s.dev 1).level ≠ 0 → (source t.dev 1).st = .pending) ∧
      { t.dev with ev := s.dev.ev, regs := s.dev.regs, frame := s.dev.frame } = s.dev) ∧
  (∀ (op : AtOp) (s : State), s.dev.frame.tick = .holdover → reg s.dev 0x1021 0x00 ≤ s.dev.frame.holdRun →
    ∃ t, exec (.holdoverLimitExpiry op) s = .next t ∧ t.dev.frame = { (atOff s.dev op.off).frame with tick := .expired } ∧
      ((source s.dev 2).st = .inactive → (source s.dev 2).level ≠ 0 → (source t.dev 2).st = .pending) ∧
      { t.dev with ev := s.dev.ev, regs := s.dev.regs, frame := s.dev.frame } = s.dev) ∧
  (∀ (op : AtOp) (s : State), tickSource s.dev = 0 → exec (.holdoverEntry op) s = .next { s with dev := atOff s.dev op.off })

/-- PPS_IN (R17), on a READY device that uses it: the pulse tells WALL_TIME of the next edge, and where the period divides a second the
frame's guard band changes so that an edge falls on the pulse, or on the next one (log entry 34). UPSTREAM_DELAY_MEASURE (R14) sends a TSYNC question on the link to the relay-tree parent, and
LINK_DELAY_MEASURE (R296) one on any UP port. -/
def Obligations.PulsesAndDelays : Prop :=
  (∀ (op : EdgePinOp) (s : State), running s.dev = true → usesPps s.dev = true →
    let d := atOff s.dev op.off
    exec (.ppsInEdge op) s = .next { s with dev := { s.dev with frame := { d.frame with
      pps := some (op.wall, d.frame.off)
      guardAdj := if 1000000 % reg s.dev 0x1010 0x00 ≠ 0 then d.frame.guardAdj
        else if guardStart s.dev ≤ d.frame.off then (d.frame.off : Int) - periodHclk s.dev else d.frame.off } } }) ∧
  (∀ (op : PortOp) (s : State), op.port < 16 → portUp s.dev op.port = true →
    (upstream s.dev op.port = true → exec (.upstreamDelayMeasure op) s = .next { s with dev := { s.dev with
      frame := (atOff s.dev op.off).frame, out := .flit op.port 4 0 0 0 :: s.dev.out } }) ∧
    exec (.linkDelayMeasure op) s = .next { s with dev := { s.dev with
      frame := (atOff s.dev op.off).frame, out := .flit op.port 4 0 0 0 :: s.dev.out } })

/-- ADMISSION_CUTOFF (R27): on a READY device not yet past it, the cut-off closes admission for the frame at the start of the training
slice or later; a plan that the planner did not complete leaves none for the next frame; on a device where nothing is due, a plan
without work is taken as it is. A second cut-off in a frame does nothing. -/
def Obligations.CutoffClosesAdmission : Prop :=
  ∀ (op : CutoffOp) (s : State),
    (running s.dev = true → s.dev.frame.cut = false →
      ∃ t, exec (.admissionCutoff op) s = .next t ∧ t.dev.frame.cut = true ∧
        (op.plan = none → t.dev.frame.next = none) ∧
        (∀ p, op.plan = some p → s.dev.frame.guard = false → s.dev.gen.apps = [] → s.dev.gen.reqs = [] → s.dev.frame.retry = [] →
          s.dev.frame.carry = [] → s.dev.waiting = [] → s.dev.base = [] → s.dev.train.jobs = [] → s.dev.train.evals = [] → s.dev.train.scribe = [] →
          (∀ k < 32, reg s.dev 0x1101 (k + 1) ≠ 1) → p.tasks = [] → p.binds = [] → p.tiles = [] → p.batches = [] →
          p.runTables = [] → p.scales = [] → p.scrubs = [] → p.recals = [] → p.tallyMap = [] → p.reduction = [] → t.dev.frame.next = some p)) ∧
    (running s.dev = true → s.dev.frame.cut = true → exec (.admissionCutoff op) s = .next s)

/-- GUARD_BAND_START (R31, R32) with no task in force: the guard band holds, and without a complete plan PLAN_MISSED counts and
E0003 fires. WINDOW_CLOSE (R32, R33): a live task with descriptors left whose last window on an engine has closed, and that is not
held there, is late, and WINDOW_OVERRUN counts it once; one that is held fails with ACC_CONFLICT. -/
def Obligations.WindowsAndGuardBand : Prop :=
  (∀ (op : AtOp) (s : State), running s.dev = true → s.dev.frame.guard = false → s.dev.frame.tasks = [] →
    ∃ t, exec (.guardBandStart op) s = .next t ∧ t.dev.frame = { (atOff s.dev op.off).frame with guard := true } ∧
      (s.dev.frame.next = none → reg t.dev 0x1048 0x02 = reg s.dev 0x1048 0x02 + 1 ∧
        ((source s.dev 3).st = .inactive → (source s.dev 3).level ≠ 0 → (source t.dev 3).st = .pending)) ∧
      (s.dev.frame.next ≠ none → { t.dev with frame := s.dev.frame } = s.dev)) ∧
  (∀ (op : WindowCloseOp) (s : State) (x : Task), op.eng < 1064 →
    let d := atOff s.dev op.off
    task d op.task = some x → x.status = .live → x.closed.contains op.eng = false →
    (x.plan.windows.any (fun w => w.eng == op.eng)) = true →
    (x.plan.windows.all (fun w => w.eng != op.eng || decide (w.stop ≤ d.frame.off))) = true →
    x.completed.get 0 op.eng < ((x.plan.windows.filter (fun w => w.eng == op.eng)).map (·.count)).sum →
    (heldAt d x op.task (some op.eng) = false → x.overrun = false →
      ∃ t y, exec (.windowClose op) s = .next t ∧ task t.dev op.task = some y ∧ y.status = .late ∧ y.overrun = true ∧
        y.closed = op.eng :: x.closed ∧ (x.plan.part < 8 → reg t.dev 0x1043 (x.plan.part + 1) = reg s.dev 0x1043 (x.plan.part + 1) + 1)) ∧
    (heldAt d x op.task (some op.eng) = true →
      ∃ t, exec (.windowClose op) s = .next t ∧ hasFailed t.dev op.task ∧
        (x.plan.part < 8 → reg t.dev 0x2043 (x.plan.part + 1) = reg s.dev 0x2043 (x.plan.part + 1) + 1)))

/-! ## Sequencers, semaphores and buffer rings (R48, R49, R130 to R136) -/

/-- NOP, SEM_WAIT, SEM_ADD, RING_RELEASE and RING_PUBLISH at their stream's head inside an open window of its live task (R48, R49,
R130 to R132, R135): a NOP of a Hearth's stream does nothing but count; a wait takes its value from a semaphore that holds it; an
addition adds where the sum stays within 65,535; a publish moves TAIL, COUNT and the FULL semaphore, a release HEAD, COUNT and
the EMPTY semaphore. Each counts as issued and completed by the sequencer. -/
def Obligations.SequencerDescriptors : Prop :=
  ∀ (op : Desc8Op) (s : State) (id : Nat) (x : Task), op.stream < 1056 →
    let d := atOff s.dev op.off
    let c := clusterOfStream op.stream
    let v : SemDesc := op.desc
    atHead d op.stream = some (id, x) → anyWindowOpen x d.frame.off = true →
    (op.stream < 1024 → field op.desc 0 8 = 1 →
      ∃ t, exec (.nop op) s = .next t ∧ advanced d t.dev id engSeq ∧ t.dev.mem.sems = s.dev.mem.sems) ∧
    (v.ok = true → v.opcode = 0x40 → poisoned d c v.target = false → v.value ≤ sem d c v.target →
      ∃ t, exec (.semWait op) s = .next t ∧ advanced d t.dev id engSeq ∧
        t.dev.mem.sems = s.dev.mem.sems.set 0 (1024 * c + v.target) (sem d c v.target - v.value)) ∧
    (v.ok = true → v.opcode = 0x41 → sem d c v.target + v.value ≤ 65535 →
      ∃ t, exec (.semAdd op) s = .next t ∧ advanced d t.dev id engSeq ∧
        t.dev.mem.sems = s.dev.mem.sems.set 0 (1024 * c + v.target) (sem d c v.target + v.value)) ∧
    (let r := bring d c v.target
     v.ok = true → r.enabled = true →
      (v.opcode = 0x42 → v.value ≤ r.count → sem d c r.empty + v.value ≤ 65535 →
        ∃ t, exec (.ringRelease op) s = .next t ∧ advanced d t.dev id engSeq ∧
          t.dev.mem.sems = s.dev.mem.sems.set 0 (1024 * c + r.empty) (sem d c r.empty + v.value) ∧
          t.dev.mem.brings = s.dev.mem.brings.set 0 (64 * c + v.target)
            (setField (setField r 40 4 ((r.head + v.value) % r.slots)) 48 5 (r.count - v.value))) ∧
      (v.opcode = 0x43 → r.count + v.value ≤ r.slots → sem d c r.full + v.value ≤ 65535 →
        ∃ t, exec (.ringPublish op) s = .next t ∧ advanced d t.dev id engSeq ∧
          t.dev.mem.sems = s.dev.mem.sems.set 0 (1024 * c + r.full) (sem d c r.full + v.value) ∧
          t.dev.mem.brings = s.dev.mem.brings.set 0 (64 * c + v.target)
            (setField (setField r 44 4 ((r.tail + v.value) % r.slots)) 48 5 (r.count + v.value))))

/-- Where a sequencer's descriptor does not run (R64, R132, R136): an invalid NOP fails its task with DESC_INVALID; a wait on a
semaphore that holds less waits, and nothing moves; a wait on a poisoned one fails its task; an addition past 65,535 fails it with
SEM_OVERFLOW and a publish on a full ring with RING_OVERRUN, both leaving semaphores and rings as they were. -/
def Obligations.SequencerFailures : Prop :=
  ∀ (op : Desc8Op) (s : State) (id : Nat) (x : Task), op.stream < 1056 →
    let d := atOff s.dev op.off
    let c := clusterOfStream op.stream
    let v : SemDesc := op.desc
    atHead d op.stream = some (id, x) → anyWindowOpen x d.frame.off = true →
    (field op.desc 0 8 ≠ 1 →
      ∃ t, exec (.nop op) s = .next t ∧ hasFailed t.dev id ∧
        (x.plan.part < 8 → reg t.dev 0x2046 (x.plan.part + 1) = reg s.dev 0x2046 (x.plan.part + 1) + 1)) ∧
    (v.ok = true → v.opcode = 0x40 → poisoned d c v.target = false → sem d c v.target < v.value →
      exec (.semWait op) s = .next { s with dev := d }) ∧
    (v.ok = true → v.opcode = 0x40 → poisoned d c v.target = true →
      ∃ t, exec (.semWait op) s = .next t ∧ hasFailed t.dev id ∧ t.dev.mem.sems = s.dev.mem.sems) ∧
    ((∀ y ∈ s.dev.mem.te, ∀ z ∈ y.2, z.part < 8) → v.ok = true → v.opcode = 0x41 → 65535 < sem d c v.target + v.value →
      ∃ t, exec (.semAdd op) s = .next t ∧ hasFailed t.dev id ∧ t.dev.mem.sems = s.dev.mem.sems ∧
        (x.plan.part < 8 → reg t.dev 0x2054 (x.plan.part + 1) = reg s.dev 0x2054 (x.plan.part + 1) + 1)) ∧
    ((∀ y ∈ s.dev.mem.te, ∀ z ∈ y.2, z.part < 8) → v.ok = true → v.opcode = 0x43 → (bring d c v.target).enabled = true →
      (bring d c v.target).slots < (bring d c v.target).count + v.value →
      ∃ t, exec (.ringPublish op) s = .next t ∧ hasFailed t.dev id ∧ t.dev.mem.sems = s.dev.mem.sems ∧
        t.dev.mem.brings = s.dev.mem.brings ∧
        (x.plan.part < 8 → reg t.dev 0x2055 (x.plan.part + 1) = reg s.dev 0x2055 (x.plan.part + 1) + 1))

/-! ## Arrays, Ductus and numerics (R38 to R116) -/

/-- MATMUL for one array (R49, R51, R60) at its stream's head inside its task's window: a valid descriptor whose wait passes, on an
array with room and a tile that it owns, or a free tile that it starts, joins the array's queue behind what is there, takes the
tile, takes one from its WAIT semaphore, and counts as issued. On another ring's tile it is held (R61); an ACCUMULATE on a free
tile fails the task with ACC_UNOWNED. -/
def Obligations.MatmulIssues : Prop :=
  ∀ (op : MatmulOp) (s : State) (id a : Nat) (x : Task), op.stream < 1024 →
    let d := ductEnter (atOff s.dev op.off) (op.stream / 4)
    let v : MatDesc := op.desc
    let h := op.stream / 4
    let k := tileKey h a v.tile
    let c := clusterOfStream op.stream
    atHead (atOff s.dev op.off) op.stream = some (id, x) → v.array = a → a < 2 → windowOpen x (engArray h a) d.frame.off = true →
    matOk (atOff s.dev op.off) h v op.follower = true →
    (v.waitEn = true → poisoned d c v.waitSem = false ∧ sem d c v.waitSem ≠ 0) →
    (array d (arrayKey h a)).queue.length < 2 →
    (((tile d k).owner = none ∧ v.mode = 0) ∨ (tile d k).owner = some (stream d op.stream).ring →
      ∃ t o y, exec (.matmul op) s = .next t ∧
        (array t.dev (arrayKey h a)).queue = (array d (arrayKey h a)).queue ++ [o] ∧ o.desc = op.desc ∧ o.task = id ∧
        o.stream = op.stream ∧ o.step = 0 ∧ o.pass = 0 ∧ o.paired = false ∧
        (tile t.dev k).owner = some (stream d op.stream).ring ∧ (tile t.dev k).acc = (tile d k).acc ∧
        task t.dev id = some y ∧ y.issued.get 0 (engArray h a) = x.issued.get 0 (engArray h a) + 1 ∧
        t.dev.mem.sems = (if v.waitEn then s.dev.mem.sems.set 0 (1024 * c + v.waitSem) (sem d c v.waitSem - 1) else s.dev.mem.sems)) ∧
    (∀ r, (tile d k).owner = some r → r ≠ (stream d op.stream).ring →
      ∃ t, exec (.matmul op) s = .next t ∧ (tile t.dev k).held = true ∧ (stream t.dev op.stream).held = some (k, engArray h a) ∧
        t.dev.mem.sems = s.dev.mem.sems) ∧
    ((tile d k).owner = none → v.mode = 1 →
      ∃ t, exec (.matmul op) s = .next t ∧ hasFailed t.dev id ∧
        (x.plan.part < 8 → reg t.dev 0x2044 (x.plan.part + 1) = reg s.dev 0x2044 (x.plan.part + 1) + 1))

/-- TILE_STEP_END (R53, R56) of the descriptor in front of an array, not paired and not behind a DRAIN of its tile: without an overflow
the chunk terms of every cell are promoted onto the tile under the descriptor's scales, which it reads once (log entry 145), from +0
for the first step of a START, whose task the tile then names, and the descriptor goes to its next tile step; with one the step runs again with the unit four bits up, the tile as it was. -/
def Obligations.TileStepPromotes : Prop :=
  ∀ (op : ArrayOp) (s : State) (o : MatOp) (rest : List MatOp), op.hearth < 256 → op.array < 2 →
    let d := ductEnter (atOff s.dev op.off) op.hearth
    let v : MatDesc := o.desc
    let ak := arrayKey op.hearth op.array
    let tk := tileKey op.hearth op.array v.tile
    let x := tile d tk
    let src := ((array d ak).held.map (·.elems)).getD []
    let ba := o.blkA.getD (blockA d op.hearth v o.step src)
    let bb := o.blkB.getD (blockB d op.hearth v o.step src)
    let r := passTerms d op.hearth v o.step o.pass ba bb
    let scales := o.scales.getD (descScales d op.hearth v)
    let first := v.mode = 0 ∧ o.step = 0
    (array d ak).queue = o :: rest → o.paired = false → o.ready = false → o.step < v.steps →
    drainAhead d op.hearth op.array v.tile o.seq = false →
    (r.2 = false →
      ∃ t, exec (.tileStepEnd op) s = .next t ∧
        (array t.dev ak).queue =
          { o with
            step := o.step + 1, pass := 0, blkA := none, blkB := none, last := some (o.step, o.pass, ba, bb), scales := some scales } ::
            rest ∧
        (x.owner ≠ none → tile t.dev tk =
          { x with acc := promote scales (if first then [] else x.acc) r.1, task := if first then o.task else x.task }) ∧
        t.dev.mem = s.dev.mem) ∧
    (r.2 = true →
      ∃ t, exec (.tileStepEnd op) s = .next t ∧
        (array t.dev ak).queue = { o with pass := o.pass + 1, blkA := some ba, blkB := some bb, scales := some scales } :: rest ∧
        t.dev.hearth.tiles = d.hearth.tiles ∧ t.dev.mem = s.dev.mem)

/-- MATMUL_COMPLETE (R33, R51, R67) once the last tile step is promoted, in its task's window: the descriptor leaves its array, the block it HOLDs stays in the
operand buffer, its SIG_SEM rises by one, and its task counts the completion; before that, and after the window has closed, it changes nothing in the arrays. -/
def Obligations.MatmulCompletes : Prop :=
  ∀ (op : ArrayOp) (s : State) (o : MatOp) (rest : List MatOp) (x : Task), op.hearth < 256 → op.array < 2 →
    let v : MatDesc := o.desc
    let ak := arrayKey op.hearth op.array
    let c := clusterOf op.hearth
    let open' := windowOpen x (engArray op.hearth op.array) (max s.dev.frame.off op.off)
    (array s.dev ak).queue = o :: rest → task s.dev o.task = some x →
    (v.steps ≤ o.step → open' = true → undrained s.dev o.task = false → (v.sigEn = true → sem s.dev c v.sigSem < 65535) →
      ∃ t y, exec (.matmulComplete op) s = .next t ∧
        t.dev.hearth.arrays = s.dev.hearth.arrays.set arrayIdle ak { queue := rest, held := leftBlock o } ∧
        task t.dev o.task = some y ∧
        y.completed.get 0 (engArray op.hearth op.array) = x.completed.get 0 (engArray op.hearth op.array) + 1 ∧
        t.dev.mem.sems = (if v.sigEn then s.dev.mem.sems.set 0 (1024 * c + v.sigSem) (sem s.dev c v.sigSem + 1) else s.dev.mem.sems)) ∧
    (o.step < v.steps ∨ open' = false → ∃ t, exec (.matmulComplete op) s = .next t ∧ t.dev.hearth.arrays = s.dev.hearth.arrays ∧
      t.dev.frame.tasks = s.dev.frame.tasks ∧ t.dev.mem = s.dev.mem)

/-- TRACER_PASS_END (R93 to R95) for a tile step that the stream step's draw samples, with NUM_SEED as at the copybook load: TRACER_SAMPLED and the stream's count rise by one, the count of
disagreements by at most one, the worst value never falls, and no tile, memory or tally changes. An unsampled one does nothing. -/
def Obligations.TracerSamples : Prop :=
  ∀ (op : TracerOp) (s : State) (r : Nat) (o : MatOp) (last : Nat × Nat × List (List Nat) × List (List Nat)),
    op.hearth < 256 → op.array < 2 → op.stream < 8192 → s.dev.num.rate = some r →
    (array s.dev (arrayKey op.hearth op.array)).queue.head? = some o → o.last = some last →
    let was := s.dev.num.trace.get traceIdle op.stream
    let seed := (limitsOf s.dev op.stream).seed
    let step := stepIndex s.dev op.stream (some o.task)
    ((streamRec s.dev op.stream).traced = true → op.step = step → tracerSelects seed op.stream step op.index r = true →
      ∃ t, exec (.tracerPassEnd op) s = .next t ∧
        (let now := t.dev.num.trace.get traceIdle op.stream
         now.sampled = was.sampled + 1 ∧ was.disagreed ≤ now.disagreed ∧ now.disagreed ≤ was.disagreed + 1 ∧ was.worst ≤ now.worst) ∧
        reg t.dev 0x5041 (partOfHearth op.hearth + 1) = reg s.dev 0x5041 (partOfHearth op.hearth + 1) + 1 ∧
        t.dev.hearth = s.dev.hearth ∧ t.dev.mem = s.dev.mem) ∧
    (op.step ≠ step ∨ tracerSelects seed op.stream step op.index r = false →
      exec (.tracerPassEnd op) s = .next { s with dev := atOff s.dev op.off })

/-- VOP and DRAIN (R49, R60, R107) at their stream's head inside their task's window: a valid descriptor that waits for no semaphore,
on a Ductus with room, joins its queue behind what is there and counts as issued; a DRAIN needs the tile to be its ring's, is held
on another's, and fails its task with ACC_UNOWNED on a free one; an invalid descriptor fails its task with DESC_INVALID. A
quantise descriptor runs with the h, D and FLOOR pinned for its tally slot (R88, R110); one of the other mode does nothing
(log entry 177). -/
def Obligations.DuctusIssues : Prop :=
  ∀ (op : Desc64Op) (s : State) (id : Nat) (x : Task), op.stream < 1024 →
    let h := op.stream / 4
    let d := ductGo (atOff s.dev op.off) h
    let v : DuctDesc := op.desc
    let k := tileKey h v.tarray v.tile
    let queued := fun (t : State) => ∃ y, (ductus t.dev h).map (·.desc) = (ductus d h).map (·.desc) ++ (pinned d h v).toList ∧
      task t.dev id = some y ∧ y.issued.get 0 (engDuctus h) = x.issued.get 0 (engDuctus h) + 1
    atHead (atOff s.dev op.off) op.stream = some (id, x) → windowOpen x (engDuctus h) d.frame.off = true →
    (ductOk d h v = true → pinned d h v = none → exec (.vop op) s = .next { s with dev := d } ∧ exec (.drain op) s = .next { s with dev := d }) ∧
    (ductOk d h v = true → pinned d h v ≠ none → v.waitEn = false → ductHeld d (ductus d h) < 2 →
      (v.opcode = 0x20 → ∃ t, exec (.vop op) s = .next t ∧ queued t ∧ t.dev.mem = d.mem) ∧
      (v.opcode = 0x21 →
        ((tile d k).owner = some (stream d op.stream).ring → ∃ t, exec (.drain op) s = .next t ∧ queued t ∧ t.dev.mem = d.mem) ∧
        (∀ r, (tile d k).owner = some r → r ≠ (stream d op.stream).ring →
          ∃ t, exec (.drain op) s = .next t ∧ (tile t.dev k).held = true ∧ (stream t.dev op.stream).held = some (k, engDuctus h)) ∧
        ((tile d k).owner = none → ∃ t, exec (.drain op) s = .next t ∧ hasFailed t.dev id))) ∧
    (ductOk d h v = false →
      (∃ t, exec (.vop op) s = .next t ∧ hasFailed t.dev id) ∧ (∃ t, exec (.drain op) s = .next t ∧ hasFailed t.dev id))

/-- DUCTUS_COMPLETE (R33, R107) for the descriptor in front once its last beat and the chain's latency have passed, in its task's window:
what it computed is written to operand space, it leaves the queue, SIG_SEM rises by one, and its task counts the completion.
Earlier than that, or where the window closes before it, memory stays as it is. -/
def Obligations.DuctusCompletes : Prop :=
  ∀ (op : HearthOp) (s : State) (o : DuctOp) (rest : List DuctOp) (x : Task), op.hearth < 256 →
    let h := op.hearth
    let v : DuctDesc := o.desc
    let c := clusterOf h
    ductus s.dev h = o :: rest → o.started = true → task s.dev o.task = some x →
    (∀ y ∈ s.dev.frame.tasks, ∀ z, y.2 = some z → z.plan.contribs = []) →
    (o.last + latency v ≤ max s.dev.frame.off op.off → windowOpen x (engDuctus h) (o.last + latency v) = true →
      undrained (ductGo (atOff s.dev op.off) h) o.task = false → (v.sigEn = true → sem s.dev c v.sigSem < 65535) →
      ∃ t y, exec (.ductusComplete op) s = .next t ∧
        t.dev.mem.well = (forEach o.writes s.dev (fun d w => opPut d h w.1 w.2)).mem.well ∧
        t.dev.mem.ink = (forEach o.writes s.dev (fun d w => opPut d h w.1 w.2)).mem.ink ∧
        (rest ≠ [] → (ductus t.dev h).map (·.desc) = rest.map (·.desc)) ∧ task t.dev o.task = some y ∧
        y.completed.get 0 (engDuctus h) = x.completed.get 0 (engDuctus h) + 1 ∧
        t.dev.mem.sems = (if v.sigEn then s.dev.mem.sems.set 0 (1024 * c + v.sigSem) (sem s.dev c v.sigSem + 1) else s.dev.mem.sems)) ∧
    (max s.dev.frame.off op.off < o.last + latency v ∨ windowOpen x (engDuctus h) (o.last + latency v) = false →
      ∃ t, exec (.ductusComplete op) s = .next t ∧ t.dev.mem = s.dev.mem)

/-- DAMPER_STEP (R84, R87, R89, R91) processes the oldest closed step of a stream. SPREAD takes the largest d, up to 63, or decays;
BUMP and COUNTDOWN follow the overflows, under the limits of the last copybook load (R96); STEPS rises by one; COLD clears once
COLD_LEFT is 0. Evidence from before the stream turned cold raises STEPS alone; that of a frozen stream counts at the ceiling too.
No other record changes. A record with an uncorrectable error turns its stream cold (R90; that this command meets it is log entry
179). A frozen stream's tasks are EXACT at HR_BASE (R91), and those of a cold FRAME step EXACT with at least COLD_HEADROOM (R88). -/
def Obligations.DamperProcesses : Prop :=
  ∀ (op : DamperOp) (s : State) (e : Evidence), op.part < 8 → op.stream < 1024 →
    let st := 1024 * op.part + op.stream
    let r := streamRec s.dev st
    let dm : Int := if e.dmax = 0 then 0 else (e.dmax : Int) - 129
    let lim := limitsOf s.dev st
    let top := lim.hrMax
    let span := lim.bumpSteps
    let rest := (stepsOf s.dev st).eraseP (·.handed)
    (op.bad = true → r.adapt = true → stepsOf s.dev st = [] →
      ∃ t u, exec (.damperStep op) s = .next t ∧ t.dev.num.records = s.dev.num.records.set 0 st u ∧
        StreamRec.cold u = true ∧ StreamRec.coldLeft u = lim.coldSteps % 32 ∧ StreamRec.spread u = 0 ∧ StreamRec.bumpOf u = 0 ∧
        StreamRec.hrBase u = r.hrBase ∧ StreamRec.steps u = r.steps ∧
        t.dev.num.eras.get 0 st = s.dev.num.eras.get 0 st + 1 ∧ t.dev.regs = s.dev.regs) ∧
    (∀ tag, r.adapt = false → pinOf s.dev st tag = { exact := true, h := r.hrBase, spread := 0, floor := r.floor }) ∧
    (∀ l, r.adapt = true → r.training = false → stepsOf s.dev st = l ++ [e] → e.cold = true →
      (pinOf s.dev st (0, 0)).exact = true ∧ (pinOf s.dev st (0, 0)).h = max lim.coldHr (r.hrBase + r.bumpOf)) ∧
    (op.bad = false → (stepsOf s.dev st).find? (·.handed) = some e →
    (r.adapt = false → e.era = s.dev.num.eras.get 0 st →
      ∃ t, exec (.damperStep op) s = .next t ∧ t.dev.num.records = s.dev.num.records.set 0 st r.addStep ∧
        t.dev.num.steps = s.dev.num.steps.set [] st rest ∧
        reg t.dev 0x5032 (op.part + 1) = reg s.dev 0x5032 (op.part + 1) + (if 0 < e.ovf ∧ top ≤ r.hrBase then 1 else 0)) ∧
    (e.era ≠ s.dev.num.eras.get 0 st →
      ∃ t, exec (.damperStep op) s = .next t ∧ t.dev.num.records = s.dev.num.records.set 0 st r.addStep ∧
        t.dev.num.steps = s.dev.num.steps.set [] st rest ∧ t.dev.regs = s.dev.regs) ∧
    (r.adapt = true → e.era = s.dev.num.eras.get 0 st → span < 2048 →
      ∃ t u, exec (.damperStep op) s = .next t ∧ t.dev.num.records = s.dev.num.records.set 0 st u ∧
        t.dev.num.steps = s.dev.num.steps.set [] st rest ∧
        ((r.spread : Int) ≤ dm → (StreamRec.spread u : Int) = min dm 63 ∧ StreamRec.decay u = 0) ∧
        (dm < (r.spread : Int) → 0 < r.spread → r.decay + 1 = lim.decay → StreamRec.spread u = r.spread - 1 ∧ StreamRec.decay u = 0) ∧
        (e.ovf ≠ 0 → r.hrBase + r.bumpOf < top → r.bumpOf < 7 → StreamRec.bumpOf u = r.bumpOf + 1 ∧ StreamRec.countdown u = span) ∧
        (e.ovf ≠ 0 → top ≤ r.hrBase + r.bumpOf → StreamRec.bumpOf u = r.bumpOf ∧
          reg t.dev 0x5032 (op.part + 1) = reg s.dev 0x5032 (op.part + 1) + 1) ∧
        (e.ovf = 0 → 0 < r.bumpOf → r.countdown = 1 → StreamRec.bumpOf u = r.bumpOf - 1) ∧
        (e.ovf = 0 → r.bumpOf = 0 → StreamRec.bumpOf u = 0 ∧ StreamRec.countdown u = r.countdown) ∧
        StreamRec.steps u = (r.steps + 1) % 2 ^ 32 ∧
        (r.coldLeft = 0 → StreamRec.cold u = false) ∧ (r.coldLeft ≠ 0 → StreamRec.cold u = r.cold) ∧
        StreamRec.fmt u = r.fmt ∧ StreamRec.hrBase u = r.hrBase ∧ StreamRec.coldLeft u = r.coldLeft ∧ StreamRec.adapt u = true))

/-! ## Transfers, translation and migration (R117 to R149) -/

/-- COPY, FILL and GATHER (R49, R138, R143) at their stream's head inside their task's window: a valid descriptor whose wait passes, on
an engine with room, joins the cluster's queue from its first element, executing where the engine is free and staged behind
one transfer; it takes one from its WAIT semaphore and counts as issued. An invalid one fails its task with DESC_INVALID. What an
executing one meets afterwards has its own commands: TRANSFER_FAULT stops it in FAULTED, RESUME makes it execute again and ABANDON
ends it (R144 to R147), and TRANSFER_CARRY_RESUME executes a carried one on an idle engine (R149). -/
def Obligations.TransfersIssue : Prop :=
  (∀ (op : Desc64Op) (s : State) (id : Nat) (x : Task), op.stream < 1056 →
    let d := atOff s.dev op.off
    let c := clusterOfStream op.stream
    let v : XferDesc := op.desc
    let queued := fun (r : Host.Outcome State Fault Refusal) => ∃ t o y, r = .next t ∧
      t.dev.mem.te = s.dev.mem.te.put c (teQueue d c ++ [o]) ∧ o.desc = op.desc ∧ o.task = id ∧ o.stream = op.stream ∧
      o.cursor = 0 ∧ o.st = (if teQueue d c = [] then 2 else 1) ∧
      task t.dev id = some y ∧ y.issued.get 0 (engTe c) = x.issued.get 0 (engTe c) + 1 ∧
      t.dev.mem.sems = (if v.waitEn then s.dev.mem.sems.set 0 (1024 * c + v.waitSem) (sem d c v.waitSem - 1) else s.dev.mem.sems) ∧
      t.dev.mem.ddr = s.dev.mem.ddr ∧ t.dev.mem.ink = s.dev.mem.ink ∧ t.dev.mem.well = s.dev.mem.well
    let failed := fun (r : Host.Outcome State Fault Refusal) => ∃ t, r = .next t ∧ hasFailed t.dev id ∧
      (x.plan.part < 8 → reg t.dev 0x2046 (x.plan.part + 1) = reg s.dev 0x2046 (x.plan.part + 1) + 1)
    atHead d op.stream = some (id, x) → windowOpen x (engTe c) d.frame.off = true →
    (xferOk d c v = true → x.plan.fill = none → (v.waitEn = true → poisoned d c v.waitSem = false ∧ sem d c v.waitSem ≠ 0) →
      (teQueue d c).length < 2 →
      (v.opcode = 0x30 → queued (exec (.copy op) s)) ∧ (v.opcode = 0x31 → queued (exec (.fill op) s)) ∧
      (v.opcode = 0x32 → queued (exec (.gather op) s))) ∧
    (xferOk d c v = false → failed (exec (.copy op) s) ∧ failed (exec (.fill op) s) ∧ failed (exec (.gather op) s))) ∧
  (∀ (op : XferFaultOp) (s : State) (x : Xfer) (rest : List Xfer), op.cluster < 32 → op.cause = 4 →
    teQueue s.dev op.cluster = x :: rest → x.st = 2 → x.cursor = op.elem → op.elem < XferDesc.total x.desc → op.elem < 2 ^ 40 →
    XferDesc.opcode x.desc = 0x30 → XferDesc.srcKind x.desc = 0 → s.dev.lig.lost = [] →
    ∃ t y, exec (.transferFault op) s = .next t ∧ teQueue t.dev op.cluster = y :: rest ∧ y.st = 4 ∧ y.cause = 4 ∧
      y.cursor = op.elem ∧ t.dev.mem.ddr = s.dev.mem.ddr ∧ t.dev.mem.sems = s.dev.mem.sems) ∧
  (∀ (op : ResumeOp) (s : State) (x : Xfer) (rest : List Xfer), op.cluster < 32 → op.stream < 1056 →
    teQueue s.dev op.cluster = x :: rest → x.stream = op.stream → x.st = 4 →
    (∃ t, exec (.resume op) s = .next t ∧ teQueue t.dev op.cluster = { x with st := 2, cause := 0, dva := 0 } :: rest ∧
      t.dev.mem.ddr = s.dev.mem.ddr ∧ t.dev.regs = s.dev.regs) ∧
    (x.part < 8 → ∃ t, exec (.abandon op) s = .next t ∧ reg t.dev 0x2051 (x.part + 1) = reg s.dev 0x2051 (x.part + 1) + 1 ∧
      t.dev.mem.ddr = s.dev.mem.ddr)) ∧
  (∀ (op : ClusterOp) (s : State) (x : Xfer) (r : List Xfer) (k : Task), op.cluster < 32 →
    s.dev.mem.carriedX.get [] op.cluster = x :: r → x.cause = 0 → x.frame = s.dev.frame.no → task s.dev x.task = some k →
    k.status = .live → windowOpen k (engTe op.cluster) (max s.dev.frame.off op.off) = true → teQueue s.dev op.cluster = [] →
    ∃ t, exec (.transferCarryResume op) s = .next t ∧ teQueue t.dev op.cluster = [{ x with st := 2 }] ∧
      t.dev.mem.carriedX.get [] op.cluster = r ∧ t.dev.regs = s.dev.regs)

/-- TRANSFER_COMPLETE (R141, R143) of an executing FILL of FP32 elements along one dimension of the operand space: every element
holds the low 32 bits of SRC_ADDR, all in its task's window (R33); the transfer leaves the engine, the staged one executes, SIG_SEM rises by one, the task
counts the completion, and the stream's resume record says COMPLETE at the last element. -/
def Obligations.FillCompletes : Prop :=
  ∀ (op : ClusterOp) (s : State) (x : Xfer) (k : Task) (rest : List Xfer), op.cluster < 32 →
    let c := op.cluster
    let v : XferDesc := x.desc
    let after := opPutAll s.dev (xferHearth c v.dst) (xferOff v.dst) (List.replicate v.total (leBytes 4 v.src)).flatten
    teQueue s.dev c = x :: rest → x.st = 2 → x.cursor = 0 → x.run = [] → v.opcode = 0x31 → v.n = 0 → v.dstKind = 1 → v.fmtDst = 0 →
    task s.dev x.task = some k → windowOpen k (engTe c) (max s.dev.frame.off op.off) = true → undrained s.dev x.task = false → (v.sigEn = true → sem s.dev c v.sigSem < 65535) →
    opReset s.dev (xferHearth c v.dst) (xferOff v.dst) = false →
    ∃ t y, exec (.transferComplete op) s = .next t ∧ t.dev.mem.well = after.mem.well ∧ t.dev.mem.ink = after.mem.ink ∧
      t.dev.mem.ddr = s.dev.mem.ddr ∧
      t.dev.mem.te = s.dev.mem.te.set [] c (match rest with | [] => [] | z :: r => { z with st := 2 } :: r) ∧
      (rest = [] → t.dev.mem.resume = s.dev.mem.resume.set resumeIdle x.stream ⟨v.total, 5, x.cause, x.dva, v.tag⟩) ∧
      task t.dev x.task = some y ∧ y.completed.get 0 (engTe c) = k.completed.get 0 (engTe c) + 1 ∧
      t.dev.mem.sems = (if v.sigEn then s.dev.mem.sems.set 0 (1024 * c + v.sigSem) (sem s.dev c v.sigSem + 1) else s.dev.mem.sems)

/-- A transfer's faults (R144 to R149). TRANSFER_FAULT at the cursor of an executing transfer that accesses device memory: it stops in
FAULTED with the cause, is counted and raised; causes 5 to 7 end it SHORT at once. RESUME of a faulted transfer goes on from its
cursor; ABANDON ends it SHORT, its task failed; without a faulted transfer of the stream both are ignored and counted.
TRANSFER_CARRY_RESUME takes the oldest carried transfer back into the engine in its task's next window. -/
def Obligations.TransferFaults : Prop :=
  (∀ (op : XferFaultOp) (s : State) (x : Xfer) (rest : List Xfer), op.cluster < 32 →
    let c := op.cluster
    let v : XferDesc := x.desc
    teQueue s.dev c = x :: rest → x.st = 2 → x.cursor = op.elem → op.elem < v.total → op.elem < 2 ^ 40 → x.part < 8 →
    ((v.opcode = 0x30 ∧ v.srcKind = 0) ∨ (v.opcode = 0x31 ∧ v.dstKind = 0)) →
    (op.cause = 4 → s.dev.lig.lost = [] →
      ∃ t dva, exec (.transferFault op) s = .next t ∧
        t.dev.mem.te = s.dev.mem.te.put c
          ({ x with
            st := 4, cause := 4, dva := dva, got := [], acked := [], waits := [], run := [], ahead := streamHead s.dev x.stream } :: rest) ∧
        t.dev.mem.resume = s.dev.mem.resume.set resumeIdle x.stream ⟨x.cursor, 4, 4, dva, v.tag⟩ ∧
        reg t.dev 0x2050 (x.part + 1) = reg s.dev 0x2050 (x.part + 1) + 1 ∧
        (let q := source s.dev (partSrc x.part (8 + c % 4))
         q.st = .inactive → q.level ≠ 0 →
          (source t.dev (partSrc x.part (8 + c % 4))).st = .pending ∧ (source t.dev (partSrc x.part (8 + c % 4))).code = 4 ∧
          (source t.dev (partSrc x.part (8 + c % 4))).arg = v.tag)) ∧
    (op.cause = 5 ∨ op.cause = 7 → x.fill = none → (∃ k, task s.dev x.task = some k ∧ k.status = .live ∧ k.plan.part < 8) →
      ∃ t, exec (.transferFault op) s = .next t ∧ hasFailed t.dev x.task ∧
        reg t.dev 0x2051 (x.part + 1) = reg s.dev 0x2051 (x.part + 1) + 1)) ∧
  (∀ (op : ResumeOp) (s : State), op.cluster < 32 → op.stream < 1056 →
    let c := op.cluster
    (∀ (x : Xfer) (rest : List Xfer), teQueue s.dev c = x :: rest → x.stream = op.stream → x.st = 4 →
      (∃ t, exec (.resume op) s = .next t ∧ t.dev.mem.te = s.dev.mem.te.put c ({ x with st := 2, cause := 0, dva := 0 } :: rest) ∧
        t.dev.mem.resume = s.dev.mem.resume.set resumeIdle x.stream ⟨x.cursor, 2, 0, 0, XferDesc.tag x.desc⟩ ∧
        { t.dev with mem := s.dev.mem, frame := s.dev.frame, ev := s.dev.ev } = s.dev) ∧
      (x.fill = none → (∃ k, task s.dev x.task = some k ∧ k.status = .live ∧ k.plan.part < 8) → x.part < 8 →
        ∃ t, exec (.abandon op) s = .next t ∧ hasFailed t.dev x.task ∧
          reg t.dev 0x2051 (x.part + 1) = reg s.dev 0x2051 (x.part + 1) + 1)) ∧
    ((∀ x ∈ s.dev.mem.te.get [] c, x.st ≠ 4) → s.dev.mem.carriedX.get [] c = [] →
      let ignored := { s with dev := bumpPart (atOff s.dev op.off) 0x2056 (partOfCluster c) 1 }
      exec (.resume op) s = .next ignored ∧ exec (.abandon op) s = .next ignored)) ∧
  (∀ (op : ClusterOp) (s : State) (x : Xfer) (r : List Xfer) (k : Task), op.cluster < 32 →
    let d := atOff s.dev op.off
    let c := op.cluster
    s.dev.mem.carriedX.get [] c = x :: r → task s.dev x.task = some k → k.status = .live → windowOpen k (engTe c) d.frame.off = true →
    x.cause = 0 → x.frame = s.dev.frame.no → (teQueue d c).length < 2 →
    ∃ t, exec (.transferCarryResume op) s = .next t ∧
      t.dev.mem.te = s.dev.mem.te.put c (teQueue d c ++ [{ x with st := if teQueue d c = [] then 2 else 1 }]) ∧
      t.dev.mem.carriedX = s.dev.mem.carriedX.set [] c r ∧ t.dev.mem.ddr = s.dev.mem.ddr ∧ t.dev.regs = s.dev.regs)

/-- Translation, migration and channels (R121, R124, R127, R129). A TLB_INVAL is outstanding until it completes, which it does once no access is
under way that was translated through the range; its completion writes the changes of the range into the level-2 tables and
empties the range from the caches. A channel whose DIMM loses its supply has failed, one below its threshold counts its corrected
errors, and a drained group that is retrained is TRAINED again (R452, R475). The first phase of a migration marks the page MIGRATING and
invalidates it; the second copies the frame and points the page at it; the last frees the old frame. A trained channel's
recalibration within its place in the plan is remembered. -/
def Obligations.PagesMove : Prop :=
  (∀ (op : TlbOp) (s : State), op.part < 8 →
    exec (.tlbInval op) s = .next { s with dev := { atOff s.dev op.off with
      mem := { s.dev.mem with invals := s.dev.mem.invals ++ [(op.part, op.lo, op.hi)] } } }) ∧
  (∀ (op : TlbOp) (s : State) (app page k : Nat) (e : Pte), op.part < 8 →
    (op.part, op.lo, op.hi) ∈ s.dev.mem.invals → appOfPart s.dev op.part = some app → page < 2 ^ 27 →
    pteAt s.dev app page = some k → accessesOpen s.dev op.part op.lo op.hi = false → s.dev.mem.importing = [] →
    s.dev.mem.pteNext = [(pageKey app page, some e)] → op.lo < (page + 1) * frameSize → page * frameSize < op.hi →
    ∃ t, exec (.tlbInvalComplete op) s = .next t ∧ t.dev.mem.ptes = s.dev.mem.ptes.set 0 k e ∧
      t.dev.mem.pteNext = [] ∧ t.dev.mem.invals = s.dev.mem.invals.erase (op.part, op.lo, op.hi) ∧
      { t.dev with mem := s.dev.mem, frame := s.dev.frame } = s.dev) ∧
  (∀ (op : MigrateOp) (s : State), op.app < 8 → op.page < 2 ^ 27 →
    let e := pte s.dev op.app op.page
    let k := pageKey op.app op.page
    ((∀ m ∈ s.dev.mem.migrations, ¬(m.app = op.app ∧ m.page = op.page)) → e.valid = true → e.remote = false →
      s.dev.mem.exports.get 0 e.pfn = 0 → frameUsable s.dev op.frame = true →
      ∃ t, exec (.pageMigrate op) s = .next t ∧ t.dev.mem.pteNext = s.dev.mem.pteNext.put k (some (e.setMigrating true)) ∧
        t.dev.mem.migrations.head? = some ⟨op.app, op.page, e.pfn, op.frame, 0, []⟩ ∧
        t.dev.mem.invals = s.dev.mem.invals ++
          (partsOf s.dev op.app).map (fun p => (p, op.page * frameSize, (op.page + 1) * frameSize)) ∧
        t.dev.mem.ddr = s.dev.mem.ddr) ∧
    (∀ m, s.dev.mem.migrations.find? (fun m => m.app == op.app && m.page == op.page) = some m → s.dev.mem.exports.get 0 m.src = 0 →
      (m.phase = 0 → e.valid = true → e.migrating = true →
        ∃ t, exec (.pageMigrate op) s = .next t ∧
          t.dev.mem.ddr = (copyFrame (atOff s.dev op.off) (e.key + 2) m.src m.dst).mem.ddr ∧
          t.dev.mem.pteNext = s.dev.mem.pteNext.put k (some ((e.setFrame m.dst).setMigrating false)) ∧
          t.dev.mem.frameOwner = s.dev.mem.frameOwner.set 0 m.dst
            (if s.dev.mem.frameOwner.get 0 m.src = 1 then 1 else e.key + 2) ∧
          t.dev.mem.migrations.head? = some { m with phase := 2, acks := [] }) ∧
      (m.phase = 2 → e.pfn = m.dst → e.migrating = false →
        ∃ t, exec (.pageMigrate op) s = .next t ∧ t.dev.mem.frameOwner = s.dev.mem.frameOwner.set 0 m.src 0 ∧
          t.dev.mem.ddr = s.dev.mem.ddr ∧
          t.dev.mem.migrations = s.dev.mem.migrations.filter (fun x => !(x.app == op.app && x.page == op.page))))) ∧
  (∀ (op : ChannelOp) (s : State), op.channel < 32 →
    let d := atOff s.dev op.off
    reg s.dev 0x1101 (op.channel + 1) = 1 → (∃ x ∈ s.dev.frame.recals, x.1 = op.channel ∧ x.2 ≤ d.frame.off ∧ d.frame.off < x.2 + 1700) →
    exec (.channelRecalibration op) s = .next { s with dev := { d with
      mem := { s.dev.mem with recal := s.dev.mem.recal.set 0 op.channel s.dev.frame.no } } }) ∧
  (∀ (op : ChannelOp) (s : State), op.channel < 32 → s.dev.pow.stage ≠ .off →
    ∃ t, exec (.dimmSupplyLoss op) s = .next t ∧ channelState t.dev op.channel = 2 ∧ t.dev.mem.usable.get 0 (op.channel / 4) = 0) ∧
  (∀ (op : CorrectedOp) (s : State), op.channel < 32 → ((recentErrors s.dev op.channel).map (·.2)).sum + op.count < reg s.dev 0x900D 0x01 →
    ∃ t, exec (.channelErrorThreshold op) s = .next t ∧
      reg t.dev 0x1105 (op.channel + 1) = reg s.dev 0x1105 (op.channel + 1) + op.count ∧ t.dev.mem.ddr = s.dev.mem.ddr) ∧
  (∀ (op : RetrainOp) (s : State), op.group < 8 → op.group ∈ s.dev.pow.retraining → groupUsed s.dev op.group = 0 →
    op.failed = [] → ∃ t, exec (.channelRetrainDone op) s = .next t ∧ (∀ k < 4, channelState t.dev (4 * op.group + k) = 1) ∧
      op.group ∉ t.dev.pow.retraining)

/-! ## Requests to other devices, ring slots, datagrams (R128, R137, R187, R280, R281) -/

/-- READ_REQ and WRITE_REQ (R128, R280) for this device: a request for 1 to 16 granules that its STAMP's system application exports and
that verify is served, a read with the granules' bytes, a write with a WRITE_ACK once they are stored; a granule of another
application's frame is refused with cause 5 and nothing is stored. READ_RESP, WRITE_ACK, REFUSED and a time-out end the wait
of their request: an answer hands the granule over or counts the write, a refusal with cause 5 to 7 or the time-out (cause 4)
faults the transfer that waits. What else other devices and hosts send to this device's memory and intake is taken as it comes: a
RING_SLOT of one segment for a carried ring with room (R137) is published, a UDP datagram (R187) is a whole envelope, its time-out, ARP
and Neighbor Discovery do their work. -/
def Obligations.RemoteGranules : Prop :=
  (∀ (op : MsgOp) (s : State), op.port < 16 →
    let d := atOff s.dev op.off
    let m := op.msg
    let resp := fun (kind arg : Nat) (body : List Byte) =>
      ({ m with kind := kind, vc := 2, dstUnit := m.srcUnit, dstDevice := m.srcDevice, srcDevice := reg d 0x4001 0x00,
                srcUnit := m.dstUnit, hops := 15, epoch := reg d 0x4001 0x01, arg := arg, body := body } : Msg)
    let free := fun (r : Msg) => (port d op.port).queue = [] ∧ msgUnits r ≤ (port d op.port).credit.get 0 2 ∧
      (port d op.port).outstanding + msgFlits r ≤ 512
    1 ≤ m.arg → m.arg ≤ 16 →
    (arrives d op.port 0x10 m →
      (requestCause d m false = 0 →
        let r := resp 0x12 m.arg ((List.range m.arg).flatMap (fun k => readBytes s.dev.mem.ddr ((m.addr / 256 + k) * 256) 256))
        free r → ∃ t, exec (.readReq op) s = .next t ∧ t.dev.out = .message op.port (linkFlits d (port d op.port) r) :: s.dev.out ∧ t.dev.mem = s.dev.mem) ∧
      ((∃ k, k < m.arg ∧ s.dev.mem.exports.get 0 ((m.addr / 256 + k) / 8192) ≠ m.stamp % 2 ^ 32) → free (resp 0x14 5 []) →
        ∃ t, exec (.readReq op) s = .next t ∧ t.dev.out = .message op.port (linkFlits d (port d op.port) (resp 0x14 5 [])) :: s.dev.out ∧ t.dev.mem = s.dev.mem)) ∧
    (arrives d op.port 0x11 m → m.body.length = 256 * m.arg →
      (requestCause d m true = 0 → free (resp 0x13 m.arg []) →
        ∃ t, exec (.writeReq op) s = .next t ∧ t.dev.out = .message op.port (linkFlits d (port d op.port) (resp 0x13 m.arg [])) :: s.dev.out ∧
          t.dev.mem.ddr = writeBytes s.dev.mem.ddr (m.addr / 256 * 256) m.body) ∧
      ((∃ k, k < m.arg ∧ s.dev.mem.exports.get 0 ((m.addr / 256 + k) / 8192) ≠ m.stamp % 2 ^ 32) → free (resp 0x14 5 []) →
        ∃ t, exec (.writeReq op) s = .next t ∧ t.dev.out = .message op.port (linkFlits d (port d op.port) (resp 0x14 5 [])) :: s.dev.out ∧ t.dev.mem = s.dev.mem))) ∧
  (∀ (op : MsgOp) (s : State) (w : RemoteWait), op.port < 16 →
    let d := atOff s.dev op.off
    let left := { d with mem := { s.dev.mem with remote := s.dev.mem.remote.filter (fun x => x.tag != op.msg.tag) } }
    waitOf d op.msg.tag = some w → w.device = op.msg.srcDevice →
    (arrives d op.port 0x12 op.msg → w.write = false →
      (waiter d w = none → exec (.readResp op) s = .next { s with dev := left }) ∧
      (∀ x, waiter d w = some x → x.st = 2 → x.cursor < XferDesc.total x.desc → x.cursor < 2 ^ 41 →
        XferDesc.opcode x.desc = 0x30 → XferDesc.srcKind x.desc = 0 → XferDesc.dstKind x.desc = 1 → x.run = [] →
        let y := { x with waits := x.waits.filter (· ≠ w.key), got := x.got.filter (fun z => z.1 != w.key) ++ [(w.key, op.msg.body)] }
        readUnit d w.cluster y = .pend → (∀ g ∈ srcGrans d w.cluster y, gotGran y g ≠ none ∨ g ∈ y.waits) →
        ∃ t, exec (.readResp op) s = .next t ∧ (teQueue t.dev w.cluster).head? = some y ∧
          t.dev.mem.remote = s.dev.mem.remote.filter (fun x => x.tag != op.msg.tag))) ∧
    (arrives d op.port 0x13 op.msg → w.write = true →
      (waiter d w = none → exec (.writeAck op) s = .next { s with dev := left }) ∧
      (∀ x rest, teQueue d w.cluster = x :: rest → waiter d w = some x → x.st = 2 →
        let v : XferDesc := x.desc
        let a := v.dst + v.dstOff x.cursor 1
        v.opcode = 0x31 → v.n = 0 → v.dstKind = 0 → v.fmtDst = 0 → x.run ≠ [] → 4 * x.cursor + x.run.length = 4 * v.total →
        (∀ g ∈ dvaGrans a x.run.length, g = w.key) → (xferPte d x.part (w.key * 256)).remote = true →
        inWindow d x.task (engTe w.cluster) d.frame.off = true → undrained d x.task = false → (v.sigEn = true → sem d w.cluster v.sigSem < 65535) →
        ∃ t, exec (.writeAck op) s = .next t ∧
          t.dev.mem.te = s.dev.mem.te.set [] w.cluster (match rest with | [] => [] | z :: r => { z with st := 2 } :: r) ∧
          t.dev.mem.remote = s.dev.mem.remote.filter (fun x => x.tag != op.msg.tag))) ∧
    (arrives d op.port 0x14 op.msg → 5 ≤ op.msg.arg → op.msg.arg ≤ 7 →
      (waiter d w = none → exec (.refusedResp op) s = .next { s with dev := left }) ∧
      (∀ x k, waiter d w = some x → x.part < 8 → x.fill = none → task d x.task = some k → k.status = .live → k.plan.part < 8 →
        ∃ t, exec (.refusedResp op) s = .next t ∧ reg t.dev 0x2050 (x.part + 1) = reg s.dev 0x2050 (x.part + 1) + 1 ∧
          hasFailed t.dev x.task ∧ t.dev.mem.remote = s.dev.mem.remote.filter (fun x => x.tag != op.msg.tag)))) ∧
  (∀ (op : TagOp) (s : State) (w : RemoteWait),
    let d := atOff s.dev op.off
    waitOf d op.tag = some w → w.sent + reg s.dev 0x4017 0x00 ≤ now d → s.dev.lig.lost = [] →
    (∀ x, waiter d w = some x → x.part < 8 →
      ∃ t, exec (.remoteTimeout op) s = .next t ∧ reg t.dev 0x2050 (x.part + 1) = reg s.dev 0x2050 (x.part + 1) + 1 ∧
        (∃ y, (teQueue t.dev w.cluster).head? = some y ∧ y.st = 4 ∧ y.cause = 4 ∧ y.dva = w.key * 256 ∧ y.cursor = x.cursor) ∧
        t.dev.mem.remote = s.dev.mem.remote.filter (fun x => x.tag != op.tag))) ∧
  (∀ (op : MsgOp) (s : State), op.port < 16 → arrives (atOff s.dev op.off) op.port 0x20 op.msg → op.msg.segs = 1 →
    op.msg.body.length % 16 ≠ 0 → s.dev.pow.resets = [] → s.dev.frame.no < op.msg.stamp →
    let c := (nameRing op.msg.addr).1
    let r := (nameRing op.msg.addr).2
    let x := bring s.dev c r
    x.enabled = true → x.carry = true → 0 < sem s.dev c x.empty → op.msg.body.length ≤ x.slotBytes → x.count < x.slots →
    sem s.dev c x.full < 65535 → x.empty ≠ x.full →
    ∃ t, exec (.ringSlot op) s = .next t ∧ (bring t.dev c r).count = x.count + 1 ∧ sem t.dev c x.full = sem s.dev c x.full + 1 ∧
      sem t.dev c x.empty = sem s.dev c x.empty - 1) ∧
  (∀ (op : UdpOp) (s : State), op.port < 16 → addressed s.dev op.port op.v6 op.dst = true → op.dstPort = reg s.dev 0x3001 0x00 →
    op.fragment = false → op.full = false → op.index = 0 → op.count = 1 → 80 ≤ op.bytes.length → op.bytes.length ≤ 8192 →
    s.dev.gen.reasm = [] →
    ∃ t, exec (.udpSegment op) s = .next t ∧ t.dev.gen.ready = s.dev.gen.ready ++ [(op.port, op.reply, op.bytes)] ∧
      t.dev.gen.reasm = [] ∧ t.dev.regs = s.dev.regs) ∧
  (∀ (op : ReasmOp) (s : State) (x : Reasm), s.dev.gen.reasm = [x] → x.tenant = op.tenant → x.id = op.id →
    x.started + reg s.dev 0x3005 0x00 ≤ s.dev.frame.no →
    ∃ t, exec (.reassemblyTimeout op) s = .next t ∧ t.dev.gen.reasm = [] ∧ reg t.dev 0x3030 0x01 = reg s.dev 0x3030 0x01 + 1) ∧
  (∀ (op : AddrOp) (s : State), op.port < 16 →
    (addressed s.dev op.port false op.addr = true →
      ∃ t, exec (.arpRequest op) s = .next t ∧ t.dev.out = .arp op.port op.addr (macAddr s.dev op.port) :: s.dev.out) ∧
    (addressed s.dev op.port true op.addr = true →
      ∃ t, exec (.neighborDiscovery op) s = .next t ∧ t.dev.out = .neighbor op.port op.addr (macAddr s.dev op.port) :: s.dev.out))

/-- RING_SLOT (R137, R281): a whole slot for a carried ring with a free slot, stamped for a frame to come, takes one from EMPTY, lies
in the ring's Well and is published; one for a ring that is not carried is dropped and counted; a first segment of several waits
for the others. UDP_SEGMENT (R187) to the intake port's address joins its envelope, and the last one makes it whole, ready for its
command; one too short for a header and a tag, or too slow, is dropped and counted. ARP and Neighbor Discovery are answered for the configured address alone. -/
def Obligations.SlotsAndDatagramsArrive : Prop :=
  (∀ (op : MsgOp) (s : State), op.port < 16 →
    let d := atOff s.dev op.off
    let m := op.msg
    let c := (nameRing m.addr).1
    let r := (nameRing m.addr).2
    let x := bring d c r
    arrives d op.port 0x20 m →
    (m.segs = 1 → m.body.length % 16 ≠ 0 →
      (s.dev.pow.resets = [] → s.dev.frame.no < m.stamp → x.enabled = true → x.carry = true → 0 < sem d c x.empty →
        m.body.length ≤ x.slotBytes → x.count < x.slots → sem d c x.full < 65535 → x.empty ≠ x.full →
        ∃ t, exec (.ringSlot op) s = .next t ∧
          t.dev.mem.well = (opPutAll d (8 * c + x.wellHearth) (x.base + x.tail * x.slotBytes) m.body).mem.well ∧
          t.dev.mem.sems = (s.dev.mem.sems.set 0 (1024 * c + x.empty) (sem d c x.empty - 1)).set 0 (1024 * c + x.full)
            (sem d c x.full + 1) ∧
          t.dev.mem.brings = s.dev.mem.brings.set 0 (64 * c + r) (setField (setField x 44 4 ((x.tail + 1) % x.slots)) 48 5 (x.count + 1)) ∧
          t.dev.regs = s.dev.regs) ∧
      (x.carry = false ∨ m.stamp ≤ s.dev.frame.no →
        ∃ t, exec (.ringSlot op) s = .next t ∧ t.dev.mem = s.dev.mem ∧
          reg t.dev 0x2053 (partOfCluster c + 1) = reg s.dev 0x2053 (partOfCluster c + 1) + 1)) ∧
    (2 ≤ m.segs → s.dev.mem.inSlots = [] →
      exec (.ringSlot op) s = .next { s with dev := { d with
        mem := { s.dev.mem with inSlots := [⟨c, r, m.stamp, m.segs, [(m.seg, m.body)]⟩] } } })) ∧
  (∀ (op : UdpOp) (s : State), op.port < 16 →
    addressed s.dev op.port op.v6 op.dst = true → op.dstPort = reg s.dev 0x3001 0x00 → op.fragment = false → op.full = false →
    op.index < op.count → op.count ≤ 2048 → op.bytes.length ≤ 8192 →
    (∀ x ∈ s.dev.gen.reasm, ¬(x.tenant = op.tenant ∧ x.id = op.id)) →
    (op.count = 1 → 80 ≤ op.bytes.length → exec (.udpSegment op) s = .next { s with dev := { atOff s.dev op.off with
      gen := { s.dev.gen with ready := s.dev.gen.ready ++ [(op.port, op.reply, op.bytes)] } } }) ∧
    (op.count = 1 → op.bytes.length < 80 → ∃ t, exec (.udpSegment op) s = .next t ∧
      reg t.dev 0x3030 0x01 = reg s.dev 0x3030 0x01 + 1 ∧ t.dev.gen = s.dev.gen) ∧
    (2 ≤ op.count → exec (.udpSegment op) s = .next { s with dev := { atOff s.dev op.off with
      gen := { s.dev.gen with reasm := s.dev.gen.reasm ++
        [⟨op.tenant, op.id, s.dev.frame.no, op.count, op.reply, op.port, [(op.index, op.bytes)]⟩] } } })) ∧
  (∀ (op : ReasmOp) (s : State) (x : Reasm), x ∈ s.dev.gen.reasm → x.tenant = op.tenant → x.id = op.id →
    x.started + reg s.dev 0x3005 0x00 ≤ s.dev.frame.no →
    ∃ t, exec (.reassemblyTimeout op) s = .next t ∧ reg t.dev 0x3030 0x01 = reg s.dev 0x3030 0x01 + 1 ∧
      t.dev.gen = { s.dev.gen with reasm := s.dev.gen.reasm.filter (fun x => !(x.tenant == op.tenant && x.id == op.id)) } ∧
      { t.dev with gen := s.dev.gen, regs := s.dev.regs, frame := s.dev.frame } = s.dev) ∧
  (∀ (op : AddrOp) (s : State), op.port < 16 →
    let d := atOff s.dev op.off
    (addressed s.dev op.port false op.addr = true →
      exec (.arpRequest op) s = .next { s with dev := { d with out := .arp op.port op.addr (macAddr d op.port) :: s.dev.out } }) ∧
    (addressed s.dev op.port false op.addr = false → exec (.arpRequest op) s = .next { s with dev := d }) ∧
    (addressed s.dev op.port true op.addr = true →
      exec (.neighborDiscovery op) s = .next { s with dev := { d with out := .neighbor op.port op.addr (macAddr d op.port) :: s.dev.out } }) ∧
    (addressed s.dev op.port true op.addr = false → exec (.neighborDiscovery op) s = .next { s with dev := d }))

/-! ## The Inkwell and the variants (R154 to R182, R478, R479) -/

/-- The slot-table operations (R164 to R167, R175). LOOKUP answers the slot a variant owns. CLAIM of a FREE slot at its generation
within the reserve makes it FILLING, pinned once, owned, of the next generation, with its fill queued. PIN and UNPIN count; EVICT of a
LIVE unpinned slot at its generation makes it DRAINING and of the next generation; WITHDRAW marks the slot; what does not hold is
answered SLOT_LOST, counted. A DRAINING slot without pins and writers becomes FREE, and its stripes read zero. -/
def Obligations.SlotTable : Prop :=
  (∀ (op : VariantOp) (s : State),
    let d := atOff s.dev op.off
    (∀ n, ownedSlot d op.variant = some n → exec (.lookup op) s = .next { s with dev := { d with
      ink := { s.dev.ink with answer := .found n (slot d n).gen (slot d n).st } } }) ∧
    (ownedSlot d op.variant = none → exec (.lookup op) s = .next { s with dev := { d with ink := { s.dev.ink with answer := .none } } }) ∧
    (∀ n, ownedSlot d op.variant = some n → (slot d n).st = 1 ∨ (slot d n).st = 2 →
      exec (.withdraw op) s = .next { s with dev := { d with
        ink := { s.dev.ink with slots := s.dev.ink.slots.put n (setField (slot d n) 52 1 1), answer := .ok } } })) ∧
  (∀ (op : ClaimOp) (s : State) (app : Nat), op.slot < 4096 → op.key < 4096 → 0 < op.variant → op.variant < 2 ^ 32 →
    let d := atOff s.dev op.off
    slotApp d op.slot = some app → ownedSlot d op.variant = none →
    (heldSlots d app op.key < reserveOf d app op.key → (slot d op.slot).st = 0 → (slot d op.slot).gen = op.gen →
      ∃ t, exec (.claim op) s = .next t ∧
        (let e := slot t.dev op.slot
         e.owner = op.variant ∧ e.gen = (op.gen + 1) % 65536 ∧ e.st = 1 ∧ e.pin = 1 ∧ e.key = op.key ∧ e.withdrawing = false ∧
         e.tries = 0 ∧ e.lastUse = (slot d op.slot).lastUse ∧ t.dev.ink.slots = s.dev.ink.slots.put op.slot e) ∧
        t.dev.ink.fills = s.dev.ink.fills ++ [⟨op.slot, false⟩] ∧ t.dev.ink.answer = .ok ∧
        t.dev.ink.halves = s.dev.ink.halves.set 0 op.slot (liveMask (slot t.dev op.slot)) ∧
        reg t.dev 0x3130 0x00 = reg s.dev 0x3130 0x00 + 1 ∧
        { t.dev with ink := s.dev.ink, regs := s.dev.regs, frame := s.dev.frame } = s.dev) ∧
    (reserveOf d app op.key ≤ heldSlots d app op.key →
      exec (.claim op) s = .next { s with dev := { d with ink := { s.dev.ink with answer := .reserveFull } } })) ∧
  (∀ (op : SlotGenOp) (s : State), op.slot < 4096 →
    let d := atOff s.dev op.off
    let e := slot d op.slot
    (e.gen = op.gen → e.st = 1 ∨ e.st = 2 → e.withdrawing = false → e.pin < 65535 →
      exec (.pin op) s = .next { s with dev := { d with ink := { s.dev.ink with
        slots := s.dev.ink.slots.put op.slot (setField e 72 16 (e.pin + 1)), answer := .ok } } }) ∧
    (e.gen = op.gen → e.st = 2 → e.pin = 0 →
      ∃ t, exec (.evict op) s = .next t ∧ t.dev.ink.slots = s.dev.ink.slots.put op.slot (setField e.nextGen 48 2 3) ∧
        t.dev.ink.fills = s.dev.ink.fills.filter (fun f => f.slot != op.slot) ∧ t.dev.ink.answer = .ok ∧
        reg t.dev 0x3130 0x02 = reg s.dev 0x3130 0x02 + 1) ∧
    (e.gen ≠ op.gen →
      let lost := { s with dev := { bump d 0x3130 0x01 1 with ink := { s.dev.ink with answer := .lost } } }
      exec (.pin op) s = .next lost ∧ exec (.evict op) s = .next lost)) ∧
  (∀ (op : UnpinOp) (s : State), op.slot < 4096 →
    let d := atOff s.dev op.off
    let e := slot d op.slot
    e.owner = op.variant → 0 < e.pin →
    exec (.unpin op) s = .next { s with dev := { d with ink := { s.dev.ink with
      answer := .ok
      slots := s.dev.ink.slots.set 0 op.slot (if e.pin = 1 then setField (setField e 72 16 0) 96 32 s.dev.frame.no
        else setField e 72 16 (e.pin - 1)) } } }) ∧
  (∀ (op : SlotOp) (s : State) (app : Nat), op.slot < 4096 →
    let d := atOff s.dev op.off
    (slot d op.slot).st = 3 → (slot d op.slot).pin = 0 → slotWriting d op.slot = false → slotApp d op.slot = some app →
    let free : Slot := BitVec.ofNat 128 (packBits [(32, 16, (slot d op.slot).gen), (96, 32, (slot d op.slot).lastUse)])
    ∃ t, exec (.slotFree op) s = .next t ∧
      t.dev.ink = { s.dev.ink with slots := s.dev.ink.slots.set 0 op.slot free } ∧
      (∀ a, t.dev.mem.ink.get 0 a = if inStripes d app op.slot a then 0 else s.dev.mem.ink.get 0 a) ∧
      t.dev.mem.well = s.dev.mem.well ∧ t.dev.mem.ddr = s.dev.mem.ddr)

/-- Binds and fills (R169, R171, R172, R175). SLOT_BIND of a variant whose slot can be pinned binds it at once, one of a withdrawn
variant is refused, one whose slot is DRAINING waits for it; SLOT_BIND_RESUME goes on once the slot is no longer DRAINING: a bind
that evicted the slot claims that same slot, any other begins again. FILL_COMPLETE of a slot whose every copy has completed makes a
FILLING slot LIVE, last used now, counted and raised. -/
def Obligations.BindsAndFills : Prop :=
  (∀ (op : BindOp) (s : State) (r : VarRec), op.key < 4096 → op.app < 8 →
    let d := atOff s.dev op.off
    (∀ b ∈ s.dev.ink.binds, b.use ≠ op.use) → (∀ x ∈ s.dev.ink.bound, x.1 ≠ op.use) → variant d op.variant = some r →
    r.held = true →
    (r.withdrawn = true →
      ∃ t, exec (.slotBind op) s = .next t ∧ t.dev.ink.refused = s.dev.ink.refused ++ [(op.use, 0x11)] ∧
        t.dev.ink.slots = s.dev.ink.slots) ∧
    (∀ n, r.withdrawn = false → ownedSlot d op.variant = some n →
      let e := slot d n
      ((e.st = 1 ∨ e.st = 2) → e.withdrawing = false → e.pin < 65535 →
        ∃ t, exec (.slotBind op) s = .next t ∧ t.dev.ink.slots = s.dev.ink.slots.put n (setField e 72 16 (e.pin + 1)) ∧
          t.dev.ink.bound = s.dev.ink.bound ++ [(op.use, n, e.gen)] ∧ t.dev.ink.binds = s.dev.ink.binds) ∧
      (e.st = 3 →
        ∃ t, exec (.slotBind op) s = .next t ∧ t.dev.ink.slots = s.dev.ink.slots ∧ t.dev.ink.bound = s.dev.ink.bound ∧
          t.dev.ink.binds = s.dev.ink.binds ++ [⟨op.use, op.variant, op.key, op.app, some n, false⟩]))) ∧
  (∀ (op : UseOp) (s : State) (b : Bind) (n : Nat) (r : VarRec),
    let d := atOff s.dev op.off
    s.dev.ink.binds.find? (fun b => b.use == op.use) = some b → b.wait = some n →
    ((slot d n).st = 3 → exec (.slotBindResume op) s = .next { s with dev := d }) ∧
    ((slot d n).st ≠ 3 → variant d b.variant = some r → r.held = true → r.withdrawn = false →
      (∀ k, b.claims = false → ownedSlot d b.variant = some k → ((slot d k).st = 1 ∨ (slot d k).st = 2) →
        (slot d k).withdrawing = false → (slot d k).pin < 65535 →
        ∃ t, exec (.slotBindResume op) s = .next t ∧ t.dev.ink.bound = s.dev.ink.bound ++ [(b.use, k, (slot d k).gen)] ∧
          t.dev.ink.binds = s.dev.ink.binds.filter (fun x => x.use != b.use)) ∧
      (∀ a, b.claims = true → ownedSlot d b.variant = none → slotApp d n = some a → heldSlots d a b.key < reserveOf d a b.key →
        (slot d n).st = 0 → 0 < b.variant → b.variant < 2 ^ 32 → b.key < 4096 →
        ∃ t, exec (.slotBindResume op) s = .next t ∧ (slot t.dev n).owner = b.variant ∧ (slot t.dev n).st = 1 ∧
          (slot t.dev n).pin = 1 ∧ t.dev.ink.bound = s.dev.ink.bound ++ [(b.use, n, ((slot d n).gen + 1) % 65536)] ∧
          t.dev.ink.binds = s.dev.ink.binds.filter (fun x => x.use != b.use)))) ∧
  (∀ (op : SlotOp) (s : State) (app : Nat), op.slot < 4096 →
    let d := atOff s.dev op.off
    let e := slot d op.slot
    slotApp d op.slot = some app → fillWhole d op.slot = true → s.dev.ink.halves.get 0 op.slot ≠ 0 →
    (∀ f ∈ s.dev.ink.fills, f.slot ≠ op.slot) → e.st = 1 →
    ∃ t, exec (.fillComplete op) s = .next t ∧
      t.dev.ink = { s.dev.ink with
        slots := s.dev.ink.slots.put op.slot (setField (setField e 48 2 2) 96 32 s.dev.frame.no)
        halves := s.dev.ink.halves.set 0 op.slot 0
        fillDone := s.dev.ink.fillDone.set [] op.slot [] } ∧
      reg t.dev 0x3130 0x03 = reg s.dev 0x3130 0x03 + 1 ∧
      (let q := source s.dev (partSrc (op.slot / 512) 16)
       q.st = .inactive → q.level ≠ 0 →
        (source t.dev (partSrc (op.slot / 512) 16)).st = .pending ∧ (source t.dev (partSrc (op.slot / 512) 16)).arg = op.slot) ∧
      t.dev.mem = s.dev.mem)

/-- Variant records (R157, R158, R177, R250, R478, R479), by envelopes that intake accepts for an application served here. A
registration that is well made is in force at once, at VERSION 0 in bank A, and answered REGISTERED; one that is not, or names no
application, is answered REGISTER_REFUSED. A replacement waits for its edge behind those before it; a release orders the withdrawal;
the flip notice makes a valid bank's flip pending. -/
def Obligations.VariantRecords : Prop :=
  (∀ (op : RegOp) (s : State) (k : Nat) (d' : Dev), op.app < 8 →
    let d := atOff s.dev op.off
    let v := field op.header 0 32
    servedHere d op.app → holdsRegs d op.app = false →
    (accepted d d' op.env 0x03 k →
      (appAt d op.app = none → ∃ t, exec (.registerVariant op) s = .next t ∧ answeredWith s.dev t.dev op.env 0x1D ∧
        t.dev.ink = s.dev.ink ∧ t.dev.mem = s.dev.mem) ∧
      (∀ x, appAt d op.app = some x →
        (recordOk d x op.env.tenant k op true = true → recsHeld d < 262144 →
          ∃ t r, exec (.registerVariant op) s = .next t ∧ answeredWith s.dev t.dev op.env 0x1E ∧ variant t.dev v = some r ∧
            r.key = k ∧ r.app = op.app ∧ r.patches = op.patches.map cleanPatch ∧ r.lists = op.lists ∧ r.wd = .none ∧
            r.version = 0 ∧ r.liveB = false ∧ BankHdr.valid r.bankA = true ∧ BankHdr.valid r.bankB = false ∧
            t.dev.ink.slots = s.dev.ink.slots) ∧
        (recordOk d x op.env.tenant k op true = false →
          ∃ t, exec (.registerVariant op) s = .next t ∧ answeredWith s.dev t.dev op.env 0x1D ∧ t.dev.ink = s.dev.ink ∧
            t.dev.mem = s.dev.mem))) ∧
    (accepted d d' op.env 0x04 k →
      (variant d v = none → ∃ t, exec (.replaceVariant op) s = .next t ∧ answeredWith s.dev t.dev op.env 0x10 ∧
        t.dev.ink = s.dev.ink) ∧
      (∀ x r, appAt d op.app = some x → variant d v = some r → r.key = k → r.withdrawn = false → hasJob d v = false →
        recordOk d x op.env.tenant k op false = true →
        ∃ t n, exec (.replaceVariant op) s = .next t ∧ variant t.dev v = some { r with next := r.next ++ [n] } ∧
          n.cutPassed = false ∧ n.answer.status = 0x1E ∧ t.dev.gen.resps = s.dev.gen.resps ∧ t.dev.mem = s.dev.mem))) ∧
  (∀ (op : EnvOp) (s : State) (k : Nat) (d' : Dev),
    let d := atOff s.dev op.off
    let v := leNat (op.env.box.plain.take 4)
    accepted d d' op.env 0x05 k → goesOn d (appFor d k v) = false →
    (variant d v = none → ∃ t, exec (.releaseVariant op) s = .next t ∧ answeredWith s.dev t.dev op.env 0x10 ∧ t.dev.ink = s.dev.ink) ∧
    (∀ r, variant d v = some r → r.key = k → r.wd = .none → ownedSlot d v = none →
      ∃ t a, exec (.releaseVariant op) s = .next t ∧ variant t.dev v = some { r with release := r.release ++ [a], wd := .ordered } ∧
        a.status = 0x25 ∧ t.dev.ink.answer = .none ∧ t.dev.gen.resps = s.dev.gen.resps)) ∧
  (∀ (op : FlipOp) (s : State) (r : VarRec),
    let d := atOff s.dev op.off
    variant d op.variant = some r →
    (r.bank (!r.liveB)).valid = true → r.wd ≠ .done →
      (ownedSlot d op.variant = none → exec (.flipNotice op) s = .next { s with dev := { d with ink := { s.dev.ink with
        recs := s.dev.ink.recs.put op.variant (some { (r.setHdr 173 1 1) with flipAt := op.edge }) } } }) ∧
      (∀ n, ownedSlot d op.variant = some n → (slot d n).st ≠ 3 →
        ∃ t, exec (.flipNotice op) s = .next t ∧ (slot t.dev n).flip = true ∧
          variant t.dev op.variant = some { (r.setHdr 173 1 1) with flipAt := op.edge } ∧ t.dev.mem = s.dev.mem))

/-! ## Generation (R183 to R211) -/

/-- GENERATE (R186, R191) that intake accepts after the cut-off, for an application served here, joins the end of the queue as its
payload spells it, counted, with its replay entry; a replay is answered DUPLICATE and one out of its time EXPIRED, in clear notices;
one whose tag does not verify is dropped and counted. CANCEL (R186, R197) of an active request marks it; of a queued one ends it; of
none is answered. A GENERATE forwarded to this device (R189) joins the queue in the same way; another kind waits, opened, for its
command. -/
def Obligations.GenerateAndCancel : Prop :=
  (∀ (op : EnvOp) (s : State) (k : Nat) (d' : Dev),
    let d := atOff s.dev op.off
    let e := { op.env with origin := ownDevice d }
    let body := op.env.box.plain
    let q := genReq d e k body false
    (accepted d d' op.env 0x01 k → s.dev.frame.cut = true → goesOn d (appFor d k (leNat (body.take 4))) = false →
      ∃ t, exec (.generate op) s = .next t ∧ t.dev.gen.reqs = s.dev.gen.reqs ++ [q] ∧
        q.slot = k ∧ q.id = op.env.id ∧ q.stage = .queued 0 ∧ q.arrived = s.dev.frame.no ∧
        t.dev.gen.filters = s.dev.gen.filters.put k (filterOf d k ++ [⟨op.env.id, op.env.notAfter, false, false⟩]) ∧
        reg t.dev 0x3030 0x00 = reg s.dev 0x3030 0x00 + 1 ∧ t.dev.gen.resps = s.dev.gen.resps) ∧
    (op.env.source ≠ 3 → fetch d op.env = some (d', true) → headerOk op.env 0x01 = true → slotOfTenant d op.env.tenant = some k →
      ((keyOfGen (keySlot d k) op.env.keyGen).any (opensUnder op.env) = false →
        ∃ t, exec (.generate op) s = .next t ∧ reg t.dev 0x3030 0x02 = reg s.dev 0x3030 0x02 + 1 ∧
          t.dev.gen.reqs = s.dev.gen.reqs ∧ t.dev.gen.resps = s.dev.gen.resps) ∧
      ((keyOfGen (keySlot d k) op.env.keyGen).any (opensUnder op.env) = true → op.env.notAfter < s.dev.frame.no →
        ∃ t r, exec (.generate op) s = .next t ∧ t.dev.gen.reqs = s.dev.gen.reqs ∧
          t.dev.gen.resps = s.dev.gen.resps ++ [r] ∧ r.kind = 0x8F ∧ r.status = 0x1A ∧
          reg t.dev 0x3030 0x03 = reg s.dev 0x3030 0x03 + 1)) ∧
    (opened d d' op.env 0x01 k → (∃ r ∈ filterOf d k, r.id = op.env.id) →
      ∃ t r, exec (.generate op) s = .next t ∧ t.dev.gen.reqs = s.dev.gen.reqs ∧
        t.dev.gen.resps = s.dev.gen.resps ++ [r] ∧ r.kind = 0x8F ∧ r.status = 0x19) ∧
    (opened d d' op.env 0x02 k → s.dev.pow.svc = .none → (op.env.source = 2 ∨ keyRing d k = none) →
      (∀ r ∈ filterOf d k, r.id = op.env.id → r.cancelled = false) →
      (findReq d k op.env.id = none → (∀ r ∈ filterOf d k, r.id ≠ op.env.id) → goesOn d none = false →
        ∃ t, exec (.cancel op) s = .next t ∧ answeredWith s.dev t.dev op.env 0x06 ∧ t.dev.gen.reqs = s.dev.gen.reqs) ∧
      (∀ g, findReq d k op.env.id = some g → g.isHolder d = true →
        (g.stage = .active →
          ∃ t, exec (.cancel op) s = .next t ∧ findReq t.dev k op.env.id = some { g with cancel := true } ∧
            t.dev.gen.resps = s.dev.gen.resps) ∧
        (∀ c, g.stage = .queued c → g.onRing = false → g.out = [] →
          ∃ t r, exec (.cancel op) s = .next t ∧ findReq t.dev k op.env.id = none ∧
            t.dev.gen.resps = s.dev.gen.resps ++ [r] ∧ r.status = 0x04 ∧ r.final = true ∧ r.id = g.id)))) ∧
  (∀ (op : ForwardOp) (s : State) (k : Nat),
    let d := atOff s.dev op.off
    let e := envOf op.entry op.body
    slotOfTenant d e.tenant = some k → keyRing d k = none →
    (e.kind = 1 → s.dev.frame.cut = true →
      ∃ t, exec (.intakeForward op) s = .next t ∧ t.dev.gen.reqs = s.dev.gen.reqs ++ [genReq d e k op.body false] ∧
        { t.dev with gen := s.dev.gen, frame := s.dev.frame } = s.dev) ∧
    (2 < e.kind → e.kind < 0x0C →
      exec (.intakeForward op) s = .next { s with dev := { d with
        gen := { s.dev.gen with opened := s.dev.gen.opened ++ [(e, k, op.body)] } } }))

/-- The life of a sequence (R173, R195, R197, R199 to R201, R207, R210). ADMIT_WAIT refuses a request that waited it out with its check's
code; PARK_LIMIT and an END_RECORD end an active one at the next edge; a LIVE report is crossed off. A sampled token of a
one-device chain is appended, or ends its sequence: STOP, LENGTH, or NUMERIC_FAULT for a row with a value that is not finite.
Responses of earlier frames leave at offset 1,700, by key slot, REQUEST_ID and SEQ: in datagrams, or over Ligature to their intake
device; one that returned from another device waits for the next publication, as it was sealed. -/
def Obligations.SequencesRun : Prop :=
  (∀ (op : ReqOp) (s : State) (q : GenReq),
    let d := atOff s.dev op.off
    findReq d op.slot op.id = some q →
    (∀ c, q.stage = .queued c → c = 0x15 ∨ c = 0x16 → reg s.dev 0x3006 0x00 ≤ q.waited → s.dev.frame.cut = true →
      ∃ t, exec (.admitWaitExpiry op) s = .next t ∧ findReq t.dev op.slot op.id = some { q with stage := .decided c } ∧
        { t.dev with gen := { t.dev.gen with reqs := s.dev.gen.reqs }, frame := s.dev.frame } = s.dev) ∧
    (q.stage = .active → s.dev.ink.parkLimit ≤ q.parked →
      ∃ t, exec (.parkLimitExpiry op) s = .next t ∧ findReq t.dev op.slot op.id = some { q with stage := .ending 0x12 } ∧
        { t.dev with gen := { t.dev.gen with reqs := s.dev.gen.reqs }, frame := s.dev.frame } = s.dev) ∧
    (q.stage = .active → q.parked < s.dev.ink.parkLimit → exec (.parkLimitExpiry op) s = .next { s with dev := d })) ∧
  (∀ (op : EndOp) (s : State) (q : GenReq),
    let d := atOff s.dev op.off
    findReq d op.slot op.id = some q → q.stage = .active → q.holder = ownDevice d →
    ∃ t, exec (.endRecord op) s = .next t ∧
      findReq t.dev op.slot op.id = some { q with out := q.out ++ op.last.toList, stage := .ending op.status } ∧
      { t.dev with gen := { t.dev.gen with reqs := s.dev.gen.reqs }, frame := s.dev.frame } = s.dev) ∧
  (∀ (op : LiveReportOp) (s : State) (q : GenReq),
    findReq (atOff s.dev op.off) op.slot op.id = some q →
    ∃ t, exec (.slotLiveReport op) s = .next t ∧
      findReq t.dev op.slot op.id = some { q with waiting := q.waiting.filter (· ≠ op.device) } ∧
      { t.dev with gen := { t.dev.gen with reqs := s.dev.gen.reqs }, frame := s.dev.frame } = s.dev) ∧
  (∀ (op : SampleOp) (s : State) (q : GenReq) (x : App),
    let d := atOff s.dev op.off
    let n := q.rows + q.planned
    let tok := sampleToken q.sk n q.temp q.topK q.topP op.logits
    findReq d op.slot op.id = some q → appAt d q.app = some x → x.place.len = 1 → x.place.stage = 0 → q.stage = .active →
    q.planned ≠ 0 → q.sampled = false → op.logits.length = x.book.vocab → unitDone d q = true → q.holder = ownDevice d →
    q.rollout = none → q.prompt.length ≤ n →
    ((∃ w ∈ op.logits, isFinite w = false) → ∃ t, exec (.tokenSample op) s = .next t ∧
      findReq t.dev op.slot op.id = some { q with stage := .ending 0x05, sampled := true } ∧ t.dev.regs = s.dev.regs) ∧
    ((∀ w ∈ op.logits, isFinite w = true) → ∃ t, exec (.tokenSample op) s = .next t ∧
      reg t.dev 0x3030 0x06 = reg s.dev 0x3030 0x06 + 1 ∧ t.dev.mem = s.dev.mem ∧
      findReq t.dev op.slot op.id = some { q with
        out := q.out ++ [(tok, s.dev.frame.no)], sampled := true
        stage := if tok ∈ q.stops then .ending 0x02 else if q.maxNew ≤ n + 1 - q.prompt.length then .ending 0x03 else .active })) ∧
  (∀ (op : AtOp) (s : State),
    let d := atOff s.dev op.off
    let due := fun (r : Resp) => decide (r.made < s.dev.frame.no)
    let leaves := fun (r : Resp) =>
      if r.origin ≠ ownDevice d then [Out.returned r.origin r.reply r.final (sentOf r)]
      else (segments r (respLen r)).map (fun x => Out.datagram r.source r.reply x.1 x.2.1 x.2.2 (sentOf r))
    (∀ r ∈ s.dev.gen.resps, r.waits = false ∧ (r.origin = ownDevice d → r.source ≠ 2 ∧ portRing d r.slot = none)) →
    (1700 ≤ d.frame.off → ∃ t, exec (.responsePublish op) s = .next t ∧
      t.dev.out = ((sortResps (s.dev.gen.resps.filter due)).flatMap leaves).reverse ++ s.dev.out ∧
      t.dev.gen.resps = s.dev.gen.resps.filter (fun r => !due r)) ∧
    (d.frame.off < 1700 → exec (.responsePublish op) s = .next { s with dev := d })) ∧
  (∀ (op : ReturnOp) (s : State),
    ∃ t r, exec (.responseReturn op) s = .next t ∧ t.dev.gen.resps = s.dev.gen.resps ++ [r] ∧
      r.tenant = field op.hdr 32 16 ∧ r.id = field op.hdr 128 64 ∧ r.seq = field op.hdr 96 32 ∧ r.kind = field op.hdr 24 8 ∧
      plainOf r = op.plain ∧ stampOf r = field op.hdr 288 64 ∧ r.final = op.final ∧ replyHandle r.source r.reply = op.handle ∧
      r.made = s.dev.frame.no ∧ r.waits = false ∧
      { t.dev with gen := s.dev.gen, frame := s.dev.frame } = s.dev)

/-! ## Training (R212 to R251) -/

/-- Training envelopes that intake accepts on the device that serves them (R189, R212, R216, R217, R219, R236). A TRAIN_JOB that keeps
its table, for variants that stand ready, creates a job that starts at an edge, else it is answered JOB_REFUSED; one for a job that
does not exist is answered NOT_FOUND. LEDGER_APPEND appends its prompts while they fit, else it is answered LEDGER_FULL; REWARDS fill
their group; OFFLINE_GROUP joins the job's groups; JOB_CONTROL pauses, resumes or ends at the next edge; EVALUATE pins the variant
and plans its probes. -/
def Obligations.TrainingEnvelopes : Prop :=
  ∀ (op : EnvOp) (s : State) (k : Nat) (d' : Dev),
    let d := atOff s.dev op.off
    let body := op.env.box.plain
    let p : JobPar := BitVec.ofNat 1024 (leNat (body.take 128))
    let key := jobKey k (leNat (body.take 4))
    let shows := fun (c : Instr) (code : Nat) =>
      ∃ t, exec c s = .next t ∧ answeredWith s.dev t.dev op.env code ∧ t.dev.train = s.dev.train
    let becomes := fun (c : Instr) (j : Job) =>
      ∃ t, exec c s = .next t ∧ findJob t.dev key = some j ∧ t.dev.gen.resps = s.dev.gen.resps ∧ t.dev.mem = s.dev.mem ∧
        reg t.dev 0x3030 0x00 = reg s.dev 0x3030 0x00 + 1
    let control := [(Instr.jobPause op, 0), (Instr.jobResume op, 1), (Instr.jobEnd op, 2)]
    (accepted d d' op.env 0x06 k → body.length = 128 → elsewhere d p.variant = false →
      (findJob d (jobKey k (field p 0 32))) = none → s.dev.train.jobs.length < 1024 → jobVariantsOk d k p = true →
      (p.ok = true → p.reward = 0 → ∃ t j, exec (.trainJob op) s = .next t ∧ t.dev.train.jobs = s.dev.train.jobs ++ [j] ∧
        j.key = jobKey k (field p 0 32) ∧ j.par = p ∧ j.tenant = op.env.tenant ∧ j.started = false ∧ j.ledger = [] ∧ j.steps = [] ∧
        reg t.dev 0x6000 0x00 = s.dev.train.jobs.length + 1) ∧
      (p.ok = false → shows (.trainJob op) 0x35)) ∧
    (findJob d key = none → jobElsewhere d = false →
      (accepted d d' op.env 0x07 k → shows (.ledgerAppend op) 0x06) ∧ (accepted d d' op.env 0x08 k → shows (.rewards op) 0x06) ∧
      (accepted d d' op.env 0x09 k → shows (.offlineGroup op) 0x06) ∧
      (accepted d d' op.env 0x0A k → ∀ c ∈ control, shows c.1 0x06)) ∧
    (∀ j, findJob d key = some j →
      (∀ ps, accepted d d' op.env 0x07 k → readPrompts (leNat ((body.drop 4).take 4)) (body.drop 8) = some ps →
        (j.ledger.length - j.cursor + ps.length ≤ reg s.dev 0x600B 0x00 →
          becomes (.ledgerAppend op) { j with ledger := j.ledger ++ ps }) ∧
        (reg s.dev 0x600B 0x00 < j.ledger.length - j.cursor + ps.length → shows (.ledgerAppend op) 0x37)) ∧
      (let g := leNat ((body.drop 8).take 8)
       ∀ y, accepted d d' op.env 0x08 k → body.length = 16 + 4 * JobPar.groupSize j.par → j.group? g = some y → y.dropped = false →
        j.reward = 0 →
        becomes (.rewards op) (j.onGroup g (fun y => y.setRewards (wordsOf (JobPar.groupSize j.par) (body.drop 16))))) ∧
      (let n := leNat ((body.drop 4).take 4)
       ∀ l, accepted d d' op.env 0x09 k → 1 ≤ n → n ≤ 64 → JobPar.template j.par = 1 → readOffline n (body.drop 8) = some l →
        becomes (.offlineGroup op) { j with offline := j.offline ++ [l] }) ∧
      (accepted d d' op.env 0x0A k → ∀ c ∈ control, leNat ((body.drop 4).take 4) = c.2 →
        becomes c.1 (if c.2 = 2 then { j with ends := some 2 } else { j with pausedNext := some (c.2 == 0) }))) ∧
    (let v := leNat (body.take 4)
     accepted d d' op.env 0x0B k → elsewhere d v = false →
     (variant d v = none → shows (.evaluate op) 0x10) ∧
     (∀ r n ps, variant d v = some r → r.key = k → r.withdrawn = false → r.held = true →
      leNat ((body.drop 4).take 4) = 1 → readProbes body.length (body.drop 8) = some ps → ownedSlot d v = some n →
      ((slot d n).st = 1 ∨ (slot d n).st = 2) → (slot d n).withdrawing = false → (slot d n).pin < 65535 →
      (∀ x ∈ s.dev.ink.refused, x.1 ≠ evalUse k op.env.id) →
      ∃ t x, exec (.evaluate op) s = .next t ∧ t.dev.train.evals = s.dev.train.evals ++ [x] ∧ x.slot = k ∧ x.id = op.env.id ∧
        x.variant = v ∧ x.probes = ps.length ∧ x.since = s.dev.frame.no ∧
        t.dev.ink.bound = s.dev.ink.bound ++ [(evalUse k op.env.id, n, (slot d n).gen)]))

/-- The course of a step (R215, R219, R220, R236, R309). REWARD_WAIT drops a group whose rewards have not come, and a step of which it was
the last ends EMPTY. ADVANTAGE of a scored step
gives each group's rollouts their advantages from its rewards and schedules its sequences. REDUCE_DONE crosses a device off, and
the last stage's names the loss. A commit notice waits as a Scribe task, a running one completes at VERSION one up, and its report
gathers (R244, R250). An evaluation past EVAL_FRAMES is abandoned, answered, and its pin released. -/
def Obligations.TrainingStep : Prop :=
  (∀ (op : GroupOp) (s : State) (j : Job) (y : Group) (f : Nat),
    let d := atOff s.dev op.off
    findJob d (jobKey op.slot op.job) = some j → j.group? op.group = some y → y.dropped = false → j.reward = 0 →
    y.ended = some f → (∃ r ∈ y.rollouts, r.reward = none) →
    (f + reg s.dev 0x600A 0x00 ≤ s.dev.frame.no →
      let j' := j.onGroup op.group (fun y => { y with dropped := true })
      ∃ t, exec (.rewardWaitExpiry op) s = .next t ∧ reg t.dev 0x6010 0x03 = reg s.dev 0x6010 0x03 + 1 ∧ t.dev.mem = s.dev.mem ∧
        ((∀ x ∈ j'.steps, x.phase = .rollout → x.trained ≠ []) →
          findJob t.dev (jobKey op.slot op.job) = some j' ∧ t.dev.gen = s.dev.gen) ∧
        (∀ x, j'.steps = [x] → x.phase = .rollout → x.trained = [] →
          findJob t.dev (jobKey op.slot op.job) = some { j' with steps := [{ x with phase := .empty }] } ∧
          reg t.dev 0x6010 0x01 = reg s.dev 0x6010 0x01 + 1 ∧ t.dev.gen.resps.getLast?.map (·.status) = some 0x32)) ∧
    (s.dev.frame.no < f + reg s.dev 0x600A 0x00 → exec (.rewardWaitExpiry op) s = .next { s with dev := d })) ∧
  (∀ (op : AdvantageOp) (s : State) (j : Job) (x : StepS),
    let d := atOff s.dev op.off
    findJob d (jobKey op.slot op.job) = some j → j.reward = 0 → j.step? j.live = some x → x.phase = .rollout → x.scored = true → x.close = none →
    x.trained ≠ [] → (∀ y ∈ x.groups, ∀ r ∈ y.rollouts, ∀ w, r.reward = some w → isNan w = false) →
    ∃ t j' x', exec (.advantage op) s = .next t ∧ findJob t.dev (jobKey op.slot op.job) = some j' ∧ j'.step? j.live = some x' ∧
      x'.phase = .scheduling ∧ x'.seqs.length = x.sequences.length ∧
      (∀ y ∈ x.groups, y.dropped = false → y.offline = false → ∃ y' ∈ x'.groups, y'.g = y.g ∧
        y'.rollouts.map (·.adv) = advantages j.par (y.rollouts.map (fun r => r.reward.getD 0))) ∧
      t.dev.mem = s.dev.mem ∧
      ((∀ y ∈ j.steps, y.s ≠ x.s → y.phase = .rollout → y.trained ≠ []) → t.dev.gen = s.dev.gen)) ∧
  (∀ (op : ReduceOp) (s : State) (j : Job) (x : StepS),
    let key := jobKey op.slot op.job
    findJob (atOff s.dev op.off) key = some j → j.step? op.step = some x → op.device ∉ x.reduced →
    ∃ t, exec (.reduceDone op) s = .next t ∧
      findJob t.dev key = some (j.setStep { x with reduced := x.reduced ++ [op.device], loss := op.loss.getD x.loss }) ∧
      { t.dev with train := { t.dev.train with jobs := s.dev.train.jobs }, regs := s.dev.regs, frame := s.dev.frame } = s.dev) ∧
  (∀ (op : ReqOp) (s : State) (v : Eval),
    let d := atOff s.dev op.off
    s.dev.train.evals.find? (fun v => v.slot == op.slot && v.id == op.id) = some v →
    (v.since + reg s.dev 0x600C 0x00 ≤ s.dev.frame.no →
      ∃ t r, exec (.evalFramesExpiry op) s = .next t ∧ t.dev.gen.resps = s.dev.gen.resps ++ [r] ∧ r.status = 0x39 ∧
        t.dev.train = { s.dev.train with evals := s.dev.train.evals.filter (fun x => !(x.slot == v.slot && x.id == v.id)) } ∧
        t.dev.ink.bound = s.dev.ink.bound.filter (fun x => x.1 != evalUse v.slot v.id)) ∧
    (s.dev.frame.no < v.since + reg s.dev 0x600C 0x00 → exec (.evalFramesExpiry op) s = .next { s with dev := d })) ∧
  (∀ (op : CommitOp) (s : State) (r : VarRec),
    variant (atOff s.dev op.off) op.notice.variant = some r → BankHdr.held (r.bank (!r.liveB)) = false →
    ∃ t, exec (.commitNotice op) s = .next t ∧ t.dev.train.scribe = s.dev.train.scribe ++ [⟨op.notice, false, false, false, false⟩]) ∧
  (∀ (op : VariantOp) (s : State) (k : ScribeTask) (r : VarRec) (c : Copybook),
    s.dev.train.scribe.find? (fun t => t.running && t.notice.variant == op.variant) = some k →
    variant (atOff s.dev op.off) op.variant = some r → bookOf (atOff s.dev op.off) r = some c → r.id = op.variant →
    findJob s.dev (jobKey k.notice.slot k.notice.job) = none →
    ∃ t r', exec (.scribeDone op) s = .next t ∧ variant t.dev op.variant = some r' ∧
      BankHdr.version (r'.bank (!r.liveB)) = (r.version + 1) % 2 ^ 32 ∧ reg t.dev 0x6050 0x00 = reg s.dev 0x6050 0x00 + 1) ∧
  (∀ (op : ScribeReportOp) (s : State) (j : Job) (x : StepS), findJob s.dev (jobKey op.slot op.job) = some j →
    j.step? op.step = some x → x.phase = .committed → op.fault = false → op.device ∉ x.scribed →
    ∃ t y, exec (.scribeReport op) s = .next t ∧ (findJob t.dev (jobKey op.slot op.job)).bind (·.step? op.step) = some y ∧
      y.scribed = x.scribed ++ [op.device] ∧ t.dev.mem = s.dev.mem)

/-- From commit to flip (R244, R249, R250). A commit notice for a variant held here becomes a Scribe task that is planned later. A running
Scribe task completes by writing the idle bank's header: VERSION one up, the notice's step, VALID unless a value was not finite;
the live bank stays, and the report goes to the job's device, with the mark of a stream that ran cold. Reports gather in the step; one of
a numeric fault fails it. -/
def Obligations.ScribesWrite : Prop :=
  (∀ (op : CommitOp) (s : State) (r : VarRec),
    let d := atOff s.dev op.off
    variant d op.notice.variant = some r → BankHdr.held (r.bank (!r.liveB)) = false →
    exec (.commitNotice op) s = .next { s with dev := { d with train := { s.dev.train with
      scribe := s.dev.train.scribe ++ [⟨op.notice, false, false, false, false⟩] } } }) ∧
  (∀ (op : VariantOp) (s : State) (k : ScribeTask) (r : VarRec) (c : Copybook),
    let d := atOff s.dev op.off
    let key := jobKey k.notice.slot k.notice.job
    s.dev.train.scribe.find? (fun t => t.running && t.notice.variant == op.variant) = some k → variant d op.variant = some r →
    bookOf d r = some c → r.id = op.variant → findJob d key = none →
    ∃ t r' valid, exec (.scribeDone op) s = .next t ∧ variant t.dev op.variant = some r' ∧
      (let h := r'.bank (!r.liveB)
       BankHdr.version h = (r.version + 1) % 2 ^ 32 ∧ BankHdr.step h = k.notice.step % 2 ^ 32 ∧
       BankHdr.updates h = k.notice.u % 2 ^ 32 ∧ BankHdr.valid h = valid ∧ BankHdr.held h = false) ∧
      r'.bank r.liveB = r.bank r.liveB ∧ r'.hdr = r.hdr ∧
      reg t.dev 0x6050 0x00 = reg s.dev 0x6050 0x00 + 1 ∧
      reg t.dev 0x6050 0x03 = reg s.dev 0x6050 0x03 + (if valid then 0 else 1) ∧
      t.dev.train.scribe = s.dev.train.scribe.filter (fun y => y.notice != k.notice) ∧
      t.dev.out.head? = some (.scribeReport key k.notice.step (!valid) (ranCold d (key + 1, k.notice.step)))) ∧
  (∀ (op : ScribeReportOp) (s : State) (j : Job) (x : StepS),
    let d := atOff s.dev op.off
    let key := jobKey op.slot op.job
    findJob d key = some j → j.step? op.step = some x → x.phase = .committed →
    (op.fault = false → op.device ∉ x.scribed →
      ∃ t, exec (.scribeReport op) s = .next t ∧
        findJob t.dev key = some (j.setStep { x with
          scribed := x.scribed ++ [op.device], cold := x.cold || op.cold, phase := if setSizeOf d j.app ≤ x.scribed.length + 1 then .scribed else .committed }) ∧
        t.dev.ink = s.dev.ink ∧ t.dev.mem = s.dev.mem) ∧
    (op.fault = true →
      ∃ t j', exec (.scribeReport op) s = .next t ∧ findJob t.dev key = some j' ∧ j'.committed = none ∧
        (j'.step? op.step).any (fun y => y.phase == .empty) = true ∧ reg t.dev 0x6010 0x02 = reg s.dev 0x6010 0x02 + 1 ∧
        t.dev.gen.resps.getLast?.map (·.status) = some 0x33))

/-! ## Snapshots and restores (R252 to R265) -/

/-- Snapshots proceed (R253 to R258). Once the policy's interval has passed, the manager orders a capture 16 frames on. A buddy stores an
object it has room for and acknowledges it, or refuses; it keeps the completion record of a device whose objects it holds. An
acknowledged part is crossed off; a refusal or SNAP_TIMEOUT interrupts the snapshot, counted, with the latest complete one kept.
Completion records gather at the manager; SNAPSHOT_COMPLETE makes the snapshot in progress the latest complete one. -/
def Obligations.SnapshotsProceed : Prop :=
  (∀ (op : AppOp) (s : State), op.app < 8 →
    let d := atOff s.dev op.off
    let x := snapOf d op.app
    (isManager d = true → reg s.dev 0x6020 0x00 ≠ 0 → x.last + snapInterval d op.app ≤ s.dev.frame.no + 16 →
      (appAt d op.app).isSome = true → x.order = none → x.current = none →
      ∃ t, exec (.snapshotInterval op) s = .next t ∧ t.dev.snap = { s.dev.snap with
          apps := s.dev.snap.apps.put op.app { x with order := some (s.dev.frame.no + 16), boosted := false, number := x.number + 1 } } ∧
        { t.dev with snap := s.dev.snap, frame := s.dev.frame, out := s.dev.out } = s.dev) ∧
    (isManager d = false → exec (.snapshotInterval op) s = .next { s with dev := d }) ∧
    (∀ i, x.current = some i → i.edge + reg s.dev 0x6020 0x07 ≤ s.dev.frame.no → i.vars = [] →
      ∃ t, exec (.snapTimeout op) s = .next t ∧
        snapOf t.dev op.app = { x with current := none, toSend := [], recorded := [], boosted := false, state := 4 } ∧
        reg t.dev 0x6024 0x00 = 4 ∧ reg t.dev 0x6050 0x07 = reg s.dev 0x6050 0x07 + 1 ∧
        t.dev.ink = s.dev.ink ∧ t.dev.mem = s.dev.mem) ∧
    ((∀ i, x.current = some i → s.dev.frame.no < i.edge + reg s.dev 0x6020 0x07) →
      exec (.snapTimeout op) s = .next { s with dev := d })) ∧
  (∀ (op : SnapObjOp) (s : State),
    let d := atOff s.dev op.off
    let o := op.obj
    (op.room = false → exec (.snapObject op) s = .next { s with dev := { d with
      out := .snapAck o.device o.app o.snapshot o.part true :: s.dev.out } }) ∧
    (op.room = true → (∀ y ∈ s.dev.snap.store, ¬(y.device = o.device ∧ y.app = o.app ∧ y.part = o.part ∧ y.snapshot = o.snapshot)) →
      exec (.snapObject op) s = .next { s with dev := { d with
        snap := { s.dev.snap with store := s.dev.snap.store ++ [o] }
        out := .snapAck o.device o.app o.snapshot o.part false :: s.dev.out } })) ∧
  (∀ (op : SnapAckOp) (s : State) (i : Image), op.app < 8 →
    let d := atOff s.dev op.off
    let x := snapOf d op.app
    x.current = some i → i.number = op.snapshot → op.part ∈ x.toSend → i.vars = [] →
    (op.refused = false → x.toSend.filter (· != op.part) ≠ [] →
      ∃ t, exec (.snapObjectAck op) s = .next t ∧ (snapOf t.dev op.app).toSend = x.toSend.filter (· != op.part) ∧
        (snapOf t.dev op.app).current = some i ∧ reg t.dev 0x6024 0x00 = 2 ∧ t.dev.ink = s.dev.ink) ∧
    (op.refused = true →
      ∃ t, exec (.snapObjectAck op) s = .next t ∧ (snapOf t.dev op.app).current = none ∧
        (snapOf t.dev op.app).complete = x.complete ∧ reg t.dev 0x6024 0x00 = 4 ∧
        reg t.dev 0x6050 0x07 = reg s.dev 0x6050 0x07 + 1)) ∧
  (∀ (op : SnapRecOp) (s : State) (i : Image), op.app < 8 →
    let d := atOff s.dev op.off
    let x := snapOf d op.app
    let r : SnapRec := { device := op.device, app := op.app, snapshot := op.snapshot, edge := op.edge, sha := op.sha }
    let recs := if s.dev.snap.store.any (fun o => o.device == op.device && o.app == op.app && o.snapshot == op.snapshot) then
        s.dev.snap.records.filter (fun y => !(y.device == op.device && y.app == op.app && y.snapshot == op.snapshot)) ++ [r]
      else s.dev.snap.records
    x.current = some i → i.number = op.snapshot →
    (isManager d = true → op.device ∉ x.recorded →
      exec (.snapCompletionRecord op) s = .next { s with dev := { d with snap := { s.dev.snap with
        records := recs
        apps := s.dev.snap.apps.put op.app { x with recorded := x.recorded ++ [op.device], spent := max x.spent op.spent } } } }) ∧
    (isManager d = false → exec (.snapCompletionRecord op) s = .next { s with dev := { d with snap := { s.dev.snap with records := recs } } }) ∧
    ((isManager d = true → setSizeOf d op.app ≤ x.recorded.length) → 0 < i.edge →
      ∃ t, exec (.snapshotComplete op) s = .next t ∧
        snapOf t.dev op.app = { x with
          complete := some i, current := none, boosted := false, costs := (x.spent :: x.costs).take 4, state := 3 } ∧
        reg t.dev 0x6050 0x06 = reg s.dev 0x6050 0x06 + 1 ∧ reg t.dev 0x6024 0x00 = 3 ∧ reg t.dev 0x6024 0x01 = i.edge ∧
        t.dev.mem = s.dev.mem ∧ t.dev.ink = s.dev.ink) ∧
    (isManager d = true → x.recorded.length < setSizeOf d op.app → exec (.snapshotComplete op) s = .next { s with dev := d }))

/-- RESTORE and RESTORE_REPORT (R262): on the manager a restore names the next edge at which the application stops; a worker does
nothing. A stopped device's report is crossed off, this device's own after its jobs begin again where no snapshot is complete and its
store gives none; a device in a lost one's place takes the lost one's snapshot; at
the manager the last one names the resume edge, 16 frames on. -/
def Obligations.RestoresProceed : Prop :=
  (∀ (op : AppOp) (s : State), op.app < 8 →
    let d := atOff s.dev op.off
    let x := snapOf d op.app
    (isManager d = true → (appAt d op.app).isSome = true → x.stopAt = none →
      ∃ t, exec (.restore op) s = .next t ∧ t.dev.snap = { s.dev.snap with
          apps := s.dev.snap.apps.put op.app { x with stopAt := some (s.dev.frame.no + 1), restored := [], resumeAt := none } } ∧
        { t.dev with snap := s.dev.snap, frame := s.dev.frame, out := s.dev.out } = s.dev) ∧
    (isManager d = false → exec (.restore op) s = .next { s with dev := d })) ∧
  (∀ (op : RestoreOp) (s : State) (a : App) (e : Nat), op.app < 8 →
    let d := atOff s.dev op.off
    let x := snapOf d op.app
    appAt d op.app = some a → a.stopped = true → x.stopAt = some e → op.device ∉ x.restored →
    (op.device ≠ ownDevice d → (isManager d = false ∨ x.restored.length + 1 < setSize a) →
      exec (.restoreReport op) s = .next { s with dev := { d with snap := { s.dev.snap with
        apps := s.dev.snap.apps.put op.app { x with restored := x.restored ++ [op.device] } } } }) ∧
    (isManager d = true → op.device ≠ ownDevice d → setSize a ≤ x.restored.length + 1 →
      ∃ t, exec (.restoreReport op) s = .next t ∧
        snapOf t.dev op.app = { x with restored := x.restored ++ [op.device], resumeAt := some (s.dev.frame.no + 16) } ∧
        { t.dev with snap := s.dev.snap, frame := s.dev.frame, out := s.dev.out } = s.dev) ∧
    (op.device = ownDevice d → x.complete = none → ∃ t, exec (.restoreReport op) s = .next t ∧ (snapOf t.dev op.app).complete = op.image) ∧
    (op.device = ownDevice d → x.complete = none → op.image = none →
      ∃ t, exec (.restoreReport op) s = .next t ∧ (snapOf t.dev op.app).restored = x.restored ++ [op.device] ∧
        t.dev.train.jobs = s.dev.train.jobs.map (fun j => if j.app = op.app then restartJob j else j) ∧
        ((∀ j ∈ s.dev.train.jobs, j.app = op.app → ∀ u, (u = j.policyUse ∨ (u = j.rewardUse ∧ j.reward ≠ 0)) →
            ((∃ b ∈ s.dev.ink.binds, b.use = u) ∨ (∃ x ∈ s.dev.ink.bound, x.1 = u))) →
          t.dev.mem = s.dev.mem ∧ t.dev.ink = s.dev.ink)))

/-! ## Base replacement (R320 to R340) -/

/-- The course of a base replacement on the manager of a one-device set, and its entries (R322, R323, R325 to R327, R329 to R331). A
package verified whole begins MAP; one that is not ends the operation ABANDONED, counted. A variant that is not quiet within
QUIESCE_FRAMES has its drawn step abandoned at the next edge. A carry task leaves its entry MAPPED, or FAILED of a numeric fault.
A check's outcome makes an entry PASSED or FAILED with its cause and its means, CHECK_FRAMES with cause 3. -/
def Obligations.BaseReplacement : Prop :=
  (∀ (op : ShardOp) (s : State) (x : App), op.app < 8 →
    let d := atOff s.dev op.off
    let b := baseOf d op.app
    appAt d op.app = some x → setSize x = 1 → isManager d = true → b.phase = 1 → b.verified = [] → op.device = ownDevice d →
    (∀ p, op.ok = true → op.package = some p → sameShape x.book p.book = true →
      ∃ t, exec (.shardVerified op) s = .next t ∧ (baseOf t.dev op.app).phase = 2 ∧ (baseOf t.dev op.app).package = some p ∧
        (baseOf t.dev op.app).mapAt = s.dev.frame.no ∧ (baseOf t.dev op.app).holdRegs = true ∧
        reg t.dev 0x2101 (op.app + 1) = 2 ∧ t.dev.ink = s.dev.ink ∧ t.dev.train = s.dev.train) ∧
    (op.ok = false → b.journal = [] → b.package = none → (∀ h ∈ s.dev.ink.heldRegs, h.1.app ≠ op.app) →
      ∃ t, exec (.shardVerified op) s = .next t ∧ (baseOf t.dev op.app).phase = 7 ∧ (baseOf t.dev op.app).opId = b.opId ∧
        reg t.dev 0x2110 0x01 = reg s.dev 0x2110 0x01 + 1 ∧ t.dev.mem = s.dev.mem)) ∧
  (∀ (op : AppVariantOp) (s : State) (e : JEntry), op.app < 8 →
    let d := atOff s.dev op.off
    let b := baseOf d op.app
    entryOf d op.app op.variant = some e →
    (e.st = 0 → quietVariant d op.variant = false →
      (b.mapAt + reg s.dev 0x2105 0x01 ≤ s.dev.frame.no →
        ∃ t, exec (.quiesceExpiry op) s = .next t ∧ baseOf t.dev op.app = { b with quash := b.quash ++ [op.variant] } ∧
          t.dev.train = s.dev.train ∧ t.dev.mem = s.dev.mem) ∧
      (s.dev.frame.no < b.mapAt + reg s.dev 0x2105 0x01 → exec (.quiesceExpiry op) s = .next { s with dev := d })) ∧
    (∀ r p, e.st = 1 → variant d op.variant = some r → r.id = op.variant → b.package = some p →
      ∃ t e' r', exec (.carryTaskDone op) s = .next t ∧ entryOf t.dev op.app op.variant = some e' ∧
        variant t.dev op.variant = some r' ∧ r'.bank r.liveB = r.bank r.liveB ∧
        ((e'.st = 2 ∧ e'.mappedAt = s.dev.frame.no) ∨ (e'.st = 5 ∧ e'.cause = 4))) ∧
    ((e.st = 2 ∨ e.st = 3) → e.mappedAt + reg s.dev 0x2105 0x03 ≤ s.dev.frame.no →
      ∃ t e', exec (.checkFramesExpiry op) s = .next t ∧ entryOf t.dev op.app op.variant = some e' ∧ e'.st = 5 ∧ e'.cause = 3 ∧
        t.dev.mem = s.dev.mem)) ∧
  (∀ (op : CheckOp) (s : State) (e : JEntry) (c : Nat), op.app < 8 →
    let d := atOff s.dev op.off
    entryOf d op.app op.variant = some e → (e.st = 2 ∨ e.st = 3) → op.told = some c → c < 16 →
    ∃ t e', exec (.checkOutcome op) s = .next t ∧ entryOf t.dev op.app op.variant = some e' ∧
      e'.st = (if c = 0 then 4 else 5) ∧ e'.cause = c ∧ (e'.lp, e'.expLp, e'.hit, e'.expHit) = op.means ∧ t.dev.mem = s.dev.mem)

/-! ## Ligature (R266 to R299, R317) -/

/-- The link layer of an UP port with nothing waiting (R14, R273 to R275). A DATA flit in order is accepted: the next SEQ is expected, its ACK
empties the replay buffer as far as it reaches, its credits are added, and it is acknowledged with what it released; one
out of order or damaged is discarded and NAKed. An IDLE flit gives ACK and credits alone; a NAK is answered by a replay from the flit after
its ACK, and counted. A TSYNC question is answered; an answer's half round trip is the port's delay. -/
def Obligations.LinkLayer : Prop :=
  (∀ (op : FlitOp) (s : State), op.port < 16 →
    let x := port s.dev op.port
    let r := ackReplay op.ack x.replay
    let y := { x with
      fec := x.fec + op.uncorrected, replay := r, naks := if r = x.replay then x.naks else 0
      credit := x.credit.set 0 op.cvc (x.credit.get 0 op.cvc + op.credits) }
    let counted := bump (bump s.dev 0x4020 (op.port + 1) op.corrected) 0x4021 (op.port + 1) op.uncorrected
    x.st = .up → x.queue = [] →
    (op.crcOk = true → op.seq = x.rxSeq →
      ∃ t, exec (.dataFlit op) s = .next t ∧ port t.dev op.port = { y with rxSeq := (x.rxSeq + 1) % 4096 } ∧ t.dev.regs = counted.regs ∧
        t.dev.out = (match op.done with
          | [] => [.flit op.port 1 op.seq 0 0]
          | l => (l.map (fun z => Out.flit op.port 1 op.seq z.1 z.2)).reverse) ++ s.dev.out ∧
        (∀ q, q ≠ op.port → port t.dev q = port s.dev q)) ∧
    ((op.crcOk = false ∨ op.seq ≠ x.rxSeq) →
      ∃ t, exec (.dataFlit op) s = .next t ∧ port t.dev op.port = { x with fec := x.fec + op.uncorrected } ∧ t.dev.regs = counted.regs ∧
        t.dev.out = .flit op.port 2 ((x.rxSeq + 4095) % 4096) 0 0 :: s.dev.out) ∧
    (op.crcOk = true →
      (∃ t, exec (.idleFlit op) s = .next t ∧ port t.dev op.port = y ∧ t.dev.regs = counted.regs ∧ t.dev.out = s.dev.out ∧
        (∀ q, q ≠ op.port → port t.dev q = port s.dev q)) ∧
      (∃ t, exec (.nakFlit op) s = .next t ∧
        port t.dev op.port = (if r = x.replay then { y with naks := x.naks + 1 } else y) ∧
        t.dev.regs = (bump counted 0x4022 (op.port + 1) 1).regs ∧
        t.dev.out = .replay op.port ((op.ack + 1) % 4096) :: s.dev.out))) ∧
  (∀ (op : PortOp) (s : State), op.port < 16 →
    let x := port s.dev op.port
    x.st = .up → x.queue = [] → isManager s.dev = false →
    (16 ≤ x.naks → ∃ t, exec (.nakLimit op) s = .next t ∧
      port t.dev op.port = { x with replay := [], queue := [], credit := [], naks := 0, st := .retraining, fast := x.saved, phy := false } ∧
      reg t.dev 0x4023 (op.port + 1) = reg s.dev 0x4023 (op.port + 1) + 1 ∧ reg t.dev 0x4011 (op.port + 1) = 5) ∧
    (x.naks < 16 → exec (.nakLimit op) s = .next { s with dev := atOff s.dev op.off })) ∧
  (∀ (op : TsyncOp) (s : State), op.port < 16 → (port s.dev op.port).st = .up →
    let d := atOff s.dev op.off
    let delay := ((op.t4 - op.t1) - (op.t3 - op.t2)) / 2
    (op.answer = false → exec (.tsyncFlit op) s = .next { s with dev := { d with out := .tsync op.port :: s.dev.out } }) ∧
    (op.answer = true → upstream d op.port = false → exec (.tsyncFlit op) s = .next { s with dev := setReg d 0x4014 (op.port + 1) delay }) ∧
    (op.answer = true → upstream d op.port = true →
      exec (.tsyncFlit op) s = .next { s with dev := setReg (setReg d 0x4014 (op.port + 1) delay) 0x1023 0x00 delay }))

/-- Port states on a worker (R295, R296, R372). A signal takes a DOWN port into TRAINING, fast where it has saved coefficients; loss of
signal takes an UP port DOWN. A trained PHY with the HELLO of the peer that the map names and authenticates is UP, any other MISWIRED,
which raises PORT_MISWIRED; RETRAIN_LIMIT failures end in FAILED, from which PORT_RETRY_FRAMES later training begins
anew. FEC_RETRAIN uncorrectable codewords take an UP port into RETRAINING. -/
def Obligations.PortStates : Prop :=
  (∀ (op : PortOp) (s : State), op.port < 16 → isManager s.dev = false →
    let d := atOff s.dev op.off
    let x := port s.dev op.port
    let raised := fun (t : State) => (source s.dev (portSrc op.port 0)).st = .inactive → (source s.dev (portSrc op.port 0)).level ≠ 0 →
      (source t.dev (portSrc op.port 0)).st = .pending ∧ (source t.dev (portSrc op.port 0)).arg = op.port
    (x.st = .down → ∃ t, exec (.signalDetect op) s = .next t ∧ raised t ∧ reg t.dev 0x4011 (op.port + 1) = 2 ∧
      port t.dev op.port = { x with st := .training, fast := x.saved, phy := false, hello := none }) ∧
    (x.st ≠ .down → exec (.signalDetect op) s = .next { s with dev := d }) ∧
    (x.st = .up → x.queue = [] → ∃ t, exec (.lossOfSignal op) s = .next t ∧ raised t ∧ reg t.dev 0x4011 (op.port + 1) = 1 ∧
      port t.dev op.port = { x with st := .down, replay := [], queue := [], credit := [], naks := 0 }) ∧
    (x.st = .disabled → exec (.lossOfSignal op) s = .next { s with dev := d }) ∧
    (x.st = .failed → x.failedAt + reg s.dev 0x4016 0x01 ≤ s.dev.frame.no →
      ∃ t, exec (.portRetry op) s = .next t ∧ raised t ∧
        port t.dev op.port = { x with st := .training, fails := 0, fast := x.saved, phy := false, hello := none }) ∧
    (x.st = .up → x.queue = [] → reg s.dev 0x4016 0x02 ≤ x.fec →
      ∃ t, exec (.fecRetrain op) s = .next t ∧ (port t.dev op.port).st = .retraining ∧ (port t.dev op.port).fec = 0 ∧
        (port t.dev op.port).fast = x.saved ∧ reg t.dev 0x4023 (op.port + 1) = reg s.dev 0x4023 (op.port + 1) + 1) ∧
    (x.fec < reg s.dev 0x4016 0x02 → exec (.fecRetrain op) s = .next { s with dev := d })) ∧
  (∀ (op : PortTrainOp) (s : State) (h : Hello), op.port < 16 → isManager s.dev = false →
    let d := atOff s.dev op.off
    let x := port s.dev op.port
    x.st = .training →
    (op.ok = true → portMode d op.port = 1 → x.hello = some (h, true) → helloFits d op.port h = true →
      ∃ t, exec (.portTrainingDone op) s = .next t ∧ (port t.dev op.port).st = .up ∧ (port t.dev op.port).saved = true ∧
        (port t.dev op.port).txSeq = 0 ∧ (port t.dev op.port).rxSeq = 0 ∧ (port t.dev op.port).fails = 0 ∧
        reg t.dev 0x4011 (op.port + 1) = 4) ∧
    (op.ok = false → x.fails + 1 < reg s.dev 0x4016 0x00 →
      ∃ t, exec (.portTrainingDone op) s = .next t ∧ port t.dev op.port = { x with fast := false, fails := x.fails + 1 } ∧
        t.dev.regs = s.dev.regs) ∧
    (op.ok = false → reg s.dev 0x4016 0x00 ≤ x.fails + 1 →
      ∃ t, exec (.portTrainingDone op) s = .next t ∧ reg t.dev 0x4011 (op.port + 1) = 6 ∧
        port t.dev op.port = { x with fast := false, fails := x.fails + 1, failedAt := s.dev.frame.no, st := .failed })) ∧
  (∀ (op : HelloOp) (s : State), op.port < 16 → isManager s.dev = false →
    let d := atOff s.dev op.off
    let x := port s.dev op.port
    x.st = .training → portMode d op.port = 1 →
    (x.phy = false → ∃ t, exec (.helloFlit op) s = .next t ∧
      port t.dev op.port = { x with hello := some (op.hello, op.authOk) } ∧ t.dev.regs = s.dev.regs) ∧
    (x.phy = true → op.authOk = true → helloFits d op.port op.hello = true →
      ∃ t, exec (.helloFlit op) s = .next t ∧ (port t.dev op.port).st = .up ∧ reg t.dev 0x4011 (op.port + 1) = 4) ∧
    (x.phy = true → op.authOk = false ∨ helloFits d op.port op.hello = false →
      ∃ t, exec (.helloFlit op) s = .next t ∧ (port t.dev op.port).st = .miswired ∧ reg t.dev 0x4011 (op.port + 1) = 3 ∧
        ((source s.dev (portSrc op.port 2)).st = .inactive → (source s.dev (portSrc op.port 2)).level ≠ 0 →
          (source t.dev (portSrc op.port 2)).st = .pending)))

/-- What the manager and the other devices hear (R267, R288, R290 to R293, R297, R317, R429). A failed module is remembered for the next
edge. A standby without TICK for MANAGER_TIMEOUT frames takes over at the next edge. A device out of reach for DEVICE_LOSS frames is lost,
counted. An EVENT with a device's STOP_CAUSE fills it into the loss entries; one that reports nothing changes nothing. A
SLOT_REPORT lets a decode task run again. MGMT brings the tables for a topology edge, a capture's edge, and system state for the
standby. -/
def Obligations.ManagerAndDevices : Prop :=
  (∀ (op : LinkOp) (s : State), op.link < 12 → exec (.ucieModuleFail op) s = .next { s with dev := { atOff s.dev op.off with
    lig := { s.dev.lig with moduleFails := s.dev.lig.moduleFails ++ [op.link] } } }) ∧
  (∀ (op : AtOp) (s : State),
    let d := atOff s.dev op.off
    (isManager s.dev = false → reg s.dev 0x4002 0x01 = ownDevice s.dev → ownDevice s.dev ≠ 0xFFFFFFFF →
      s.dev.lig.lastTick + reg s.dev 0x4002 0x02 ≤ s.dev.frame.no →
      exec (.managerTimeout op) s = .next { s with dev := { d with lig := { s.dev.lig with takeover := true } } }) ∧
    (isManager s.dev = true → exec (.managerTimeout op) s = .next { s with dev := d })) ∧
  (∀ (op : DeviceOp) (s : State),
    let d := atOff s.dev op.off
    let since := s.dev.lig.unreach.get 0 op.device
    (isManager s.dev = true → since ≠ 0 → since + reg s.dev 0x6040 0x02 ≤ s.dev.frame.no + 1 → op.device ∉ s.dev.lig.lost →
      op.device ≠ ownDevice s.dev → (∃ e, (op.device, e) ∈ s.dev.lig.joined) →
      (∀ a ∈ s.dev.lig.sets, ∀ m ∈ a.members, m.device ≠ op.device) → s.dev.pow.stage ≠ .gasp →
      ∃ t e, exec (.deviceLossTimeout op) s = .next t ∧ t.dev.lig.lost = s.dev.lig.lost ++ [op.device] ∧
        t.dev.lig.joined = s.dev.lig.joined.filter (fun x => x.1 != op.device) ∧
        reg t.dev 0x6048 0x07 = reg s.dev 0x6048 0x07 + 1 ∧
        t.dev.ash.main = s.dev.ash.main.set 0 (s.dev.ash.next % 516096) e ∧ field e 0 8 = 0x20 ∧
        field e 128 32 = op.device % 2 ^ 32 ∧ field e 160 8 = 0) ∧
    (since = 0 → exec (.deviceLossTimeout op) s = .next { s with dev := d })) ∧
  (∀ (op : EventOp) (s : State), op.port < 16 →
    let d := atOff s.dev op.off
    arrives d op.port 0x03 op.msg → isManager s.dev = true →
    (∀ dev cause, op.report = .started dev cause → exec (.event op) s = .next { s with dev := { d with
      ash := { s.dev.ash with main := s.dev.ash.main.mapVals 0 (fun e =>
        if field e 0 8 = 0x20 ∧ field e 128 32 = dev ∧ field e 160 8 = 0 then setField e 160 8 cause else e) } } }) ∧
    (op.report = .other → exec (.event op) s = .next { s with dev := d })) ∧
  (∀ (op : SlotReportOp) (s : State) (x : SentSlot) (rest : List SentSlot), op.port < 16 →
    let d := atOff s.dev op.off
    arrives d op.port 0x04 op.msg → op.slots = [(x.addr, x.stamp)] → s.dev.lig.sent = x :: rest →
    (∀ y ∈ rest, ¬(y.addr = x.addr ∧ y.stamp = x.stamp)) → x.tries + 1 ≤ reg s.dev 0x4017 0x01 → x.task.cls = .decode →
    ∃ t, exec (.slotReport op) s = .next t ∧
      t.dev.lig.sent = { x with tries := x.tries + 1, keep := s.dev.frame.no + 2 } :: rest ∧
      t.dev.frame.retry = s.dev.frame.retry ++ x.task.seqs ∧ t.dev.gen = s.dev.gen ∧ t.dev.mem = s.dev.mem) ∧
  (∀ (op : MgmtOp) (s : State), op.port < 16 →
    let d := atOff s.dev op.off
    arrives d op.port 0x02 op.msg →
    (∀ t, op.control = .tables t → ownDevice s.dev ≠ 0xFFFFFFFF →
      exec (.mgmt op) s = .next { s with dev := { setReg (setReg d 0x4001 0x00 t.number) 0x4006 0x00 t.edge with
        lig := { s.dev.lig with tablesNext := some t } } }) ∧
    (∀ a n e b, op.control = .snapOrder a n e b → a < 8 →
      ∃ t, exec (.mgmt op) s = .next t ∧ snapOf t.dev a = { snapOf s.dev a with order := some e, boosted := b, number := n } ∧
        { t.dev with snap := s.dev.snap, frame := s.dev.frame } = s.dev) ∧
    (∀ m j l, op.control = .standby m j l → isManager s.dev = false →
      exec (.mgmt op) s = .next { s with dev := { d with
        lig := { s.dev.lig with map := m, joined := j, sets := l }, out := .standbyAck :: s.dev.out } }))

/-! ## Security (R341 to R383) -/

/-- Key commands (R355, R356, R358, R359, R361, R362). Without an identity, or after a maker unlock, every one is refused and counted; a
worker forwards it. On the manager KEY_SET of an enrolled tenant with its code loads generation 1 into a free key slot, a wrong
code or a tenant that has a key is refused; with the tenant's PROOF, KEY_ROTATE makes the key the previous generation,
KEY_RETIRE marks that generation, KEY_REVOKE makes the slot REVOKING, ROSTER is answered; without it PROOF_FAILED is. The record goes
wrapped to the other devices, to the standby first where there is one.
KEY_ROTATE_FRAMES after a rotation the previous generation is marked for retirement. -/
def Obligations.KeyCommands : Prop :=
  (∀ (op : KeyOp) (s : State),
    let d := atOff s.dev op.off
    let t := op.tenant
    let shows := fun (r : Host.Outcome State Fault Refusal) (a : KeyAnswer) =>
      r = .next { s with dev := { bump d 0x8160 0x01 1 with out := .keyAnswer t a :: s.dev.out } }
    let told := fun (d' : Dev) (x : Out) =>
      (hasStandby d = false → d'.out = .keyAnswer t .ok :: x :: s.dev.out ∧ d'.held = s.dev.held) ∧
      (hasStandby d = true → d'.held = s.dev.held ++ [(false, [x])])
    ((s.dev.sec.idOk = false ∨ bit (reg s.dev 0x8100 0x00) 8 = true) →
      shows (exec (.keySet op) s) .refused ∧ shows (exec (.keyRotate op) s) .refused ∧ shows (exec (.keyRetire op) s) .refused ∧
      shows (exec (.keyRevoke op) s) .refused ∧ shows (exec (.roster op) s) .refused) ∧
    (s.dev.sec.idOk = true → bit (reg s.dev 0x8100 0x00) 8 = false →
      (isManager s.dev = false →
        let forwarded := fun c => { s with dev := { d with out := .keyForward c op :: s.dev.out } }
        exec (.keySet op) s = .next (forwarded .set) ∧ exec (.keyRotate op) s = .next (forwarded .rotate) ∧
        exec (.keyRetire op) s = .next (forwarded .retire) ∧ exec (.keyRevoke op) s = .next (forwarded .revoke) ∧
        exec (.roster op) s = .next (forwarded .roster)) ∧
      (isManager s.dev = true →
        (tenantRec d t = none → shows (exec (.keySet op) s) .enrolRefused) ∧
        (∀ r, tenantRec d t = some r →
          (r.keyed = true → shows (exec (.keySet op) s) .keyExists) ∧
          (r.keyed = false → r.revoked = false → r.code ≠ op.code → shows (exec (.keySet op) s) .enrolRefused) ∧
          (r.keyed = false → r.revoked = false → r.code = op.code → tenantSlot d t = none → (∃ k < 4096, (keySlot d k).st = 0) →
            ∃ t', exec (.keySet op) s = .next t' ∧ told t'.dev (.keyRecord t (wrapRecord t'.dev (keySlot t'.dev (freeSlot d)))) ∧
              (let x := keySlot t'.dev (freeSlot d)
               x.tenant = t ∧ x.st = 1 ∧ x.genCur = 1 ∧ x.genPrev = none ∧ x.trkCur = op.trk ∧ x.tdk.length = 32) ∧
              tenantRec t'.dev t = some { r with keyed := true } ∧ t'.dev.mem = s.dev.mem ∧ t'.dev.gen = s.dev.gen)) ∧
        (slotOfTenant d t = none → shows (exec (.keyRotate op) s) .proofFailed ∧ shows (exec (.keyRetire op) s) .proofFailed ∧
          shows (exec (.keyRevoke op) s) .proofFailed ∧ shows (exec (.roster op) s) .proofFailed) ∧
        (∀ k, slotOfTenant d t = some k →
          let x := keySlot d k
          (proofOk x (asciiOf "KEY_ROTATE") op = true →
            (x.genPrev = none → ∃ t', exec (.keyRotate op) s = .next t' ∧ keySlot t'.dev k = { x with
              st := 2, genPrev := some x.genCur, trkPrev := x.trkCur, genCur := x.genCur + 1, trkCur := op.trk
              rotated := s.dev.frame.no, retire := false } ∧
              told t'.dev (.keyRecord t (wrapRecord t'.dev (keySlot t'.dev k))) ∧ t'.dev.mem = s.dev.mem) ∧
            (x.genPrev ≠ none → shows (exec (.keyRotate op) s) .keyBusy)) ∧
          (proofOk x (asciiOf "KEY_ROTATE") op = false → shows (exec (.keyRotate op) s) .proofFailed) ∧
          (proofOk x (asciiOf "KEY_RETIRE") op = true → x.genPrev ≠ none →
            ∃ t', exec (.keyRetire op) s = .next t' ∧ told t'.dev (.keyRetire t) ∧
              { t'.dev with out := s.dev.out, held := s.dev.held } = { d with keys := s.dev.keys.set keyIdle k { x with retire := true } }) ∧
          (proofOk x (asciiOf "KEY_REVOKE") op = true → tenantSlot d t = some k → x.st = 1 ∨ x.st = 2 →
            ∃ t', exec (.keyRevoke op) s = .next t' ∧ keySlot t'.dev k = { x with st := 3, edgeW := none } ∧
              told t'.dev (.keyRevoke t) ∧
              (∀ r, tenantRec d t = some r → tenantRec t'.dev t = some { r with revoked := true }) ∧ t'.dev.mem = s.dev.mem) ∧
          (proofOk x (asciiOf "ROSTER") op = true →
            exec (.roster op) s = .next { s with dev := { d with
              out := .keyAnswer t (.roster (rosterList s.nv s.dev)) :: s.dev.out } }))))) ∧
  (∀ (op : KeySlotOp) (s : State), op.slot < 4096 →
    let d := atOff s.dev op.off
    let x := keySlot d op.slot
    (x.genPrev ≠ none → x.rotated + reg s.dev 0x8003 0x00 ≤ s.dev.frame.no →
      exec (.keyRotateExpiry op) s = .next { s with dev := { d with keys := s.dev.keys.set keyIdle op.slot { x with retire := true } } }) ∧
    ((x.genPrev = none ∨ s.dev.frame.no < x.rotated + reg s.dev 0x8003 0x00) →
      exec (.keyRotateExpiry op) s = .next { s with dev := d }))

/-- Device interfaces (R373, R374) of VF1 to VF8: TDISP questions are answered with the versions, the capabilities, the rings and
measurement of the VF, its state. LOCK_INTERFACE takes CONFIG_UNLOCKED to CONFIG_LOCKED, START_INTERFACE CONFIG_LOCKED to
RUN, STOP_INTERFACE any state back; elsewhere the answer is an error. A function level reset, an IDE integrity failure and a
change of the VF's configuration take RUN to ERROR, and raise it. IDE keys need an SPDM session on the DOE mailbox. -/
def Obligations.DeviceInterfaces : Prop :=
  (∀ (op : VfOp) (s : State), 1 ≤ op.vf → op.vf ≤ 8 →
    let d := atOff s.dev op.off
    let shows := fun (r : Host.Outcome State Fault Refusal) (a : TdispResp) =>
      r = .next { s with dev := { d with out := .tdisp op.vf a :: s.dev.out } }
    let goes := fun (r : Host.Outcome State Fault Refusal) (st : Nat) =>
      r = .next { s with dev := { setReg d 0x8010 op.vf st with out := .tdisp op.vf .ok :: s.dev.out } }
    let errs := fun (r : Host.Outcome State Fault Refusal) =>
      (tdi d op.vf = 2 → ∃ t, r = .next t ∧ tdi t.dev op.vf = 3 ∧
        ((source s.dev 1186).st = .inactive → (source s.dev 1186).level ≠ 0 → (source t.dev 1186).st = .pending ∧
          (source t.dev 1186).arg = op.vf) ∧
        { t.dev with regs := s.dev.regs, ev := s.dev.ev, frame := s.dev.frame } = s.dev) ∧
      (tdi d op.vf ≠ 2 → r = .next { s with dev := d })
    shows (exec (.getVersion op) s) .version ∧ shows (exec (.getCapabilities op) s) .capabilities ∧
    shows (exec (.getDeviceInterfaceReport op) s) (.report (vfRings d op.vf) (0x0F + op.vf)) ∧
    shows (exec (.getDeviceInterfaceState op) s) (.state (tdi d op.vf)) ∧
    (tdi d op.vf = 0 → goes (exec (.lockInterface op) s) 1) ∧ (tdi d op.vf ≠ 0 → shows (exec (.lockInterface op) s) .error) ∧
    (tdi d op.vf = 1 → goes (exec (.startInterface op) s) 2) ∧ (tdi d op.vf ≠ 1 → shows (exec (.startInterface op) s) .error) ∧
    goes (exec (.stopInterface op) s) 0 ∧
    errs (exec (.functionLevelReset op) s) ∧ errs (exec (.ideIntegrityFailure op) s) ∧ errs (exec (.vfConfigurationChange op) s)) ∧
  (∀ (op : IdeOp) (s : State), 1 ≤ op.vf → op.vf ≤ 8 →
    let d := atOff s.dev op.off
    ((∃ x ∈ s.dev.sec.spdm, x.id = op.session ∧ x.transport = 0) →
      exec (.ideKm op) s = .next { s with dev := { d with sec := { s.dev.sec with ide := s.dev.sec.ide.filter (· ≠ op.vf) ++ [op.vf] } } }) ∧
    ((∀ x ∈ s.dev.sec.spdm, ¬(x.id = op.session ∧ x.transport = 0)) → exec (.ideKm op) s = .next { s with dev := d }))

/-- SPDM (R344, R350, R352): the versions are 1.2 and 1.3; a device with its identity gives the measurement of an index it has, and an
error for one it has not; the manager's roster holds exactly the numbered devices, in ascending order; KEY_EXCHANGE opens a session of a new number and END_SESSION closes it; without its identity the
device answers no attestation. SCRUB_COMPLETE (R367, R369): a frame of nobody's is given to its owner, reads zero, with its page version one
up, counted; a tree line that failed is remembered, counted and raised. -/
def Obligations.AttestationAndScrub : Prop :=
  (∀ (n : Nv) (d : Dev), ((rosterList n d).map (·.1)).Pairwise (· ≤ ·) ∧
    (∀ v, (∃ x ∈ rosterList n d, x.1 = v) ↔ ∃ y ∈ d.lig.joined, y.1 = v) ∧
    (∀ x ∈ rosterList n d, x.2.1 = identityOf d.lig.map x.1 ∧
      x.2.2 = if x.1 = ownDevice d then imageBlock n else d.lig.images.get [] x.1)) ∧
  (∀ (op : SpdmOp) (s : State), op.transport < 4 →
    let d := atOff s.dev op.off
    let shows := fun (a : SpdmResp) => exec (.spdmRequest op) s = .next { s with dev := { d with out := .spdm op.transport a :: s.dev.out } }
    (op.req = .getVersion → shows (.version [12, 13])) ∧
    (∀ k, op.req = .getMeasurements k → s.dev.sec.idOk = true →
      (∀ v, measurement s.nv d k = some v → shows (.measurement k v)) ∧ (measurement s.nv d k = none → shows .error)) ∧
    ((∃ k, op.req = .getMeasurements k) ∨ op.req = .keyExchange ∨ op.req = .getCertificate → s.dev.sec.idOk = false →
      exec (.spdmRequest op) s = .next { s with dev := d }) ∧
    (op.req = .keyExchange → s.dev.sec.idOk = true →
      exec (.spdmRequest op) s = .next { s with dev := { d with
        sec := { s.dev.sec with
          spdm := s.dev.sec.spdm ++ [⟨s.dev.sec.nextSpdm, op.transport, false⟩], nextSpdm := s.dev.sec.nextSpdm + 1 }
        out := .spdm op.transport (.keyExchange s.dev.sec.nextSpdm) :: s.dev.out } }) ∧
    (∀ k, op.req = .endSession k → exec (.spdmRequest op) s = .next { s with dev := { d with
      sec := { s.dev.sec with spdm := s.dev.sec.spdm.filter (fun x => x.id != k) }
      out := .spdm op.transport (.ended k) :: s.dev.out } })) ∧
  (∀ (op : ScrubOp) (s : State),
    let d := atOff s.dev op.off
    (op.failed = none → s.dev.mem.frameOwner.get 0 op.pfn = 0 → op.owner ≠ 0 → treeFailed d op.pfn = false →
      frameUsable d op.pfn = true →
      ∃ t, exec (.scrubComplete op) s = .next t ∧ t.dev.mem.frameOwner = s.dev.mem.frameOwner.set 0 op.pfn op.owner ∧
        (∀ a, t.dev.mem.ddr.get 0 a = if a / frameSize = op.pfn then 0 else s.dev.mem.ddr.get 0 a) ∧
        t.dev.mem.pageVersion = s.dev.mem.pageVersion.set 0 op.pfn ((s.dev.mem.pageVersion.get 0 op.pfn + 1) % 2 ^ 56) ∧
        reg t.dev 0x8160 0x00 = reg s.dev 0x8160 0x00 + 1 ∧
        t.dev.gen = s.dev.gen ∧ t.dev.mem.well = s.dev.mem.well ∧ t.dev.mem.ink = s.dev.mem.ink) ∧
    (∀ lo hi, op.failed = some (lo, hi) → s.dev.mem.frameOwner.get 0 op.pfn ≠ 0 →
      ∃ t, exec (.scrubComplete op) s = .next t ∧ t.dev.mem = { s.dev.mem with treeBad := s.dev.mem.treeBad ++ [(lo, hi)] } ∧
        reg t.dev 0x8160 0x02 = reg s.dev 0x8160 0x02 + 1 ∧
        ((source s.dev 5).st = .inactive → (source s.dev 5).level ≠ 0 → (source t.dev 5).st = .pending)))
/-! ## Sessions and the dictionary (R385 to R411) -/

/-- Openings and closes (R389 to R393). OPEN is answered with ACCEPT: a fresh nonce and public key, for a password its salt
and iterations, and the device's signature over both bodies; TH and the two keys follow from them. A right PROOF (the HMAC of TH under
the role's verifier, or TH signed under a key of the role's) makes a session with those keys and the next SESSION_ID, counted, audited and
answered with RESULT; one with a wrong method, signature or HMAC is refused with 0x30, a
password opening of a locked role with 0x31, one more than SESSION_MAX with 0x32; at AUTH_LIMIT failed password proofs in a row
the role is locked for AUTH_BACKOFF frames, and each further failure after that lock doubles the span, up to 2^16 times; a successful
opening starts the count anew (R392). A record without an opening, or with a wrong seal, is dropped and counted (R394). A session
idle for SESSION_IDLE frames closes; a lock ends with its span. -/
def Obligations.SessionsOpenAndClose : Prop :=
  (∀ (op : OpenOp) (s : State), dictUp s.dev = true → transportOn s.dev op.transport = true →
    let own := Config.freeNat (s.dev.fresh + 1)
    let body1 := [BitVec.ofNat 8 (roleCode op.role), if op.password then 1 else 2] ++ leBytes 32 op.nonce ++ leBytes 97 op.pub
    let clear := leBytes 32 (Config.freeNat s.dev.fresh) ++ leBytes 97 own ++
      (if op.password then ((credential s.nv op.role).getD []).take 32 ++ leBytes 4 100000 else [])
    let body2 := clear ++ Config.identitySign (Config.sha512 (body1 ++ clear))
    let th := Config.sha512 (body1 ++ body2)
    let keys := Config.hmac512 (Config.ecdh own (leBytes 97 op.pub)) (asciiOf "EPELL-SK" ++ th)
    exec (.openSession op) s = .next { s with dev := { s.dev with
      fresh := s.dev.fresh + 2
      epell := { s.dev.epell with openings := s.dev.epell.openings.filter (fun x => x.nonceC != op.nonce) ++
        [⟨op.transport, op.role, op.password, op.nonce, th, keys.take 32, keys.drop 32⟩] }
      out := .record op.transport ⟨recordHeader 2 0 0, [], [], body2⟩ :: s.dev.out } }) ∧
  (∀ (op : ProofOp) (s : State), dictUp s.dev = true → transportOn s.dev op.transport = true →
    let found := s.dev.epell.openings.find? (fun o => o.transport == op.transport && o.nonceC == op.nonce)
    let full := reg s.dev 0x8201 0x00 ≤ s.dev.epell.sessions.length
    let refuses := fun (o : Opening) (st : Nat) =>
      ∃ t, exec (.proof op) s = .next t ∧ t.dev.out = resultOut o 0 st :: s.dev.out ∧
        t.dev.epell.sessions = s.dev.epell.sessions ∧ t.dev.epell.openings = s.dev.epell.openings.filter (fun x => x != o) ∧
        t.nv = s.nv ∧ t.dev.mem = s.dev.mem ∧
        reg t.dev 0x8220 0x00 = reg s.dev 0x8220 0x00 + (if st = stSessionRefused then 1 else 0) ∧
        (s.dev.pow.stage ≠ .gasp → t.dev.ash.next = s.dev.ash.next + 1)
    (found = none → exec (.proof op) s = .next { s with dev := bump s.dev 0x8220 0x02 1 }) ∧
    (∀ o, found = some o →
      (op.key ≠ o.keyIn → exec (.proof op) s = .next { s with dev := bump s.dev 0x8220 0x02 1 }) ∧
      (op.key = o.keyIn → full → refuses o stSessionFull) ∧
      (op.key = o.keyIn → ¬full → o.password = true → locked s.dev o.role = true → refuses o stSessionLocked) ∧
      (op.key = o.keyIn → ¬full → ¬(o.password = true ∧ locked s.dev o.role = true) →
        (proofHolds s.nv o op.body = false → refuses o stSessionRefused ∧
          (o.password = true → o.role ≠ .maker → ∃ t, exec (.proof op) s = .next t ∧
            (let l := lockOf s.dev o.role
             let again := l.ended = true ∨ l.until_ ≠ none
             let k := min 16 (l.doublings + 1)
             (again → lockOf t.dev o.role =
               { l with doublings := k, until_ := some (s.dev.frame.no + 2 ^ k * reg s.dev 0x8204 0x01), ended := true }) ∧
             (¬again → l.failures + 1 < reg s.dev 0x8204 0x00 → lockOf t.dev o.role = { l with failures := l.failures + 1 }) ∧
             (¬again → reg s.dev 0x8204 0x00 ≤ l.failures + 1 → lockOf t.dev o.role =
               { l with failures := l.failures + 1, until_ := some (s.dev.frame.no + reg s.dev 0x8204 0x01) })))) ∧
        (proofHolds s.nv o op.body = true →
          ∃ t, exec (.proof op) s = .next t ∧ t.dev.out = resultOut o s.dev.epell.nextId 0 :: s.dev.out ∧
            t.dev.epell.sessions = s.dev.epell.sessions ++ [{
              id := s.dev.epell.nextId, role := o.role, transport := o.transport,
              label := decide (o.role = .installer) && o.password && s.nv.installerLabel,
              openFrame := s.dev.frame.no, lastFrame := s.dev.frame.no, seqIn := 0, seqOut := 0, keyIn := o.keyIn, keyOut := o.keyOut, subscribed := false,
              staged := none, latch := none }] ∧
            lockOf t.dev o.role = lockIdle ∧ lockIdle.failures = 0 ∧ lockIdle.doublings = 0 ∧ lockIdle.ended = false ∧
            lockIdle.until_ = none ∧ t.dev.epell.nextId = s.dev.epell.nextId + 1 ∧ reg t.dev 0x8220 0x01 = reg s.dev 0x8220 0x01 + 1 ∧
            t.nv = s.nv ∧ t.dev.mem = s.dev.mem)))) ∧
  (∀ (n : Nv) (o : Opening) (mac : List Byte), proofHolds n o (.password mac) = true ↔
    o.password = true ∧ ∃ c, credential n o.role = some c ∧ mac = Config.hmac512 (c.drop 32) (asciiOf "EPELL-PW" ++ o.th)) ∧
  (∀ (n : Nv) (o : Opening) (i : Nat) (signer signed : List Byte) (cert : Option (List Byte)),
    proofHolds n o (.key i signer signed cert) = true ↔ o.password = false ∧ signed = asciiOf "EPELL-KEY" ++ o.th ∧
      (o.role = .maker → cert = some signer) ∧ (o.role ≠ .maker → roleKey n o.role i = some signer)) ∧
  (∀ (d : Dev) (r : Role), locked d r = true ↔ ∃ f, (lockOf d r).until_ = some f ∧ d.frame.no < f) ∧
  (∀ (op : SessionOp) (s : State) (x : Session), s.dev.epell.sessions.find? (fun y => y.id == op.ses) = some x →
    (x.lastFrame + reg s.dev 0x8201 0x01 ≤ s.dev.frame.no → exec (.sessionIdleExpiry op) s = .next { s with dev := closeSession s.dev x }) ∧
    (s.dev.frame.no < x.lastFrame + reg s.dev 0x8201 0x01 → exec (.sessionIdleExpiry op) s = .next s)) ∧
  (∀ (op : RoleOp) (s : State) (f : Nat), (lockOf s.dev op.role).until_ = some f →
    (f ≤ s.dev.frame.no → exec (.authLockExpiry op) s =
      .next { s with dev := setLock s.dev op.role { lockOf s.dev op.role with until_ := none, ended := true } }) ∧
    (s.dev.frame.no < f → exec (.authLockExpiry op) s = .next s)) ∧
  (∀ (d : Dev) (x : Session), d.pow.stage ≠ .gasp → ∃ e,
    closeSession d x = { d with
      ash := { d.ash with main := d.ash.main.set 0 (d.ash.next % 516096) e, next := d.ash.next + 1 }
      epell := { d.epell with
        sessions := d.epell.sessions.filter (fun y => y.id != x.id)
        notify := d.epell.notify.erase x.id
        notifyLost := d.epell.notifyLost.filter (· ≠ x.id) } } ∧ field e 0 8 = 0x13)

/-- Requests of a session (R394 to R400, R403 to R405). A READ of an entry at offset 0 is answered with its bytes, and latches them. A
WRITE that is not accepted is answered with its status and writes nothing; WRITE_MULTI with one item that is not answers the others
MULTI_ABORTED and writes none. A WRITE of SESSION_IDLE takes effect at once. A segment of a staged value at the right offset is kept,
at another is refused, and in the ash record if it is the last; the last one writes the value. A record longer than
its transport carries changes nothing (R401). SUBSCRIBE turns the operator's notices on and off; CLOSE is answered
and ends the session. A record in the mailbox's window is served as on any transport, and its answer raises the mailbox
vector (R401). With 64 unanswered requests a READ is answered BUSY. -/
def Obligations.RequestsServed : Prop :=
  (∀ (op : ItemsOp) (i : Item) (s : State) (x : Session) (e : Entry), letIn s.dev op.req x → op.items = [i] → carried s.dev op.req (.read op.items) = true →
    entryRow i.index i.sub = some e → accessStatus (heard s.dev op.req x) (noted s.dev op.req x) e i.sub false = stOk →
    i.typ = typeCode e.typ → i.offset = 0 →
    let v := entryValue s.nv (heard s.dev op.req x) e i.sub
    v.1 ≤ 2 ^ 20 →
    exec (.read op) s = .next { s with dev := (answer
      (putSession (heard s.dev op.req x) { noted s.dev op.req x with latch := some (entry i.index i.sub, valueBytes v 0 v.1) })
      x.id op.req.tag [(stOk, 0, (valueBytes v 0 v.1).take i.length)]) }) ∧
  (∀ (op : ItemsOp) (s : State) (x : Session), letIn s.dev { op.req with held := 0 } x → 64 ≤ op.req.held →
    carried s.dev op.req (.read op.items) = true →
    exec (.read op) s = .next { s with dev := (
      answer (heard s.dev op.req x) x.id op.req.tag (op.items.map (fun _ => (stBusy, 0, [])))) }) ∧
  (∀ (op : ItemOp) (s : State) (x : Session), letIn s.dev op.req x →
    let st := itemStatus s.nv (heard s.dev op.req x) (noted s.dev op.req x) [op.item] op.item
    let d := heard s.dev op.req x
    st ≠ stOk → carried s.dev op.req (.write [op.item]) = true →
    exec (.write op) s = .next { s with dev := (answer
      (auditItem (if st = stWiringRefused then setReg d 0x4003 0x01 2 else d) (noted s.dev op.req x) op.item st (oldBytes s.nv (heard s.dev op.req x) op.item) 0)
      x.id op.req.tag [(st, 0, [])]) }) ∧
  (∀ (op : ItemOp) (s : State) (v : Nat), op.item = numItem 0x8201 0x01 v →
    writesAs s op.req (.write op) op.item 0 (fun d => setReg d 0x8201 0x01 (v % 2 ^ 32))) ∧
  (∀ (op : ItemsOp) (i j : Item) (s : State) (x : Session), letIn s.dev op.req x → op.items = [i, j] →
    carried s.dev op.req (.write op.items) = true →
    let st := fun (k : Item) => itemStatus s.nv (heard s.dev op.req x) (noted s.dev op.req x) [i, j] k
    (st i ≠ stOk → st i ≠ stWiringRefused → st j = stOk →
      ∃ t, exec (.writeMulti op) s = .next t ∧ t.nv = s.nv ∧ t.dev.regs = s.dev.regs ∧ t.dev.mem = s.dev.mem ∧
        t.dev.waiting = s.dev.waiting ∧ t.dev.out = sesAnswer x op.req.tag [(st i, 0, []), (stMultiAborted, 0, [])] :: s.dev.out)) ∧
  (∀ (op : ItemsOp) (s : State) (x : Session) (u v : Nat), letIn s.dev op.req x →
    op.items = [numItem 0x8201 0x01 u, numItem 0x8204 0x00 v] → u < 2 ^ 32 → v < 2 ^ 8 →
    (∀ i ∈ op.items, itemStatus s.nv (heard s.dev op.req x) (noted s.dev op.req x) op.items i = stOk) →
    ∃ t, exec (.writeMulti op) s = .next t ∧ t.nv = s.nv ∧ t.dev.mem = s.dev.mem ∧
      t.dev.regs = (setReg (setReg s.dev 0x8201 0x01 u) 0x8204 0x00 v).regs ∧
      t.dev.out = sesAnswer x op.req.tag [(stOk, 0, []), (stOk, 0, [])] :: s.dev.out) ∧
  (∀ (op : StagedOp) (s : State) (x : Session), letIn s.dev op.req x → carried s.dev op.req (.staged op.item op.last) = true →
    (op.last = false → op.item.offset = 0 → exec (.writeStaged op) s = .next { s with dev := (answer
      (putSession (heard s.dev op.req x) { noted s.dev op.req x with
        staged := some (entry op.item.index op.item.sub, op.item.data) })
      x.id op.req.tag [(stOk, 0, [])]) }) ∧
    (op.item.offset ≠ 0 → exec (.writeStaged op) s = .next { s with dev := (
      answer (if op.last then auditItem (heard s.dev op.req x) (noted s.dev op.req x) op.item stBadOffset
          (oldBytes s.nv (heard s.dev op.req x) op.item) 0 else heard s.dev op.req x) x.id op.req.tag [(stBadOffset, 0, [])]) })) ∧
  (∀ (op : ItemOp) (s : State), carried s.dev op.req (.write [op.item]) = false → exec (.write op) s = .next s) ∧
  (∀ (d : Dev) (x : Session) (req : Req) (a : Ask), sessionOf d req.ses = some x →
    (carried d req a = true ↔ requestLen a ≤ if x.transport = .ligature ∨ x.transport = .pcie then 4096 else 1232)) ∧
  (∀ (op : SesOp) (s : State) (x : Session), letIn s.dev op.req x →
    let sub := fun (b : Bool) => { s with dev := (
      answer (putSession (heard s.dev op.req x) { noted s.dev op.req x with subscribed := b }) x.id op.req.tag []) }
    (x.role = .operator → exec (.subscribeStart op) s = .next (sub true)) ∧
    exec (.subscribeStop op) s = .next (sub false) ∧
    exec (.closeSession op) s = .next { s with dev := (
      closeSession (answer (heard s.dev op.req x) x.id op.req.tag []) (noted s.dev op.req x)) } ∧
    (x.transport = .pcie →
      exec (.mailboxDoorbell ⟨.subscribe op false⟩) s = .next { s with dev := emit (sub false).dev .mailbox }))
/-- Counters that are cleared by writing ones (R387): each counter entry of a family is 0 after a write of its clear entry with the
counter's bit set, and stays as it was with the bit clear; nothing else of the registers changes, and nothing of the
memories. ASH_CLEAR (R433) bit 0 empties FIRST_FAULT and bit 1 clears the suppressed count. -/
def Obligations.CounterClears : Prop :=
  (∀ (op : EntryWrite) (s : State) (x : Session),
    let clears := fun (c : Instr) (index : Nat) => admits s op.req x (numItem index 0x00 op.value) →
      ∃ t, exec c s = .next t ∧ t.nv = s.nv ∧ t.dev.mem = s.dev.mem ∧ t.dev.gen = s.dev.gen ∧ t.dev.frame = s.dev.frame ∧
        (∀ ix sub, sub < 256 → reg t.dev ix sub =
          if (clearMap index).any (fun r => bit op.value r.1 && ix == r.2.1 && r.2.2.1 ≤ sub && sub < r.2.2.1 + r.2.2.2) then 0
          else reg s.dev ix sub) ∧
        t.dev.out = sesAnswer x op.req.tag [(stOk, 0, [])] :: s.dev.out
    clears (.counterClear op) 0x104F ∧ clears (.arrayCounterClear op) 0x204F ∧ clears (.xferCounterClear op) 0x205F ∧
    clears (.baseCounterClear op) 0x211F ∧ clears (.genCounterClear op) 0x303F ∧ clears (.variantCounterClear op) 0x313F ∧
    clears (.ligCounterClear op) 0x402F ∧ clears (.numCounterClear op) 0x504F ∧ clears (.trainCounterClear op) 0x601F ∧
    clears (.lateCounterClear op) 0x604F ∧ clears (.scribeCounterClear op) 0x605F ∧ clears (.eventCounterClear op) 0x700F ∧
    clears (.secCounterClear op) 0x816F ∧ clears (.sessionCounterClear op) 0x822F ∧ clears (.powerCounterClear op) 0x900F) ∧
  (∀ (op : EntryWrite) (s : State) (b : Nat), op.value = 4 * b → op.value < 2 ^ 32 →
    writesAs s op.req (.ashClearFirstFault op) (numItem 0xA006 0x00 (op.value + 1)) 0
      (fun d => { d with ash := { d.ash with firstFault := [] } }) ∧
    writesAs s op.req (.ashClearSuppressed op) (numItem 0xA006 0x00 (op.value + 2)) 0
      (fun d => { d with ash := { d.ash with suppressed := 0 } }))

/-- Writes that name their edge, and limits (R20, R22, R172, R381, R397, R413, R437). FRAME_PERIOD and the four fractions wait for the
edge sixteen frames on, in place of a value that waited before; a POWER_LIMIT that lowers the floor waits as long, another sets
the floor at once; DEBUG_POLICY and SOURCE_REG are in force from the next edge; FILL_PER_FRAME and the enables of a transport at
once, a transport that is disabled losing its sessions once the write is answered (R402). -/
def Obligations.SettingsTakeEffect : Prop :=
  (∀ (op : EntryWrite) (s : State),
    let waits := fun (index sub v : Nat) (d : Dev) => { d with
      waiting := d.waiting.filter (fun y => y.key != entry index sub) ++ [⟨entry index sub, v, s.dev.frame.no + 16⟩] }
    let later := fun (c : Instr) (index sub v : Nat) =>
      writesAs s op.req c (numItem index sub op.value) (s.dev.frame.no + 16) (waits index sub v)
    later (.framePeriod op) 0x1010 0x00 (op.value % 2 ^ 32) ∧ later (.decodeFraction op) 0x1011 0x01 (op.value % 2 ^ 16) ∧
    later (.trainingFraction op) 0x1011 0x02 (op.value % 2 ^ 16) ∧
    later (.housekeepingFraction op) 0x1011 0x03 (op.value % 2 ^ 16) ∧ later (.guardFraction op) 0x1011 0x04 (op.value % 2 ^ 16) ∧
    (floorOf s.dev.pow.calib (op.value % 2 ^ 32) < s.dev.pow.floor → later (.powerLimit op) 0x9001 0x00 (op.value % 2 ^ 32)) ∧
    (s.dev.pow.floor ≤ floorOf s.dev.pow.calib (op.value % 2 ^ 32) →
      writesAs s op.req (.powerLimit op) (numItem 0x9001 0x00 op.value) 0 (fun d => setFloor d (op.value % 2 ^ 32))) ∧
    writesAs s op.req (.debugPolicy op) (numItem 0x8100 0x00 op.value) (s.dev.frame.no + 1)
      (fun d => { d with sec := { d.sec with policyNext := some (op.value % 2 ^ 32) } }) ∧
    writesAs s op.req (.fillPerFrame op) (numItem 0x3103 0x00 op.value) 0 (fun d => setReg d 0x3103 0x00 (op.value % 2 ^ 16)) ∧
    (∀ x, admits s op.req x (numItem 0x8214 0x00 op.value) → exec (.mailboxEnable op) s = .next { s with dev := (
      sweepSessions (writeDone s (setReg (heard s.dev op.req x) 0x8214 0x00 (op.value % 2 ^ 8)) op.req x
        (numItem 0x8214 0x00 op.value) 0)) })) ∧
  (∀ (op : SubWrite) (s : State) (x : Session), admits s op.req x (numItem 0x8210 op.sub op.value) →
    exec (.t1sEnable op) s = .next { s with dev := (
      sweepSessions (writeDone s (setReg (heard s.dev op.req x) 0x8210 op.sub (op.value % 2 ^ 8)) op.req x
        (numItem 0x8210 op.sub op.value) 0)) }) ∧
  (∀ (op : ArrayWrite) (s : State) (r : BitVec 32), op.sub = 0 → sourceWrite s.dev op.elem (BitVec.ofNat 32 op.value) = some r →
    writesAs s op.req (.sourceReg op) (elemItem 0x7001 0x00 op.elem 4 [op.value]) (s.dev.frame.no + 1)
      (fun d => setSource d op.elem { source d op.elem with next := some r })) ∧
  (∀ (d : Dev) (x : Session), x ∈ (sweepSessions d).epell.sessions ↔ x ∈ d.epell.sessions ∧
    ∀ y ∈ d.epell.sessions, y.id = x.id → transportOn d y.transport = true)

/-- What the operator and the manager order for applications, variants and tenants (R168, R176, R193, R194, R224, R252, R262, R320 to
R336, R355, R362, R381, R382). Shares, quotas and reserves of consecutive key slots are written as elements; the
manager writes shares and quotas to the other devices of the application, once its standby, if it has one, holds them. WITHDRAW_VARIANT orders one
variant's withdrawal, WITHDRAW_TENANT those of a key slot. SNAP_NOW and RESTORE_NOW order a capture or a restore of every
application. BASE_ORDER begins an operation, with its number and generation, BASE_ABORT ends it ABANDONED, BASE_RETIRE lets its
old base go. DEBUG_HALT, STEP and RESUME name their edges; a view is kept for VIEW_RESULT; a tenant is enrolled or revoked. -/
def Obligations.ApplicationsOrdered : Prop :=
  (∀ (op : ShareWrite) (s : State), 1 ≤ op.sub → op.sub ≤ 8 →
    let shares := fun (c : Instr) (index w : Nat) (f : List (Nat × Nat) → Dev → Dev) =>
      writesAs s op.req c (elemItem index op.sub op.first w op.values) 0 (f (numbered op.first w op.values))
    let told := fun (index w : Nat) (d : Dev) => tellShares d (elemItem index op.sub op.first w op.values) w
    shares (.tokenShare op) 0x3020 2 (fun l d =>
      told 0x3020 2 { d with gen := { d.gen with tokenShare := setShares d.gen.tokenShare (op.sub - 1) l } }) ∧
    shares (.prefillShare op) 0x3021 4 (fun l d =>
      told 0x3021 4 { d with gen := { d.gen with prefillShare := setShares d.gen.prefillShare (op.sub - 1) l } }) ∧
    shares (.kvQuota op) 0x3022 4 (fun l d =>
      told 0x3022 4 { d with gen := { d.gen with kvQuota := setShares d.gen.kvQuota (op.sub - 1) l } }) ∧
    shares (.slotReserve op) 0x3120 2 (fun l d => { d with ink := { d.ink with reserve := setShares d.ink.reserve (op.sub - 1) l } }) ∧
    shares (.trainShare op) 0x6008 2 (fun l d =>
      told 0x6008 2 { d with train := { d.train with share := setShares d.train.share (op.sub - 1) l } })) ∧
  (∀ (d : Dev) (i : Item) (w : Nat),
    (isManager d = false → tellShares d i w = d) ∧
    (∀ x, isManager d = true →
      d.lig.sets.find? (fun s => s.members.any (fun m => m.device == ownDevice d && m.app + 1 == i.sub)) = some x →
      { tellShares d i w with out := d.out, held := d.held } = d ∧
      ∀ m ∈ x.members, m.device ≠ ownDevice d →
        let y := Out.shares m.device i.index (m.app + 1) (i.offset / w) ((elems i w).map (·.2))
        (hasStandby d = false → y ∈ (tellShares d i w).out) ∧
        (hasStandby d = true → ∃ l, y ∈ l ∧ (tellShares d i w).held = d.held ++ [(false, l)]))) ∧
  (∀ (op : EntryWrite) (s : State),
    let now_ := fun (c : Instr) (index sub : Nat) (f : Dev → Dev) => writesAs s op.req c (numItem index sub op.value) 0 f
    now_ (.withdrawVariant op) 0x3111 0x00 (fun d => orderWithdraw d (op.value % 2 ^ 32)) ∧
    now_ (.withdrawTenant op) 0x3112 0x00 (fun d => withdrawSlotVariants d (op.value % 2 ^ 16)) ∧
    (op.value = 1 →
      writesAs s op.req (.snapNow op) (numItem 0x6025 0x00 1) (s.dev.frame.no + 1)
        (fun d => forEach (liveBooks d) d (fun d x => orderSnap d x.1 (s.dev.frame.no + 1) false)) ∧
      now_ (.restoreNow op) 0x6025 0x01 (fun d => forEach (liveBooks d) d (fun d x => orderRestore d x.1))) ∧
    (∀ a, appOfOp s.dev (op.value % 2 ^ 16) = some a →
      now_ (.baseAbort op) 0x2100 0x01 (fun d => abandonAll d a) ∧
      now_ (.baseRetire op) 0x2100 0x02 (fun d => tellOthers (setBase d a { baseOf d a with phase := 6 }) a (.baseRetire a))) ∧
    (∀ a, op.value = a → a < 8 →
      let e := s.dev.frame.no + 16
      let h := match (baseOf s.dev a).switchAt with | some z => max e (z + 2) | none => e
      writesAs s op.req (.debugHalt op) (numItem 0x8100 0x01 op.value) h
        (fun d => tellOthers (setHalt d a { haltOf d a with at_ := some h }) a (.haltAt a h)) ∧
      writesAs s op.req (.debugResume op) (numItem 0x8100 0x03 op.value) e
        (fun d => tellOthers (setHalt d a { haltOf d a with resume := some e, steps := none }) a (.runAt a e none))) ∧
    (∀ a k, op.value = a + 8 * k → a < 8 → op.value < 2 ^ 32 →
      let e := s.dev.frame.no + 16
      writesAs s op.req (.debugStep op) (numItem 0x8100 0x02 op.value) e
        (fun d => tellOthers (setHalt d a { haltOf d a with resume := some e, steps := some k }) a (.runAt a e (some k)))) ∧
    now_ (.tenantRemove op) 0x8002 0x01 (fun d => revokeTenant d (op.value % 2 ^ 16))) ∧
  (∀ (op : BaseOrderOp) (s : State),
    let a := orderApp op.order
    let gen := (heldGen s.dev (orderBase op.order) + 1) % 65536
    writesAs s op.req (.baseOrder op) (byteItem 0x2100 0x00 (leBytes 128 op.order.toNat) ⟨true, 0⟩ .raw) 0 (fun d =>
      tellBase (setBase { d with nextOp := d.nextOp + 1, baseGens := d.baseGens.set 0 (orderBase op.order) gen } a
        { baseIdle with phase := 1, opId := d.nextOp, order := op.order, newGen := gen }) a (.baseOrder d.nextOp gen op.order))) ∧
  (∀ (op : TenantOp) (s : State), op.tenant < 2 ^ 16 → op.code < 2 ^ 32 →
    writesAs s op.req (.tenantAdd op) (byteItem 0x8002 0x00 (leBytes 2 op.tenant ++ leBytes 4 op.code) ⟨true, 0⟩ .raw) 0
      (fun d => putTenant d { id := op.tenant, code := op.code, keyed := false, revoked := false })) ∧
  (∀ (op : ViewOp) (s : State) (r : List Byte), viewResult s.dev op.view = some r →
    writesAs s op.req (.viewRequest op) (byteItem 0x8110 0x00 op.data ⟨true, 0⟩ (.view op.view)) 0
      (fun d => { d with sec := { d.sec with view := r } }))

/-- What the installer and the maker order for the device (R88, R271, R290, R296 to R298, R383, R389, R393, R402, R411, R446, R452, R453,
R460). RESET_ORDER of a scope waits for the next cut-off, or is counted as ignored where a reset of the same or a larger scope
stands; an order for the device sets the STOP_CAUSE, and a manager with route tables changes its topology (log entry 136). PORT_RETRAIN retrains or waits for an edge; PORT_MODE changes what a port carries;
RETRAIN_CHANNEL starts on a die group. DAMPER_RESET makes streams cold. A wiring map is taken. Signed records are kept, the key
list's version never falling; a maker unlock destroys keys and identity, raises counter 2 and closes every session;
INSTALLER_RESET brings the label password back; SESSION_CLOSE closes one session, or all others. -/
def Obligations.DeviceOrders : Prop :=
  (∀ (op : EntryWrite) (s : State) (p c h : Nat), p < 8 → c < 4 → h ≤ 8 → op.value = 8 * p + 64 * c + 256 * h →
    let orders := fun (i : Instr) (low : Nat) (sc : Scope) =>
      let w := numItem 0x9009 0x00 (op.value + low)
      let stops := fun (d : Dev) => match sc with | .warm => stopFor d 2 | .cold => stopFor d 2 | _ => d
      ((∃ r ∈ s.dev.pow.resets, covers r.scope sc = true) → writesAs s op.req i w 0 (fun d => bump (stops d) 0x9009 0x01 1)) ∧
      ((∀ r ∈ s.dev.pow.resets, covers r.scope sc = false) → writesAs s op.req i w 0 (fun d =>
        let d := stops d
        let d := { d with pow := { d.pow with resets := d.pow.resets ++ [⟨sc, .ordered false, false⟩] } }
        if (sc = .warm ∨ sc = .cold) ∧ isManager d = true ∧ d.lig.tables.isSome = true then changeTopology d else d))
    orders (.resetHearth op) 0 (.hearth (9 * (4 * p + c) + h)) ∧ orders (.resetCluster op) 1 (.cluster (4 * p + c)) ∧
    orders (.resetPartition op) 2 (.partition p) ∧ orders (.resetDeviceWarm op) 3 .warm ∧ orders (.resetDeviceCold op) 7 .cold) ∧
  (∀ (op : SubWrite) (s : State), 1 ≤ op.sub → op.sub ≤ 16 →
    let p := op.sub - 1
    writesAs s op.req (.portRetrainFast op) (numItem 0x4015 op.sub 1) 0 (fun d => retrainPort d p true) ∧
    writesAs s op.req (.portRetrainFull op) (numItem 0x4015 op.sub 2) 0 (fun d => retrainPort d p false) ∧
    writesAs s op.req (.portRetrainPlanned op) (numItem 0x4015 op.sub 3) 0
      (fun d => setPort d p { port d p with leaving := true }) ∧
    writesAs s op.req (.portMode op) (numItem 0x4010 op.sub op.value) 0 (fun d => changeMode d p (op.value % 2 ^ 8))) ∧
  (∀ (op : EntryWrite) (s : State),
    let now_ := fun (c : Instr) (index sub : Nat) (f : Dev → Dev) => writesAs s op.req c (numItem index sub op.value) 0 f
    let g := op.value / 4
    (op.value < 32 → groupUsed s.dev g ≤ freeElsewhere s.dev g → g ∉ s.dev.pow.retraining →
      now_ (.retrainChannel op) 0x900D 0x00 (fun d =>
        let d := forEach (groupChannels g) d (fun d k => if channelState d k = 1 then setChannel d 3 k else d)
        { d with pow := { d.pow with retraining := d.pow.retraining ++ [g] } })) ∧
    (op.value < 32 → groupUsed s.dev g ≤ freeElsewhere s.dev g → g ∈ s.dev.pow.retraining →
      now_ (.retrainChannel op) 0x900D 0x00 id) ∧
    (op.value < 2 ^ 16 → now_ (.damperReset op) 0x5018 0x00 (fun d =>
      forEach (((List.range 8).filter (fun p => bit op.value p)).flatMap (streamsOf d)) d turnCold)) ∧
    (∀ x, admits s op.req x (numItem 0x8205 0x00 op.value) →
      let d := writeDone s (heard s.dev op.req x) op.req x (numItem 0x8205 0x00 op.value) 0
      let n := op.value % 2 ^ 32
      exec (.sessionClose op) s = .next { s with dev := (
        forEach (d.epell.sessions.filter (fun y => if n = 0 then y.id != x.id else y.id == n)) d closeSession) }) ∧
    (∀ x, admits s op.req x (numItem 0xF003 0x00 op.value) →
      ∃ t, exec (.makerUnlock op) s = .next t ∧ t.nv = { s.nv with counter2 := s.nv.counter2 + 1 } ∧ t.dev.keys = [] ∧
        t.dev.sec.swk = none ∧ t.dev.sec.idOk = false ∧ reg t.dev 0x8000 0x00 = 0 ∧ bit (reg t.dev 0x8100 0x00) 8 = true ∧
        t.dev.epell.sessions = [] ∧ t.dev.mem = s.dev.mem ∧ t.dev.out = sesAnswer x op.req.tag [(stOk, 0, [])] :: s.dev.out) ∧
    (op.value = 1 → writesNv s op.req (.installerReset op) (numItem 0xF004 0x00 1)
      (fun n => { n with installerLabel := true, installerKeys := [] }))) ∧
  (∀ (op : WiringOp) (s : State),
    writesAs s op.req (.wiringMap op) (byteItem 0x4003 0x00 op.data ⟨true, 0⟩ (.map op.map)) 0 (fun d => takeMap s.nv d op.map)) ∧
  (∀ (op : BlobWrite) (s : State),
    writesNv s op.req (.acceptKeys op) (byteItem 0xF000 0x00 op.data op.verdict .raw)
      (fun n => { n with keyList := op.data, counter1 := op.verdict.version }) ∧
    writesNv s op.req (.defectRecord op) (byteItem 0xF001 0x00 op.data op.verdict .raw)
      (fun n => { n with defects := op.data, serviceDefects := [] }) ∧
    writesNv s op.req (.factoryCal op) (byteItem 0xF002 0x00 op.data op.verdict .raw) (fun n => { n with cal := op.data }))
/-! ## Power, kindling, units (R431, R435 to R475) -/

/-- Input and the cold reset pin (R431, R439, R471, R474). Input good, with the switch closed, begins a kindling that keeps the ash
record and what lies in flash and starts with nothing loaded; with COLD_RST# low it waits for the pin, and during a last gasp for its end. Loss of input begins the last gasp: the STOP_CAUSE is
1, the domains that the gasp does not need go off; an overvoltage opens the switch as well; a second loss cuts the gasp off, both
regions standing (log entry 88). The end of the gasp writes it into the
region that does not hold the newer one, and everything is off; where the input has recovered the device starts again. COLD_RST# switches the device off without a gasp, is ignored
during one, and its release starts a device that has input. -/
def Obligations.PowerComesAndGoes : Prop :=
  (∀ (op : PowerGoodOp) (s : State), s.dev.pow.inputSwitch = true → s.dev.pow.powerGood = false →
    s.dev.pow.stage = .off ∨ s.dev.pow.stage = .gasp →
    (s.dev.pow.coldRst = false → s.dev.pow.stage = .off → ∃ t, exec (.powerGood op) s = .next t ∧ t.dev.pow.stage = .k0 ∧ t.dev.pow.warm = false ∧
      t.dev.pow.sysclk = op.sysclk ∧ t.dev.pow.powerGood = true ∧ t.dev.pow.overTemp = false ∧
      t.dev.ash = { s.dev.ash with perFrame := 0, startCount := s.dev.ash.startCount + 1 } ∧ t.dev.mem = MemS.reset ∧
      t.dev.gen.apps = [] ∧ t.dev.gen.reqs = [] ∧ t.dev.epell.sessions = [] ∧ t.dev.sec.tenants = s.dev.sec.tenants ∧
      (∀ k, domain t.dev k = if 80 ≤ k ∧ k < 88 then 2 else 0) ∧ t.dev.out = s.dev.out ∧ t.nv = s.nv) ∧
    (s.dev.pow.coldRst = true ∨ s.dev.pow.stage = .gasp → exec (.powerGood op) s = .next { s with dev := { s.dev with
      pow := { s.dev.pow with sysclk := op.sysclk, powerGood := true, overTemp := false } } })) ∧
  (∀ s : State,
    let loses := fun (r : Host.Outcome State Fault Refusal) (sw : Bool) => ∃ t, r = .next t ∧ t.nv = s.nv ∧
      t.dev.pow.stage = .gasp ∧ t.dev.pow.powerGood = false ∧ t.dev.pow.inputSwitch = sw ∧
      t.dev.ash = { s.dev.ash with stopCause := 1 } ∧
      (∀ k, domain t.dev k = if k < 80 ∨ k = 82 ∨ k = 85 ∨ (88 ≤ k ∧ k < 96) then 0 else domain s.dev k) ∧
      t.dev.pow.gasp ≠ [] ∧ t.dev.mem = s.dev.mem ∧ t.dev.frame = s.dev.frame
    (s.dev.pow.stage ≠ .off → s.dev.pow.stage ≠ .gasp →
      loses (exec .lossOfInput s) s.dev.pow.inputSwitch ∧ loses (exec .overvoltage s) false) ∧
    (s.dev.pow.stage = .off →
      exec .lossOfInput s = .next { s with dev := { s.dev with pow := { s.dev.pow with powerGood := false } } }) ∧
    (s.dev.pow.stage = .gasp → ∃ t, exec .lossOfInput s = .next t ∧ t.dev.pow.stage = .off ∧ t.dev.pow.powerGood = false ∧
      t.dev.pow.gasp = [] ∧ (∀ k < 96, domain t.dev k = 0) ∧ t.dev.ash = s.dev.ash ∧ t.nv = s.nv) ∧
    (s.dev.pow.stage = .off ∨ s.dev.pow.stage = .gasp →
      exec .overvoltage s = .next { s with dev := { s.dev with pow := { s.dev.pow with inputSwitch := false, powerGood := false } } }) ∧
    (s.dev.pow.stage = .gasp → s.dev.pow.powerGood = true → s.dev.pow.inputSwitch = true → s.dev.pow.coldRst = false →
      ∃ t, exec .gaspComplete s = .next t ∧ t.dev.pow.stage = .k0 ∧ t.dev.pow.gasp = [] ∧ t.dev.pow.warm = false ∧
        t.dev.ash.startCount = s.dev.ash.startCount + 1 ∧ t.nv = s.nv) ∧
    (s.dev.pow.stage = .gasp → s.dev.pow.powerGood = false ∨ s.dev.pow.inputSwitch = false ∨ s.dev.pow.coldRst = true →
      ∃ t, exec .gaspComplete s = .next t ∧ t.dev.pow.stage = .off ∧ t.dev.pow.gasp = [] ∧
      (∀ k < 96, domain t.dev k = 0) ∧ t.nv = s.nv ∧
      (let g : Gasp := ⟨true, s.dev.ash.startCount, s.dev.pow.gasp⟩
       let newerA := s.dev.ash.gaspA.valid = true ∧ (s.dev.ash.gaspB.valid = false ∨ s.dev.ash.gaspB.startCount ≤ s.dev.ash.gaspA.startCount)
       (newerA → t.dev.ash = { s.dev.ash with gaspB := g }) ∧ (¬newerA → t.dev.ash = { s.dev.ash with gaspA := g }))) ∧
    (s.dev.pow.stage ≠ .gasp → exec .gaspComplete s = .next s) ∧
    exec .inputSwitchClose s = .next { s with dev := { s.dev with pow := { s.dev.pow with inputSwitch := true } } } ∧
    exec .sysclkPresent s = .next { s with dev := { s.dev with pow := { s.dev.pow with sysclk := true } } } ∧
    (s.dev.pow.stage = .gasp → exec .coldRst s = .next s) ∧
    (s.dev.pow.stage = .off → exec .coldRst s = .next { s with dev := { s.dev with pow := { s.dev.pow with coldRst := true } } }) ∧
    (s.dev.pow.stage ≠ .gasp → s.dev.pow.stage ≠ .off → ∃ t, exec .coldRst s = .next t ∧ t.dev.pow.stage = .off ∧
      t.dev.pow.coldRst = true ∧ t.dev.ash = { s.dev.ash with stopCause := 2 } ∧
      (∀ k < 96, domain t.dev k = if k = 80 ∨ k = 84 then domain s.dev k else 0) ∧ t.dev.mem = s.dev.mem ∧ t.nv = s.nv) ∧
    (s.dev.pow.coldRst = true →
      (s.dev.pow.powerGood = true → s.dev.pow.inputSwitch = true → s.dev.pow.stage = .off → ∃ t, exec .coldRstRelease s = .next t ∧
        t.dev.pow.stage = .k0 ∧ t.dev.pow.coldRst = false ∧ t.dev.ash.startCount = s.dev.ash.startCount + 1) ∧
      ((s.dev.pow.powerGood = false ∨ s.dev.pow.inputSwitch = false ∨ s.dev.pow.stage ≠ .off) → exec .coldRstRelease s =
        .next { s with dev := { s.dev with pow := { s.dev.pow with coldRst := false } } })))

/-- Kindling (R121, R122, R346 to R349, R440 to R448). K0 runs the candidate, counting its start, or the active image, where the
checks of R346 pass, and stops in recovery where they do not; a candidate whose three starts failed is erased, and an image with
a lower SVN than counter 0 is not started (R348); K1 trains memory, a channel that failed disabling its die
group, as one that has no DIMM does; eight waves bring the Hearths up; the proof stroke takes failed units out, a failed security engine killing the
device; READY maps the logical Hearths, numbers frame 0, takes a good candidate as active and raises counter 0. The recovery
loader takes a right image and restarts. A copybook that fits is loaded (R3), the vector
registers of its partitions clear (log entry 139); one that does not is refused. -/
def Obligations.KindlingRuns : Prop :=
  (∀ (op : K0Op) (s : State), s.dev.pow.stage = .k0 → s.dev.pow.sysclk = true →
    let recover := { s.dev with pow := { s.dev.pow with stage := .recovery, kindle := [op.us] } }
    let fine := op.root = true ∧ op.list = true ∧ s.nv.counter1 ≤ op.listVersion
    let runs := fun (n : Nv) (i : FwImage) (cand : Bool) => ∃ t, exec (.k0Complete op) s = .next t ∧ t.nv = n ∧
      t.dev.pow.stage = .k1 ∧ t.dev.pow.candidate = cand ∧ t.dev.pow.svn = i.svn ∧ t.dev.pow.kindle = [op.us] ∧
      t.dev.sec.idOk = (op.identity && op.record) ∧ t.dev.pow.calib = op.calib ∧
      reg t.dev 0x0004 0x00 = i.version ∧ reg t.dev 0x8004 0x01 = i.svn ∧ t.dev.mem = s.dev.mem
    (¬fine → exec (.k0Complete op) s = .next { s with dev := recover }) ∧
    (fine → isManager s.dev = false → s.nv.candidate = none → s.nv.active.verifies = true → s.nv.counter0 ≤ s.nv.active.svn → runs s.nv s.nv.active false) ∧
    (fine → s.nv.candidate = none → (s.nv.active.verifies = false ∨ s.nv.active.svn < s.nv.counter0) →
      exec (.k0Complete op) s = .next { s with dev := recover }) ∧
    (∀ c, fine → isManager s.dev = false → s.nv.candidate = some c → s.nv.candidateFails < 3 → c.verifies = true → s.nv.counter0 ≤ c.svn →
      runs { s.nv with candidateFails := s.nv.candidateFails + 1 } c true) ∧
    (∀ c, fine → isManager s.dev = false → s.nv.candidate = some c → 3 ≤ s.nv.candidateFails → s.nv.active.verifies = true →
      s.nv.counter0 ≤ s.nv.active.svn → runs { s.nv with candidate := none, candidateFails := 0 } s.nv.active false) ∧
    (∀ c, fine → s.nv.candidate = some c → s.nv.candidateFails < 3 → (c.verifies = false ∨ c.svn < s.nv.counter0) →
      (isManager s.dev = false → s.nv.active.verifies = true → s.nv.counter0 ≤ s.nv.active.svn → runs s.nv s.nv.active false) ∧
      ((s.nv.active.verifies = false ∨ s.nv.active.svn < s.nv.counter0) → exec (.k0Complete op) s = .next { s with dev := recover }))) ∧
  (∀ (op : ImageOp) (s : State), s.dev.pow.stage = .recovery →
    (op.image.verifies = true → s.nv.counter0 ≤ op.image.svn → ∃ t, exec (.recoveryImage op) s = .next t ∧
      t.nv = { s.nv with candidate := some op.image, candidateFails := 0 } ∧ t.dev.pow.stage = .k0) ∧
    ((op.image.verifies = false ∨ op.image.svn < s.nv.counter0) → exec (.recoveryImage op) s = .next s)) ∧
  (∀ (op : ChannelsOp) (s : State), s.dev.pow.stage = .k1 → op.channels.all (· < 32) = true →
    ∃ t, exec (.memoryTrainingDeadline op) s = .next t ∧
      (∀ c ∈ op.channels, channelState t.dev c = 2 ∧ t.dev.mem.usable.get 0 (c / 4) = 0) ∧ t.dev.pow = s.dev.pow ∧ t.nv = s.nv) ∧
  (∀ (op : K1Op) (s : State), s.dev.pow.stage = .k1 → s.dev.pow.warm = false →
    let good := fun (c : Nat) => channelState s.dev c ≠ 2 ∧ ∃ x ∈ op.channels, x.channel = c ∧ fits x = true ∧ channelTrained s.nv s.dev x = true
    ∃ t, exec (.k1Complete op) s = .next t ∧ t.dev.pow.stage = .k2 0 ∧ t.dev.pow.kindle = s.dev.pow.kindle ++ [op.us] ∧
      (∀ c < 32, ¬good c → t.dev.mem.usable.get 0 (c / 4) = 0 ∧
        ((channelState s.dev c = 2 ∨ ∃ x ∈ op.channels, x.channel = c) → channelState t.dev c = 2) ∧
        (channelState s.dev c ≠ 2 → (∀ x ∈ op.channels, x.channel ≠ c) → channelState t.dev c = 0)) ∧
      (∀ g < 8, (∀ k < 4, good (4 * g + k)) → ∀ k < 4, channelState t.dev (4 * g + k) = 1) ∧
      t.nv = { s.nv with savedChannels := t.nv.savedChannels }) ∧
  (∀ (op : StageOp) (s : State) (w : Nat), s.dev.pow.stage = .k2 w →
    let up := s.dev.pow.up ++ (waveHearths w).filter (fun q => !s.dev.pow.bad.contains q)
    (w < 7 → exec (.hearthWave op) s = .next { s with dev := { s.dev with
      pow := { s.dev.pow with up := up, stage := .k2 (w + 1) } } }) ∧
    (7 ≤ w → exec (.hearthWave op) s = .next { s with dev := { s.dev with
      pow := { s.dev.pow with up := up, stage := .proof, kindle := s.dev.pow.kindle ++ [op.us] } } })) ∧
  (∀ (op : ProofStrokeOp) (s : State), proofOpOk op = true →
    (op.security = false → s.dev.pow.stage = .proof ∨ running s.dev = true → ∃ t, exec (.proofStrokeComplete op) s = .next t ∧ t.dev.pow.stage = .dead ∧ t.dev.pow.fatal = true ∧
      t.dev.mem = s.dev.mem ∧ t.nv = s.nv) ∧
    (op.security = true → s.dev.pow.stage = .proof → ∃ t, exec (.proofStrokeComplete op) s = .next t ∧ t.dev.pow.stage = .k3 ∧
      t.dev.pow.banks = withBanks s.dev.pow.banks op.banks ∧
      t.dev.pow.bad = s.dev.pow.bad ++
        (op.hearths ++ bankHearths t.dev.pow.banks).eraseDups.filter (fun q => !s.dev.pow.bad.contains q) ∧ (∀ c ∈ bankClusters t.dev.pow.banks, c ∈ t.dev.pow.degraded) ∧ t.dev.pow.lostParts = op.scribes ∧
      t.dev.pow.kindle = s.dev.pow.kindle ++ [op.us] ∧ (∀ c ∈ op.clusters, c ∈ t.dev.pow.degraded) ∧
      (∀ c ∈ op.channels, channelState t.dev c = 2) ∧ t.nv = s.nv) ∧
    (op.security = true → running s.dev = true → op.hearths = [] → op.clusters = [] → op.scribes = [] →
      bankHearths (withBanks s.dev.pow.banks op.banks) = bankHearths s.dev.pow.banks →
      (∀ c ∈ bankClusters (withBanks s.dev.pow.banks op.banks), isDegraded s.dev c = true) →
      exec (.proofStrokeComplete op) s = .next { s with
        nv := addDefects (addDefects s.nv (op.banks.map bankEntry)) (op.channels.map channelDefect),
        dev := forEach op.channels { s.dev with pow := { s.dev.pow with banks := withBanks s.dev.pow.banks op.banks } } failChannel })) ∧
  (∀ (l : List (BitVec 64)) (h c : Nat),
    (h ∈ bankHearths l ↔ h < 288 ∧ 2 ≤ (l.filter (fun e => defKind e == 1 && defHearth e == h)).length) ∧
    (c ∈ bankClusters l ↔ c < 32 ∧ 3 ≤ (l.filter (fun e => defKind e == 2 && defCluster e == c)).length)) ∧
  (∀ (op : StageOp) (s : State), s.dev.pow.stage = .k3 → s.dev.gen.apps = [] →
    ∃ t, exec (.ready op) s = .next t ∧ t.dev.pow.stage = .ready ∧
      t.dev.pow.dev = (if s.dev.sec.idOk then .ready else .identityFailed) ∧
      t.dev.frame = { s.dev.frame with no := 0, off := 0, timer := true } ∧ t.dev.ash.next = s.dev.ash.next + 1 ∧
      t.dev.ash.stopCause = 0 ∧ t.dev.pow.kindle = s.dev.pow.kindle ++ [op.us] ∧
      t.nv.counter0 = max s.nv.counter0 s.dev.pow.svn ∧
      (∀ c, s.nv.candidate = some c → s.dev.pow.candidate = true → t.nv.active = c ∧ t.nv.candidate = none) ∧
      (∀ c < 32, isDegraded s.dev c = false →
        (8 ≤ (passing s.dev c).length → ∀ h < 8, physical t.dev (8 * c + h) = (passing s.dev c)[h]?) ∧
        ((passing s.dev c).length < 8 → isDegraded t.dev c = true))) ∧
  (∀ (op : LoadOp) (s : State), running s.dev = true → op.book.parts ≠ [] → op.set = [] →
    let d := atOff s.dev op.off
    let a := (op.book.parts.head?).getD 0
    (bookFits d op.book a = true → ∃ t x, exec (.copybookLoad op) s = .next t ∧ appAt t.dev a = some x ∧
      x.place = soloPlacement op.book ∧ x.book = op.book ∧ x.stopped = false ∧ (∀ p ∈ op.book.parts, appOfPart t.dev p = some a) ∧
      (∀ x ∈ t.dev.hearth.vregs, partOfHearth (x.1 / 32) ∉ op.book.parts) ∧
      t.dev.out = .loaded a true :: s.dev.out ∧ t.nv = s.nv) ∧
    (bookFits d op.book a = false →
      exec (.copybookLoad op) s = .next { s with dev := { d with out := .loaded a false :: s.dev.out } }))

/-- Units that fail and are reset (R436, R447 to R457). A Hearth that fails is OUT, listed, under a fault reset, with a spare planned or
its cluster DEGRADED from the next edge on; a spare takes over when its stroke and reload are done. A fault of a domain's regulator puts its
units out. An error in a cluster's or partition's logic, or a watchdog, starts a fault reset at once, which is ignored where a
larger one stands. When its drain is complete a unit is cleared, and a device reset starts the device again; a unit back
from reset waits to return, or is handled as failed. -/
def Obligations.UnitsFailAndReturn : Prop :=
  (∀ (op : HearthOp) (s : State) (q : Nat), op.hearth < 256 → running s.dev = true → s.dev.frame.tasks = [] →
    s.dev.pow.outHearths.contains op.hearth = false → isDegraded s.dev (clusterOf op.hearth) = false →
    physical s.dev op.hearth = some q → (∀ r ∈ s.dev.pow.resets, covers r.scope (.hearth q) = false) →
    ∃ t, exec (.hearthFault op) s = .next t ∧ t.nv = addDefect s.nv (defectEntry 0 (q / 9) (q % 9) 0) ∧
      t.dev.pow.outHearths = s.dev.pow.outHearths ++ [op.hearth] ∧ t.dev.pow.bad = s.dev.pow.bad ++ [q] ∧
      t.dev.pow.resets = s.dev.pow.resets.filter (fun r => !covers (.hearth q) r.scope) ++ [⟨.hearth q, .draining, true⟩] ∧
      t.dev.ash.next = s.dev.ash.next + 1 ∧
      (∀ n, spareOf s.dev (clusterOf op.hearth) = some n → t.dev.pow.spares = s.dev.pow.spares ++ [⟨op.hearth, n, false, false, false⟩]) ∧
      (spareOf s.dev (clusterOf op.hearth) = none → t.dev.pow.degraded = s.dev.pow.degraded ∧
        clusterOf op.hearth ∈ t.dev.pow.degrading)) ∧
  (∀ (d : Dev) (c : Nat), isDegraded d c = false → appOfPart d (partOfCluster c) = none →
    degradeEdge { d with pow := { d.pow with degrading := [c] } } = degrade { d with pow := { d.pow with degrading := [] } } c) ∧
  (∀ (op : HearthOp) (s : State), op.hearth < 256 →
    (s.dev.pow.spares.any (fun x => x.logical == op.hearth && x.proofPlanned && !x.reloaded) = true →
      let d := atOff s.dev op.off
      exec (.spareReloadDone op) s = .next { s with dev := (reloadWell (clearHearth { d with pow := { d.pow with
        spares := d.pow.spares.map (fun x => if x.logical = op.hearth then { x with reloaded := true } else x) } }
        op.hearth) op.hearth) })) ∧
  (∀ (op : DomainOp) (s : State), op.domain < 96 → s.dev.frame.tasks = [] →
    let d := atOff s.dev op.off
    let p := op.domain / 10
    let c := 4 * p + op.domain % 10 % 4
    (op.domain < 80 → op.domain % 10 < 8 → isDegraded s.dev c = false → ∃ t, exec (.domainFault op) s = .next t ∧
      domain t.dev op.domain = 5 ∧ t.dev.pow.degraded = s.dev.pow.degraded ++ [c] ∧ t.nv = addDefects s.nv (clusterDefects c)) ∧
    (op.domain < 80 → op.domain % 10 = 8 → ∃ t, exec (.domainFault op) s = .next t ∧ domain t.dev op.domain = 5 ∧
      p ∈ t.dev.pow.lostParts ∧ t.nv = s.nv) ∧
    (op.domain < 80 → op.domain % 10 = 9 →
      exec (.domainFault op) s = .next { s with dev := forEach (groupChannels p) (setDomain d 5 op.domain) failChannel }) ∧
    (80 ≤ op.domain → op.domain < 88 → exec (.domainFault op) s = .next { s with dev := setDomain d 5 op.domain }) ∧
    (88 ≤ op.domain → exec (.domainFault op) s = .next { s with dev := (forEach [2 * (op.domain - 88), 2 * (op.domain - 88) + 1]
      (setDomain d 5 op.domain) (fun d p => leaveUp d p .disabled)) })) ∧
  (∀ (op : ScopeOp) (s : State), running s.dev = true → s.dev.frame.tasks = [] → scopeOk op.scope = true →
    ((∃ c, op.scope = .cluster c) ∨ (∃ p, op.scope = .partition p)) →
    ∃ t, exec (.uncorrectableLogicError op) s = .next t ∧ t.dev.ash.next = s.dev.ash.next + 1 ∧ t.nv = s.nv ∧
      ((∀ r ∈ s.dev.pow.resets, covers r.scope op.scope = false) → t.dev.pow.resets =
        s.dev.pow.resets.filter (fun r => !covers op.scope r.scope) ++ [⟨op.scope, .draining, true⟩]) ∧
      ((∃ r ∈ s.dev.pow.resets, covers r.scope op.scope = true ∧ r.phase = .draining) → t.dev.pow.resets = s.dev.pow.resets ∧
        reg t.dev 0x9009 0x01 = reg s.dev 0x9009 0x01 + 1)) ∧
  (∀ (op : CpOp) (s : State), running s.dev = true → s.dev.frame.tasks = [] → op.cp < 8 →
    let scope : Scope := if op.cp = 0 then .warm else .partition op.cp
    (∀ r ∈ s.dev.pow.resets, covers r.scope scope = false) →
    ∃ t, exec (.watchdogExpiry op) s = .next t ∧ t.nv = s.nv ∧
      t.dev.pow.resets = s.dev.pow.resets.filter (fun r => !covers scope r.scope) ++ [⟨scope, .draining, true⟩] ∧
      t.dev.ash.stopCause = (if op.cp = 0 then 5 else s.dev.ash.stopCause)) ∧
  (∀ (op : ScopeOp) (s : State), scopeOk op.scope = true →
    (s.dev.pow.resets.any (fun r => r.scope == op.scope && r.phase == .draining) = true →
      (∀ c, op.scope = .cluster c → ∃ t, exec (.resetDrainComplete op) s = .next t ∧
        (∀ a, t.dev.mem.well.get 0 a = if a / wellSize / 8 = c then 0 else s.dev.mem.well.get 0 a) ∧
        (∀ a, t.dev.mem.ink.get 0 a = if a / inkSize = c then 0 else s.dev.mem.ink.get 0 a) ∧
        (∀ k, t.dev.mem.sems.get 0 k = if k / 1024 = c then 0 else s.dev.mem.sems.get 0 k) ∧ t.dev.mem.ddr = s.dev.mem.ddr ∧
        t.dev.pow = { s.dev.pow with resets := s.dev.pow.resets.map (fun r =>
          if r.scope = .cluster c ∧ r.phase = .draining then { r with phase := .under } else r) }) ∧
      (∀ q h, op.scope = .hearth q → logicalOf s.dev q = some h → ∃ t, exec (.resetDrainComplete op) s = .next t ∧
        (∀ a, t.dev.mem.well.get 0 a = if a / wellSize = h then 0 else s.dev.mem.well.get 0 a) ∧ t.dev.mem.ink = s.dev.mem.ink) ∧
      (∀ p, op.scope = .partition p → ∃ t, exec (.resetDrainComplete op) s = .next t ∧
        (∀ a, t.dev.mem.ink.get 0 a = if a / inkSize / 4 = p then 0 else s.dev.mem.ink.get 0 a) ∧
        t.dev.ev.handlers.get [] p = [] ∧ t.dev.mem.ddr = s.dev.mem.ddr) ∧
      (op.scope = .warm → ∃ t, exec (.resetDrainComplete op) s = .next t ∧ t.dev.pow.stage = .k0 ∧ t.dev.pow.warm = true ∧
        t.dev.mem.ddr = s.dev.mem.ddr ∧ t.dev.mem.well = [] ∧ t.dev.ash.startCount = s.dev.ash.startCount + 1) ∧
      (op.scope = .cold → ∃ t, exec (.resetDrainComplete op) s = .next t ∧ t.dev.pow.stage = .k0 ∧ t.dev.pow.warm = false ∧
        t.dev.mem = MemS.reset ∧ t.dev.ash.startCount = s.dev.ash.startCount + 1)) ∧
    (s.dev.pow.resets.any (fun r => r.scope == op.scope && r.phase == .draining) = false →
      exec (.resetDrainComplete op) s = .next { s with dev := atOff s.dev op.off })) ∧
  (∀ (op : UnitBackOp) (s : State), scopeOk op.scope = true → op.banks.all bankOk = true →
    s.dev.pow.resets.any (fun r => r.scope == op.scope && r.phase == .under) = true →
    let banks := withBanks s.dev.pow.banks op.banks
    let back := s.dev.pow.resets.map (fun r => if r.scope = op.scope then { r with phase := .returning } else r)
    let gone := s.dev.pow.resets.filter (fun r => r.scope != op.scope)
    (∃ t, exec (.unitResetComplete op) s = .next t ∧ t.dev.pow.banks = banks ∧
      ∀ h ∈ bankHearths banks, h ∉ bankHearths s.dev.pow.banks → h ∈ t.dev.pow.bad) ∧
    (bankHearths banks = bankHearths s.dev.pow.banks → (∀ c ∈ bankClusters banks, isDegraded s.dev c = true) →
    (op.passed = true → (∀ q, op.scope = .hearth q → s.dev.pow.bad.contains q = false) → op.scope ≠ .warm → op.scope ≠ .cold →
      ∃ t, exec (.unitResetComplete op) s = .next t ∧ t.dev.pow.resets = back ∧ t.nv = addDefects s.nv (op.banks.map bankEntry)) ∧
    (∀ c, op.scope = .cluster c → op.passed = false → isDegraded s.dev c = false → ∃ t, exec (.unitResetComplete op) s = .next t ∧
      t.dev.pow.resets = gone ∧ t.dev.pow.degraded = s.dev.pow.degraded ++ [c] ∧
      t.nv = addDefects (addDefects s.nv (op.banks.map bankEntry)) (clusterDefects c)) ∧
    (∀ p, op.scope = .partition p → op.passed = false → ∃ t, exec (.unitResetComplete op) s = .next t ∧
      t.dev.pow.resets = gone ∧ p ∈ t.dev.pow.lostParts ∧ t.nv = addDefects s.nv (op.banks.map bankEntry))))

/-- Memory channels in service (R121, R122, R452, R475): a channel that fails reads FAILED, its group's others GROUP_DISABLED, the group
gives and exports no frames and DDR_USABLE falls. The loss of a DIMM's supply does this and raises the channel's source. Corrected errors are counted;
at CHANNEL_RETRAIN_THRESHOLD within 1,024 frames the channel's group begins retraining where the others have room, else it waits, with
CODE 4, for an edge at which they have. A drained group whose channels
are retrained is TRAINED again with its page versions raised; a channel that failed its retraining has failed. -/
def Obligations.ChannelsInService : Prop :=
  (∀ (d : Dev) (c : Nat), c < 32 →
    (∀ k < 32, channelState (failChannel d c) k =
      if k = c then 2 else if k / 4 = c / 4 ∧ channelState d k ≠ 2 ∧ channelState d k ≠ 0 then 4 else channelState d k) ∧
    (∀ g, (failChannel d c).mem.usable.get 0 g = if g = c / 4 then 0 else d.mem.usable.get 0 g) ∧
    (∀ f, (failChannel d c).mem.exports.get 0 f = if f / 524288 = c / 4 then 0 else d.mem.exports.get 0 f) ∧
    reg (failChannel d c) 0x1103 0x00 =
      (((List.range 8).map (fun g => if g = c / 4 then 0 else d.mem.usable.get 0 g)).sum) * 2 ^ 21 ∧
    { failChannel d c with regs := d.regs, mem := d.mem } = d) ∧
  (∀ (op : ChannelOp) (s : State), op.channel < 32 →
    let d := atOff s.dev op.off
    (s.dev.pow.stage = .off → exec (.dimmSupplyLoss op) s = .next { s with dev := d }) ∧
    (s.dev.pow.stage ≠ .off → ∃ t, exec (.dimmSupplyLoss op) s = .next t ∧ channelState t.dev op.channel = 2 ∧
      t.dev.mem = (failChannel d op.channel).mem ∧
      ((source s.dev (1152 + op.channel)).st = .inactive → (source s.dev (1152 + op.channel)).level ≠ 0 →
        (source t.dev (1152 + op.channel)).st = .pending ∧ (source t.dev (1152 + op.channel)).code = 2 ∧
        (source t.dev (1152 + op.channel)).arg = op.channel) ∧ t.nv = s.nv)) ∧
  (∀ (op : CorrectedOp) (s : State), op.channel < 32 →
    let l := recentErrors s.dev op.channel ++ [(s.dev.frame.no, op.count)]
    let w := (l.map (·.2)).sum
    let g := op.channel / 4
    (w < reg s.dev 0x900D 0x01 → ∃ t, exec (.channelErrorThreshold op) s = .next t ∧
      t.dev.mem = { s.dev.mem with corrWindow := s.dev.mem.corrWindow.set [] op.channel l } ∧
      reg t.dev 0x1105 (op.channel + 1) = reg s.dev 0x1105 (op.channel + 1) + op.count ∧ t.dev.ev = s.dev.ev ∧ t.dev.pow = s.dev.pow) ∧
    (reg s.dev 0x900D 0x01 ≤ w → ∃ t, exec (.channelErrorThreshold op) s = .next t ∧
      t.dev.mem = { s.dev.mem with corrWindow := s.dev.mem.corrWindow.set [] op.channel [] } ∧
      (groupUsed s.dev g ≤ freeElsewhere s.dev g → g ∉ s.dev.pow.retraining →
        t.dev.pow.retraining = s.dev.pow.retraining ++ [g] ∧
        (∀ k < 32, channelState t.dev k = if k / 4 = g ∧ channelState s.dev k = 1 then 3 else channelState s.dev k)) ∧
      (freeElsewhere s.dev g < groupUsed s.dev g → op.channel ∉ s.dev.pow.retrainWaits →
        t.dev.pow = { s.dev.pow with retrainWaits := s.dev.pow.retrainWaits ++ [op.channel] } ∧
        ((source s.dev (1152 + op.channel)).st = .inactive → (source s.dev (1152 + op.channel)).level ≠ 0 →
          (source t.dev (1152 + op.channel)).code = 4)))) ∧
  (∀ (d : Dev) (c : Nat), d.pow.retrainWaits = [c] → d.pow.retraining = [] → groupUsed d (c / 4) ≤ freeElsewhere d (c / 4) →
    (channelsEdge d).pow.retraining = [c / 4] ∧ (channelsEdge d).pow.retrainWaits = []) ∧
  (∀ (op : RetrainOp) (s : State), op.group < 8 → op.group ∈ s.dev.pow.retraining → groupUsed s.dev op.group = 0 →
    ∃ t, exec (.channelRetrainDone op) s = .next t ∧
      t.dev.pow = { s.dev.pow with retraining := s.dev.pow.retraining.filter (· != op.group) } ∧
      ((∀ c ∈ op.failed, c / 4 ≠ op.group) → (∀ k < 4, channelState t.dev (4 * op.group + k) = 1) ∧
        (∀ f, version t.dev f = if f / 524288 = op.group then (version s.dev f + 1) % 2 ^ 56 else version s.dev f)) ∧
      (∀ c ∈ op.failed, c / 4 = op.group → channelState t.dev c = 2 ∧ t.dev.mem.usable.get 0 op.group = 0) ∧ t.nv = s.nv)

/-- The Flue, the service pushbutton, the PCIe reset pin and modules (R438, R458, R466, R468, R471). After 64 cool frames the clock goes
up a step, at the next edge or, after the cut-off (R30), at the one after it, and admission resumes; each change is reported. At TJ_TRIP the device reports FATAL and switches off but for
three domains, with OVERTEMP# low. SERVICE_REQ# is taken in READY alone. When SERVICE_DRAIN_FRAMES run out, requests end
SERVICE_STOPPED. PE_PERST# resets the endpoint: interfaces unlocked, PCIe sessions closed, rings in host memory disabled. A module
that comes reads as chip-to-module; one that goes is a loss of signal. Before power-good (R461, R471) PWR_GOOD sinks and every other output is
high-impedance but OVERTEMP# after a trip; then TICK_OUT is high for its pulse (R470), PE_CLKREQ# sinks while D85 is ON, and a port's module
reset sinks while the port is DISABLED or its domain is not ON. -/
def Obligations.FlueAndService : Prop :=
  (∀ (op : AtOp) (s : State), running s.dev = true →
    let d := atOff s.dev op.off
    let told := fun (t : State) => ((source s.dev 9).st = .inactive → (source s.dev 9).level ≠ 0 → (source t.dev 9).st = .pending) ∧
      t.dev.ev.nextReport = s.dev.ev.nextReport + 1 ∧
      (s.dev.ash.perFrame < reg s.dev 0xA003 0x00 → t.dev.ash.next = s.dev.ash.next + 1)
    (64 ≤ s.dev.pow.coolRaise → s.dev.pow.mhz < 850 → s.dev.pow.mhzNext = none → s.dev.pow.mhzLate = none →
      ∃ t, exec (.clockStepUp op) s = .next t ∧
        (s.dev.frame.cut = false → t.dev.pow = { s.dev.pow with mhzNext := some (min 850 (s.dev.pow.mhz + 25)), coolRaise := 0 }) ∧
        (s.dev.frame.cut = true → t.dev.pow = { s.dev.pow with mhzLate := some (min 850 (s.dev.pow.mhz + 25)), coolRaise := 0 }) ∧
        told t ∧ t.dev.mem = s.dev.mem) ∧
    ((s.dev.pow.coolRaise < 64 ∨ 850 ≤ s.dev.pow.mhz ∨ s.dev.pow.mhzNext ≠ none ∨ s.dev.pow.mhzLate ≠ none) →
      exec (.clockStepUp op) s = .next { s with dev := d }) ∧
    (64 ≤ s.dev.pow.coolResume → s.dev.pow.hold = true ∨ s.dev.pow.holdNext = true → ∃ t, exec (.admissionResume op) s = .next t ∧
      t.dev.pow = { s.dev.pow with hold := false, holdNext := false, coolResume := 0 } ∧ told t ∧ t.dev.mem = s.dev.mem) ∧
    (s.dev.pow.coolResume < 64 → exec (.admissionResume op) s = .next { s with dev := d })) ∧
  (∀ (op : TempOp) (s : State), s.dev.pow.stage ≠ .off →
    (toSigned 32 (reg s.dev 0x9006 0x01) ≤ op.temp → ∃ t, exec (.thermalTrip op) s = .next t ∧ t.dev.pow.stage = .dead ∧
      t.dev.pow.overTemp = true ∧ t.dev.pow.fatal = true ∧
      (∀ k < 96, domain t.dev k = if k = 80 ∨ k = 81 ∨ k = 84 then domain s.dev k else 0) ∧ ((source s.dev 0).st = .inactive → (source t.dev 0).code = 1) ∧ t.nv = s.nv) ∧
    (op.temp < toSigned 32 (reg s.dev 0x9006 0x01) → exec (.thermalTrip op) s = .next { s with dev := atOff s.dev op.off })) ∧
  (∀ s : State,
    (running s.dev = true → s.dev.pow.dev = .ready → ∃ t, exec .serviceReq s = .next t ∧
      t.dev.pow = { s.dev.pow with svcPress := true } ∧
      ((source s.dev 10).st = .inactive → (source s.dev 10).level ≠ 0 → (source t.dev 10).st = .pending) ∧ t.dev.gen = s.dev.gen) ∧
    ((running s.dev = false ∨ s.dev.pow.dev ≠ .ready) → exec .serviceReq s = .next s) ∧
    (running s.dev = false →
      exec .pePerstAssert s = .next { s with dev := { s.dev with pow := { s.dev.pow with perst := true } } }) ∧
    (running s.dev = true → ∃ t, exec .pePerstAssert s = .next t ∧ t.dev.pow = { s.dev.pow with perst := true } ∧
      (∀ k, 1 ≤ k → k ≤ 8 → tdi t.dev k = 0) ∧ (∀ x ∈ t.dev.epell.sessions, x.transport ≠ .pcie) ∧ t.dev.sec = { s.dev.sec with ide := [] } ∧
      (∀ x ∈ t.dev.ev.rings, ringLoc x.2 = 2 → field x.2 130 1 = 0) ∧ t.dev.mem = s.dev.mem ∧ t.dev.gen = s.dev.gen) ∧
    exec .pePerstRelease s = .next { s with dev := { s.dev with pow := { s.dev.pow with perst := false } } }) ∧
  (∀ (op : AtOp) (s : State), s.dev.train.jobs = [] →
    let due := s.dev.pow.svc = .draining ∧ s.dev.pow.svcStart + reg s.dev 0x900C 0x01 ≤ s.dev.frame.no
    let d := atOff s.dev op.off
    (due → (∀ x ∈ s.dev.gen.apps, x.2.isSome = true → setSizeOf s.dev x.1 ≤ 1) →
      exec (.serviceDrainExpiry op) s = .next { s with dev := setReqs d (s.dev.gen.reqs.map (fun q =>
        if q.holds && q.rollout.isNone then { q with stage := .ending 0x24 } else q)) }) ∧
    (¬due → exec (.serviceDrainExpiry op) s = .next { s with dev := d })) ∧
  (∀ (op : ModuleOp) (s : State), op.port < 16 →
    let d := { atOff s.dev op.off with pow := { s.dev.pow with
      prs := (List.range 16).filter (fun k => if k = op.port then op.present else k ∈ s.dev.pow.prs) } }
    (op.present = true → exec (.modulePresentChange op) s = .next { s with dev := setReg d 0x4012 (op.port + 1) 3 }) ∧
    (op.present = false → exec (.modulePresentChange op) s =
      .next { s with dev := lossOfSignal (setReg d 0x4012 (op.port + 1) 0) op.port })) ∧
  (∀ d : Dev,
    (d.pow.powerGood = false → level d .pwrGood = .low ∧
      ∀ b, b ≠ .pwrGood → b ≠ .overTemp → level d b = .z) ∧
    level d .overTemp = (if d.pow.overTemp then .low else .z) ∧
    (d.pow.powerGood = true → level d .pwrGood = .z ∧
      (level d .tickOut = .high ↔ domain d 87 = 2 ∧ now d < d.pow.tickOut) ∧
      (level d .peClkreq = .low ↔ domain d 85 = 2) ∧ level d .peWake = .z ∧
      ∀ p < 16, level d (.linkRst p) = .low ↔ (port d p).st = .disabled ∨ domain d (88 + p / 2) ≠ 2))
/-! ## The machine as a whole -/

/-- One step is one command: the step of a state with a command at the front of its queue is that command's effect on the state with
the rest of the queue; a state whose queue is empty stays as it is (log entry 8). -/
def Obligations.StepRunsTheFront : Prop :=
  (∀ (i : Instr) (rest : List Instr) (s : State), step { s with pending := i :: rest } = exec i { s with pending := rest }) ∧
  (∀ s : State, s.pending = [] → step s = .next s)

/-- Every command that names only units of the device is carried out in every state, and leaves the rest of the queue as it is; one
that names a unit the device has not is a fault, and nothing is refused. That a command out of place changes nothing, instead
of stopping the machine, is the model's choice (log entry 1). -/
def Obligations.CommandsRun : Prop :=
  ∀ (i : Instr) (s : State),
    (i.wf = true → ∃ t, exec i s = .next t ∧ t.pending = s.pending) ∧
    (i.wf = false → exec i s = .fault .noSuchUnit)

/-- The monotonic counters (R347) never fall: whatever a step does, in any state, each stands afterwards where it stood or above. -/
def Obligations.CountersNeverFall : Prop :=
  ∀ (a b c : Nat) (s t : State), countersAtLeast a b c s → step s = .next t → countersAtLeast a b c t

/-- The machine right after reset: no command waits, the memories are in canonical form and read zero, the device is without input and
in no frame, sources stand INACTIVE with the registers of R412 and R413, entries read their defaults (the FRAME_PERIOD of 500 µs and
the fractions 450, 450, 60 and 40, R22), and the counters stand at the values that the model gives them (log entry 7). -/
def Obligations.ResetState : Prop :=
  State.reset.pending = [] ∧ safeState State.reset = true ∧ countersAtLeast 0 0 0 State.reset ∧
  (∀ a, State.reset.dev.mem.well.get 0 a = 0 ∧ State.reset.dev.mem.ink.get 0 a = 0 ∧ State.reset.dev.mem.ddr.get 0 a = 0) ∧
  State.reset.dev.pow.stage = .off ∧ State.reset.dev.frame.no = 0 ∧ State.reset.dev.frame.tick = .locked ∧
  (∀ n, source State.reset.dev n = srcIdle n ∧ (source State.reset.dev n).st = .inactive) ∧
  (∀ index sub, reg State.reset.dev index sub = regDefault (entry index sub)) ∧
  reg State.reset.dev 0x1010 0x00 = 500 ∧ reg State.reset.dev 0x1011 0x01 = 450 ∧ reg State.reset.dev 0x1011 0x02 = 450 ∧
  reg State.reset.dev 0x1011 0x03 = 60 ∧ reg State.reset.dev 0x1011 0x04 = 40
end

