-- ==== Sys2Proof/Laws/Table.lean ====
section
/-!
SUPPORT. Laws of the sparse tables: reading what was written, leaving every other key alone, and keeping the canonical
form.
-/
namespace Sys2Proof

variable {α : Type}

@[simp] theorem Table.get_nil (d : α) (k : Nat) : Table.get [] d k = d := rfl

theorem Table.get_put (t : Table α) (d : α) (k j : Nat) (v : α) : (t.put k v).get d j = if j = k then v else t.get d j := by
  fun_induction Table.put t k v with
  | case1 => simp [Table.get]
  | case2 x rest hx ih =>
    by_cases hj : j = k
    · subst hj; simpa [Table.get, show j ≠ x.1 by omega] using ih
    · simp [Table.get, ih, hj]
  | case3 x rest hx =>
    by_cases hk : x.1 = k
    · simp only [hk, if_true, Table.get]; split <;> rfl
    · simp [hk, Table.get]

theorem Table.get_put_self (t : Table α) (d : α) (k : Nat) (v : α) : (t.put k v).get d k = v := by simp [Table.get_put]

theorem Table.get_put_ne (t : Table α) (d : α) (k j : Nat) (v : α) (h : j ≠ k) : (t.put k v).get d j = t.get d j := by
  simp [Table.get_put, h]

theorem Table.get_erase (t : Table α) (d : α) (k j : Nat) : (t.erase k).get d j = if j = k then d else t.get d j := by
  rw [Table.erase]
  induction t with
  | nil => simp [Table.get]
  | cons x rest ih =>
    by_cases hk : x.1 = k
    · rw [List.filter_cons_of_neg (by simp [hk]), ih]
      by_cases hj : j = k <;> simp [Table.get, hk, hj]
    · rw [List.filter_cons_of_pos (by simp [hk])]
      by_cases hj : j = k
      · subst hj; simp only [Table.get, ih, if_neg (Ne.symm hk), if_true]
      · simp only [Table.get, ih, if_neg hj]

theorem Table.get_erase_ne (t : Table α) (d : α) (k j : Nat) (h : j ≠ k) : (t.erase k).get d j = t.get d j := by
  simp [Table.get_erase, h]

theorem Table.get_erase_self (t : Table α) (d : α) (k : Nat) : (t.erase k).get d k = d := by simp [Table.get_erase]

/-- Writing one key leaves every other as it was. -/
theorem Table.get_set_ne [DecidableEq α] (t : Table α) (d e : α) (k j : Nat) (v : α) (h : j ≠ k) :
    (t.set d k v).get e j = t.get e j := by
  unfold Table.set
  split
  · exact Table.get_erase_ne t e k j h
  · exact Table.get_put_ne t e k j v h

variable [DecidableEq α]

@[simp] theorem Table.wfFrom_nil (d : Nat → α) (lo : Option Nat) : Table.wfFrom d lo ([] : Table α) = true := by
  simp [Table.wfFrom]

theorem Table.wfFrom_cons (d : Nat → α) (lo : Option Nat) (k : Nat) (v : α) (r : Table α) :
    Table.wfFrom d lo ((k, v) :: r) = true ↔ (∀ l, lo = some l → l < k) ∧ v ≠ d k ∧ Table.wfFrom d (some k) r = true := by
  cases lo <;> simp [Table.wfFrom, and_assoc]

theorem Table.wfFrom_weaken (d : Nat → α) (lo lo' : Option Nat) (t : Table α)
    (h : ∀ k l, lo' = some l → (∀ m, lo = some m → m < k) → l < k) (ht : Table.wfFrom d lo t = true) :
    Table.wfFrom d lo' t = true := by
  cases t with
  | nil => simp
  | cons x r =>
    obtain ⟨k, v⟩ := x
    rw [Table.wfFrom_cons] at *
    exact ⟨fun l hl => h k l hl ht.1, ht.2⟩

/-- A table in canonical form from `lo` on lists no key up to `lo`. -/
theorem Table.get_below (d : Nat → α) (e : α) (lo k : Nat) (t : Table α) (ht : Table.wfFrom d (some lo) t = true)
    (h : k ≤ lo) : t.get e k = e := by
  induction t generalizing lo with
  | nil => rfl
  | cons x r ih =>
    obtain ⟨k', v⟩ := x
    rw [Table.wfFrom_cons] at ht
    have hk := ht.1 lo rfl
    simp only [Table.get, show k ≠ k' by omega, if_false]
    exact ih k' ht.2.2 (by omega)

/-- Reading the key just written gives what was written, whatever the table. -/
theorem Table.get_set_self (d : α) (t : Table α) (k : Nat) (v : α) : (t.set d k v).get d k = v := by
  unfold Table.set
  split
  · rename_i h; rw [h]; exact Table.get_erase_self t d k
  · exact Table.get_put_self t d k v

/-- What a table holds after a write. -/
theorem Table.get_set (d : α) (t : Table α) (k j : Nat) (v : α) :
    (t.set d k v).get d j = if j = k then v else t.get d j := by
  split
  · subst j; exact Table.get_set_self d t k v
  · exact Table.get_set_ne t d d k j v ‹_›

/-- Leaving entries out keeps the canonical form. -/
theorem Table.wfFrom_filter (d : Nat → α) (lo : Option Nat) (t : Table α) (p : Nat × α → Bool) (ht : Table.wfFrom d lo t = true) :
    Table.wfFrom d lo (t.filter p) = true := by
  induction t generalizing lo with
  | nil => exact ht
  | cons x rest ih =>
    have hx := (Table.wfFrom_cons d lo x.1 x.2 rest).1 ht
    cases hp : p x
    · rw [List.filter_cons_of_neg (by simp [hp])]
      refine Table.wfFrom_weaken d (some x.1) lo _ (fun j l hl hj => ?_) (ih (some x.1) hx.2.2)
      exact Nat.lt_trans (hx.1 l hl) (hj x.1 rfl)
    · rw [List.filter_cons_of_pos hp]
      exact (Table.wfFrom_cons d lo x.1 x.2 _).2 ⟨hx.1, hx.2.1, ih (some x.1) hx.2.2⟩

theorem Table.wfFrom_erase (d : Nat → α) (lo : Option Nat) (k : Nat) (t : Table α) (ht : Table.wfFrom d lo t = true) :
    Table.wfFrom d lo (t.erase k) = true := Table.wfFrom_filter d lo t _ ht

theorem Table.wfFrom_put (d : Nat → α) (lo : Option Nat) (k : Nat) (v : α) (t : Table α) (ht : Table.wfFrom d lo t = true)
    (hlo : ∀ l, lo = some l → l < k) (hv : v ≠ d k) : Table.wfFrom d lo (t.put k v) = true := by
  fun_induction Table.put t k v generalizing lo with
  | case1 => exact (Table.wfFrom_cons d lo k v []).2 ⟨hlo, hv, by simp⟩
  | case2 x rest hx ih =>
    have h := (Table.wfFrom_cons d lo x.1 x.2 rest).1 ht
    exact (Table.wfFrom_cons d lo x.1 x.2 _).2 ⟨h.1, h.2.1, ih (some x.1) h.2.2 (by rintro l ⟨⟩; exact hx)⟩
  | case3 x rest hx =>
    have h := (Table.wfFrom_cons d lo x.1 x.2 rest).1 ht
    refine (Table.wfFrom_cons d lo k v _).2 ⟨hlo, hv, ?_⟩
    by_cases hk : x.1 = k
    · simpa [hk] using h.2.2
    · rw [if_neg hk]
      exact (Table.wfFrom_cons d (some k) x.1 x.2 rest).2 ⟨by rintro l ⟨⟩; omega, h.2⟩

/-- Writing keeps the canonical form. -/
theorem Table.wf_set (d : Nat → α) (t : Table α) (k : Nat) (v : α) (ht : Table.wf d t = true) :
    Table.wf d (t.set (d k) k v) = true := by
  unfold Table.set
  split
  · exact Table.wfFrom_erase d none k t ht
  · exact Table.wfFrom_put d none k v t ht (by intro l hl; cases hl) ‹_›

theorem Table.wf_modify (d : Nat → α) (t : Table α) (k : Nat) (f : α → α) (ht : Table.wf d t = true) :
    Table.wf d (t.modify (d k) k f) = true := Table.wf_set d t k _ ht

@[simp] theorem Table.wf_nil (d : Nat → α) : Table.wf d ([] : Table α) = true := by simp [Table.wf]

/-- Writing one entry after another keeps the canonical form. -/
theorem Table.wf_foldl_set {β : Type} (d : α) (l : List β) (k : β → Nat) (v : β → α) (t : Table α)
    (ht : Table.wf (fun _ => d) t = true) : Table.wf (fun _ => d) (l.foldl (fun (u : Table α) y => u.set d (k y) (v y)) t) = true :=
  List.foldlRecOn (motive := fun u : Table α => Table.wf (fun _ => d) u = true) l _ ht (fun u hu y _ => Table.wf_set (fun _ => d) u (k y) (v y) hu)

/-- A function applied to every listed value gives a table in canonical form, whatever it is applied to. -/
theorem Table.wf_mapVals (d : α) (t : Table α) (f : α → α) : Table.wf (fun _ => d) (t.mapVals d f) = true :=
  Table.wf_foldl_set d t (·.1) (fun y => f y.2) [] (by simp)

/-- Equal reads make equal tables: two tables in canonical form that read alike everywhere are the same data. -/
theorem Table.ext_of_wf (d : α) (lo : Option Nat) (t u : Table α) (ht : Table.wfFrom (fun _ => d) lo t = true)
    (hu : Table.wfFrom (fun _ => d) lo u = true) (h : ∀ k, t.get d k = u.get d k) : t = u := by
  induction t generalizing u lo with
  | nil =>
    cases u with
    | nil => rfl
    | cons y s =>
      obtain ⟨j, w⟩ := y
      rw [Table.wfFrom_cons] at hu
      have := h j
      simp only [Table.get, if_true] at this
      exact absurd this.symm hu.2.1
  | cons x r ih =>
    obtain ⟨k, v⟩ := x
    rw [Table.wfFrom_cons] at ht
    cases u with
    | nil =>
      have := h k
      simp only [Table.get, if_true] at this
      exact absurd this ht.2.1
    | cons y s =>
      obtain ⟨j, w⟩ := y
      rw [Table.wfFrom_cons] at hu
      have hkj : k = j := by
        rcases Nat.lt_trichotomy k j with hlt | heq | hgt
        · have hk := h k
          simp only [Table.get, if_true, show k ≠ j by omega, if_false] at hk
          rw [Table.get_below (fun _ => d) d j k s hu.2.2 (by omega)] at hk
          exact absurd hk ht.2.1
        · exact heq
        · have hj := h j
          simp only [Table.get, if_true, show j ≠ k by omega, if_false] at hj
          rw [Table.get_below (fun _ => d) d k j r ht.2.2 (by omega)] at hj
          exact absurd hj.symm hu.2.1
      subst hkj
      have hvw : v = w := by have := h k; simpa [Table.get] using this
      subst hvw
      have hr : r = s := by
        refine ih (some k) s ht.2.2 hu.2.2 ?_
        intro i
        by_cases hi : i = k
        · subst hi
          rw [Table.get_below (fun _ => d) d i i r ht.2.2 (Nat.le_refl i), Table.get_below (fun _ => d) d i i s hu.2.2 (Nat.le_refl i)]
        · have := h i; simpa [Table.get, hi] using this
      rw [hr]

namespace Machine

/-- Bytes written at consecutive addresses keep the canonical form. -/
theorem writeBytes_wf (t : Table Byte) (a : Nat) (l : List Byte) (ht : Table.wf (fun _ => (0 : Byte)) t = true) :
    Table.wf (fun _ => (0 : Byte)) (writeBytes t a l) = true := by
  induction l generalizing t a with
  | nil => exact ht
  | cons b r ih => exact ih _ _ (Table.wf_set (fun _ => (0 : Byte)) t a b ht)

/-- Bytes written at consecutive addresses leave every other address alone. -/
theorem writeBytes_get_ne (t : Table Byte) (a j : Nat) (l : List Byte) (h : j < a ∨ a + l.length ≤ j) :
    (writeBytes t a l).get 0 j = t.get 0 j := by
  induction l generalizing t a with
  | nil => rfl
  | cons b r ih =>
    simp only [List.length_cons] at h
    rw [writeBytes, ih _ _ (by omega)]
    exact Table.get_set_ne t 0 0 a j b (by omega)

/-- Reading the bytes just written gives what was written. -/
theorem readBytes_writeBytes (t : Table Byte) (a : Nat) (l : List Byte) : readBytes (writeBytes t a l) a l.length = l := by
  induction l generalizing t a with
  | nil => rfl
  | cons b r ih =>
    simp only [List.length_cons, readBytes, writeBytes]
    rw [writeBytes_get_ne _ _ _ _ (by omega), Table.get_set_self (0 : Byte) t a b, ih _ _]

end Machine
end Sys2Proof
end

