-- ==== Sys2Proof/Laws/Memory.lean ====
section
/-!
SUPPORT. Every operation that writes a Well, an Inkstone or DDR keeps their canonical form, and the machine after reset has
it.
-/
namespace Sys2Proof

variable {α : Type} [DecidableEq α]

theorem Table.wf_filter (d : Nat → α) (t : Table α) (p : Nat × α → Bool) (h : Table.wf d t = true) :
    Table.wf d (t.filter p) = true := Table.wfFrom_filter d none t p h

namespace Machine

/-- The canonical form of the three memories, taken apart. -/
theorem memory_wf_iff (m : MemS) : Memory.wf m = true ↔
    Table.wf (fun _ => (0 : Byte)) m.well = true ∧ Table.wf (fun _ => (0 : Byte)) m.ink = true ∧ Table.wf (fun _ => (0 : Byte)) m.ddr = true := by
  simp [Memory.wf, and_assoc]

/-- An operation that leaves the three memories alone keeps their form. -/
theorem memory_wf_of_eq (m m' : MemS) (h : Memory.wf m = true) (h1 : m'.well = m.well) (h2 : m'.ink = m.ink)
    (h3 : m'.ddr = m.ddr) : Memory.wf m' = true := by
  rw [memory_wf_iff] at *; rw [h1, h2, h3]; exact h

theorem reset_memory_wf : Memory.wf State.reset.dev.mem = true := by decide

theorem opPut_wf (d : Dev) (h a : Nat) (b : Byte) (hm : Memory.wf d.mem = true) : Memory.wf (opPut d h a b).mem = true := by
  rw [memory_wf_iff] at hm
  unfold opPut
  split
  · exact (memory_wf_iff _).2 ⟨Table.wf_set (fun _ => (0 : Byte)) _ _ _ hm.1, hm.2⟩
  · split
    · exact (memory_wf_iff _).2 ⟨hm.1, Table.wf_set (fun _ => (0 : Byte)) _ _ _ hm.2.1, hm.2.2⟩
    · exact (memory_wf_iff _).2 hm

theorem opPutAll_wf (d : Dev) (h a : Nat) (bs : List Byte) (hm : Memory.wf d.mem = true) :
    Memory.wf (opPutAll d h a bs).mem = true := by
  induction bs generalizing d a with
  | nil => exact hm
  | cons b r ih => exact ih _ _ (opPut_wf d h a b hm)

theorem dropFrame_wf (t : Table Byte) (pfn : Nat) (h : Table.wf (fun _ => (0 : Byte)) t = true) :
    Table.wf (fun _ => (0 : Byte)) (dropFrame t pfn) = true := Table.wf_filter _ t _ h

theorem giveFrame_wf (d : Dev) (pfn owner : Nat) (hm : Memory.wf d.mem = true) :
    Memory.wf (giveFrame d pfn owner).mem = true := by
  rw [memory_wf_iff] at *
  exact ⟨hm.1, hm.2.1, dropFrame_wf _ _ hm.2.2⟩

theorem freeFrame_wf (d : Dev) (pfn : Nat) (hm : Memory.wf d.mem = true) : Memory.wf (freeFrame d pfn).mem = true :=
  memory_wf_of_eq _ _ hm rfl rfl rfl

theorem granWhole_wf (d : Dev) (gran key : Nat) (hm : Memory.wf d.mem = true) : Memory.wf (granWhole d gran key).mem = true :=
  memory_wf_of_eq _ _ hm rfl rfl rfl

theorem clearHearth_wf (d : Dev) (h : Nat) (hm : Memory.wf d.mem = true) : Memory.wf (clearHearth d h).mem = true := by
  rw [memory_wf_iff] at *
  exact ⟨Table.wf_filter _ _ _ hm.1, hm.2⟩

theorem loadWeights_wf (d : Dev) (b : Copybook) (hm : Memory.wf d.mem = true) : Memory.wf (loadWeights d b).mem = true := by
  rw [memory_wf_iff] at *
  refine ⟨?_, ?_, hm.2.2⟩
  · unfold loadWeights
    dsimp only
    generalize b.weights.filter (fun w => w.1) = l
    exact Table.wf_foldl_set (0 : Byte) l _ _ _ hm.1
  · unfold loadWeights
    dsimp only
    generalize b.weights.filter (fun w => !w.1) = l
    exact Table.wf_foldl_set (0 : Byte) l _ _ _ hm.2.1

theorem flagLines_wf (d : Dev) (next : List LineRun) (hm : Memory.wf d.mem = true) : Memory.wf (flagLines d next).mem = true := by
  rw [memory_wf_iff] at *
  exact ⟨Table.wf_filter _ _ _ hm.1, Table.wf_filter _ _ _ hm.2.1, hm.2.2⟩

theorem pokeDva_wf (d : Dev) (app a : Nat) (bs : List Byte) (hm : Memory.wf d.mem = true) :
    Memory.wf (pokeDva d app a bs).mem = true := by
  rw [memory_wf_iff] at *
  refine ⟨hm.1, hm.2.1, ?_⟩
  refine List.foldlRecOn (motive := fun t : Table Byte => Table.wf (fun _ => (0 : Byte)) t = true) _ _ hm.2.2 (fun t ht x _ => ?_)
  dsimp only
  split
  · exact Table.wf_set (fun _ => (0 : Byte)) t _ _ ht
  · exact ht

theorem writeSlotHalf_wf (d : Dev) (r : VarRec) (s : Nat) (b : Bool) (masters : List Word) (hm : Memory.wf d.mem = true) :
    Memory.wf (writeSlotHalf d r s b masters).mem = true := by
  rw [memory_wf_iff] at *
  refine ⟨hm.1, ?_, hm.2.2⟩
  unfold writeSlotHalf
  dsimp only
  generalize ((masters.take (r.nLayers * r.width)).zipIdx) = l
  exact List.foldlRecOn (motive := fun t : Table Byte => Table.wf (fun _ => (0 : Byte)) t = true) l _ hm.2.1
    (fun t ht x _ => writeBytes_wf t _ _ ht)

theorem copyFrame_mem (d : Dev) (f g : Nat) (hm : Memory.wf d.mem = true) :
    Table.wf (fun _ => (0 : Byte)) (((d.mem.ddr.filter (fun x => x.1 / frameSize == f)).map
      (fun x => (g * frameSize + x.1 % frameSize, x.2))).foldl (fun t x => t.set 0 x.1 x.2) (dropFrame d.mem.ddr g)) = true := by
  rw [memory_wf_iff] at hm
  exact Table.wf_foldl_set 0 _ (fun (x : Nat × Byte) => x.1) (fun x => x.2) _ (dropFrame_wf _ _ hm.2.2)

end Machine
end Sys2Proof
end

