-- ==== Sys2Proof/Laws/State.lean ====
section
/-!
SUPPORT. What each update of the device leaves alone: one lemma a field and update, so that no later proof unfolds a record
update; and the shared operations that meanings are built from.
-/
namespace Sys2Proof.Machine
open Sys2Proof

/-! ## The shared operations of the meanings -/

/-- All that a meaning on the device alone can do. -/
theorem onDev_next (s t : State) (f : Dev → Dev) : onDev s f = .next t ↔ t = { s with dev := f s.dev } := by
  simp only [onDev, Host.Outcome.next.injEq]; exact eq_comm
theorem onDev_not_fault (s : State) (f : Dev → Dev) (r : Fault) : onDev s f ≠ .fault r := by simp [onDev]
theorem onDev_not_refused (s : State) (f : Dev → Dev) (r : Refusal) : onDev s f ≠ .refused r := by simp [onDev]

/-- All that a meaning on the device and on what outlives a start can do. -/
theorem onBoth_next (s t : State) (f : Nv → Dev → Nv × Dev) :
    onBoth s f = .next t ↔ t = { s with nv := (f s.nv s.dev).1, dev := (f s.nv s.dev).2 } := by
  simp only [onBoth, Host.Outcome.next.injEq]; exact eq_comm

/-- A meaning that checks unit numbers acts where they are the device's, and faults where they are not. -/
theorem onDevIf_true (b : Bool) (s : State) (f : Dev → Dev) (h : b = true) : onDevIf b s f = .next { s with dev := f s.dev } := by
  simp [onDevIf, onDev, h]
theorem onDevIf_false (b : Bool) (s : State) (f : Dev → Dev) (h : b = false) : onDevIf b s f = .fault .noSuchUnit := by
  simp [onDevIf, h]
theorem onDevIf_next (b : Bool) (s t : State) (f : Dev → Dev) :
    onDevIf b s f = .next t ↔ b = true ∧ t = { s with dev := f s.dev } := by
  cases b
  · simp [onDevIf]
  · simp only [onDevIf, if_true, onDev_next, true_and]

/-- An update of a scalar entry leaves every other entry alone. -/
theorem reg_setReg_ne (d : Dev) (i j i' j' v : Nat) (h : entry i' j' ≠ entry i j) : reg (setReg d i j v) i' j' = reg d i' j' := by
  unfold reg setReg
  exact Table.get_set_ne _ _ _ _ _ _ h

/-- A scalar entry reads back what it was set to. -/
@[simp] theorem reg_setReg_self (d : Dev) (i j v : Nat) : reg (setReg d i j v) i j = v := by
  unfold reg setReg
  exact Table.get_set_self _ _ _ _

/-- What every scalar entry reads after one was set. -/
theorem reg_setReg (d : Dev) (i j i' j' v : Nat) :
    reg (setReg d i j v) i' j' = if entry i' j' = entry i j then v else reg d i' j' := by
  split
  · rename_i h; unfold reg setReg; rw [h]; exact Table.get_set_self _ _ _ _
  · exact reg_setReg_ne d i j i' j' v ‹_›

/-! ## One lemma a field and update -/

@[simp] theorem atOff_ev (d : Dev) (o : Nat) : (atOff d o).ev = d.ev := rfl
@[simp] theorem atOff_ash (d : Dev) (o : Nat) : (atOff d o).ash = d.ash := rfl
@[simp] theorem atOff_epell (d : Dev) (o : Nat) : (atOff d o).epell = d.epell := rfl
@[simp] theorem atOff_pow (d : Dev) (o : Nat) : (atOff d o).pow = d.pow := rfl
@[simp] theorem atOff_hearth (d : Dev) (o : Nat) : (atOff d o).hearth = d.hearth := rfl
@[simp] theorem atOff_num (d : Dev) (o : Nat) : (atOff d o).num = d.num := rfl
@[simp] theorem atOff_mem (d : Dev) (o : Nat) : (atOff d o).mem = d.mem := rfl
@[simp] theorem atOff_ink (d : Dev) (o : Nat) : (atOff d o).ink = d.ink := rfl
@[simp] theorem atOff_gen (d : Dev) (o : Nat) : (atOff d o).gen = d.gen := rfl
@[simp] theorem atOff_train (d : Dev) (o : Nat) : (atOff d o).train = d.train := rfl
@[simp] theorem atOff_snap (d : Dev) (o : Nat) : (atOff d o).snap = d.snap := rfl
@[simp] theorem atOff_base (d : Dev) (o : Nat) : (atOff d o).base = d.base := rfl
@[simp] theorem atOff_baseGens (d : Dev) (o : Nat) : (atOff d o).baseGens = d.baseGens := rfl
@[simp] theorem atOff_nextOp (d : Dev) (o : Nat) : (atOff d o).nextOp = d.nextOp := rfl
@[simp] theorem atOff_lig (d : Dev) (o : Nat) : (atOff d o).lig = d.lig := rfl
@[simp] theorem atOff_keys (d : Dev) (o : Nat) : (atOff d o).keys = d.keys := rfl
@[simp] theorem atOff_sec (d : Dev) (o : Nat) : (atOff d o).sec = d.sec := rfl
@[simp] theorem atOff_regs (d : Dev) (o : Nat) : (atOff d o).regs = d.regs := rfl
@[simp] theorem atOff_waiting (d : Dev) (o : Nat) : (atOff d o).waiting = d.waiting := rfl
@[simp] theorem atOff_out (d : Dev) (o : Nat) : (atOff d o).out = d.out := rfl
@[simp] theorem atOff_held (d : Dev) (o : Nat) : (atOff d o).held = d.held := rfl
@[simp] theorem atOff_fresh (d : Dev) (o : Nat) : (atOff d o).fresh = d.fresh := rfl

@[simp] theorem emit_frame (d : Dev) (x : Out) : (emit d x).frame = d.frame := rfl
@[simp] theorem emit_ev (d : Dev) (x : Out) : (emit d x).ev = d.ev := rfl
@[simp] theorem emit_ash (d : Dev) (x : Out) : (emit d x).ash = d.ash := rfl
@[simp] theorem emit_epell (d : Dev) (x : Out) : (emit d x).epell = d.epell := rfl
@[simp] theorem emit_pow (d : Dev) (x : Out) : (emit d x).pow = d.pow := rfl
@[simp] theorem emit_hearth (d : Dev) (x : Out) : (emit d x).hearth = d.hearth := rfl
@[simp] theorem emit_num (d : Dev) (x : Out) : (emit d x).num = d.num := rfl
@[simp] theorem emit_mem (d : Dev) (x : Out) : (emit d x).mem = d.mem := rfl
@[simp] theorem emit_ink (d : Dev) (x : Out) : (emit d x).ink = d.ink := rfl
@[simp] theorem emit_gen (d : Dev) (x : Out) : (emit d x).gen = d.gen := rfl
@[simp] theorem emit_train (d : Dev) (x : Out) : (emit d x).train = d.train := rfl
@[simp] theorem emit_snap (d : Dev) (x : Out) : (emit d x).snap = d.snap := rfl
@[simp] theorem emit_base (d : Dev) (x : Out) : (emit d x).base = d.base := rfl
@[simp] theorem emit_baseGens (d : Dev) (x : Out) : (emit d x).baseGens = d.baseGens := rfl
@[simp] theorem emit_nextOp (d : Dev) (x : Out) : (emit d x).nextOp = d.nextOp := rfl
@[simp] theorem emit_lig (d : Dev) (x : Out) : (emit d x).lig = d.lig := rfl
@[simp] theorem emit_keys (d : Dev) (x : Out) : (emit d x).keys = d.keys := rfl
@[simp] theorem emit_sec (d : Dev) (x : Out) : (emit d x).sec = d.sec := rfl
@[simp] theorem emit_regs (d : Dev) (x : Out) : (emit d x).regs = d.regs := rfl
@[simp] theorem emit_waiting (d : Dev) (x : Out) : (emit d x).waiting = d.waiting := rfl
@[simp] theorem emit_held (d : Dev) (x : Out) : (emit d x).held = d.held := rfl
@[simp] theorem emit_fresh (d : Dev) (x : Out) : (emit d x).fresh = d.fresh := rfl

@[simp] theorem setReg_frame (d : Dev) (i j v : Nat) : (setReg d i j v).frame = d.frame := rfl
@[simp] theorem setReg_ev (d : Dev) (i j v : Nat) : (setReg d i j v).ev = d.ev := rfl
@[simp] theorem setReg_ash (d : Dev) (i j v : Nat) : (setReg d i j v).ash = d.ash := rfl
@[simp] theorem setReg_epell (d : Dev) (i j v : Nat) : (setReg d i j v).epell = d.epell := rfl
@[simp] theorem setReg_pow (d : Dev) (i j v : Nat) : (setReg d i j v).pow = d.pow := rfl
@[simp] theorem setReg_hearth (d : Dev) (i j v : Nat) : (setReg d i j v).hearth = d.hearth := rfl
@[simp] theorem setReg_num (d : Dev) (i j v : Nat) : (setReg d i j v).num = d.num := rfl
@[simp] theorem setReg_mem (d : Dev) (i j v : Nat) : (setReg d i j v).mem = d.mem := rfl
@[simp] theorem setReg_ink (d : Dev) (i j v : Nat) : (setReg d i j v).ink = d.ink := rfl
@[simp] theorem setReg_gen (d : Dev) (i j v : Nat) : (setReg d i j v).gen = d.gen := rfl
@[simp] theorem setReg_train (d : Dev) (i j v : Nat) : (setReg d i j v).train = d.train := rfl
@[simp] theorem setReg_snap (d : Dev) (i j v : Nat) : (setReg d i j v).snap = d.snap := rfl
@[simp] theorem setReg_base (d : Dev) (i j v : Nat) : (setReg d i j v).base = d.base := rfl
@[simp] theorem setReg_baseGens (d : Dev) (i j v : Nat) : (setReg d i j v).baseGens = d.baseGens := rfl
@[simp] theorem setReg_nextOp (d : Dev) (i j v : Nat) : (setReg d i j v).nextOp = d.nextOp := rfl
@[simp] theorem setReg_lig (d : Dev) (i j v : Nat) : (setReg d i j v).lig = d.lig := rfl
@[simp] theorem setReg_keys (d : Dev) (i j v : Nat) : (setReg d i j v).keys = d.keys := rfl
@[simp] theorem setReg_sec (d : Dev) (i j v : Nat) : (setReg d i j v).sec = d.sec := rfl
@[simp] theorem setReg_waiting (d : Dev) (i j v : Nat) : (setReg d i j v).waiting = d.waiting := rfl
@[simp] theorem setReg_out (d : Dev) (i j v : Nat) : (setReg d i j v).out = d.out := rfl
@[simp] theorem setReg_held (d : Dev) (i j v : Nat) : (setReg d i j v).held = d.held := rfl
@[simp] theorem setReg_fresh (d : Dev) (i j v : Nat) : (setReg d i j v).fresh = d.fresh := rfl

@[simp] theorem bump_frame (d : Dev) (i j v : Nat) : (bump d i j v).frame = d.frame := rfl
@[simp] theorem bump_ev (d : Dev) (i j v : Nat) : (bump d i j v).ev = d.ev := rfl
@[simp] theorem bump_ash (d : Dev) (i j v : Nat) : (bump d i j v).ash = d.ash := rfl
@[simp] theorem bump_epell (d : Dev) (i j v : Nat) : (bump d i j v).epell = d.epell := rfl
@[simp] theorem bump_pow (d : Dev) (i j v : Nat) : (bump d i j v).pow = d.pow := rfl
@[simp] theorem bump_hearth (d : Dev) (i j v : Nat) : (bump d i j v).hearth = d.hearth := rfl
@[simp] theorem bump_num (d : Dev) (i j v : Nat) : (bump d i j v).num = d.num := rfl
@[simp] theorem bump_mem (d : Dev) (i j v : Nat) : (bump d i j v).mem = d.mem := rfl
@[simp] theorem bump_ink (d : Dev) (i j v : Nat) : (bump d i j v).ink = d.ink := rfl
@[simp] theorem bump_gen (d : Dev) (i j v : Nat) : (bump d i j v).gen = d.gen := rfl
@[simp] theorem bump_train (d : Dev) (i j v : Nat) : (bump d i j v).train = d.train := rfl
@[simp] theorem bump_snap (d : Dev) (i j v : Nat) : (bump d i j v).snap = d.snap := rfl
@[simp] theorem bump_base (d : Dev) (i j v : Nat) : (bump d i j v).base = d.base := rfl
@[simp] theorem bump_baseGens (d : Dev) (i j v : Nat) : (bump d i j v).baseGens = d.baseGens := rfl
@[simp] theorem bump_nextOp (d : Dev) (i j v : Nat) : (bump d i j v).nextOp = d.nextOp := rfl
@[simp] theorem bump_lig (d : Dev) (i j v : Nat) : (bump d i j v).lig = d.lig := rfl
@[simp] theorem bump_keys (d : Dev) (i j v : Nat) : (bump d i j v).keys = d.keys := rfl
@[simp] theorem bump_sec (d : Dev) (i j v : Nat) : (bump d i j v).sec = d.sec := rfl
@[simp] theorem bump_waiting (d : Dev) (i j v : Nat) : (bump d i j v).waiting = d.waiting := rfl
@[simp] theorem bump_out (d : Dev) (i j v : Nat) : (bump d i j v).out = d.out := rfl
@[simp] theorem bump_held (d : Dev) (i j v : Nat) : (bump d i j v).held = d.held := rfl
@[simp] theorem bump_fresh (d : Dev) (i j v : Nat) : (bump d i j v).fresh = d.fresh := rfl

@[simp] theorem bumpPart_frame (d : Dev) (i j v : Nat) : (bumpPart d i j v).frame = d.frame := rfl
@[simp] theorem bumpPart_ev (d : Dev) (i j v : Nat) : (bumpPart d i j v).ev = d.ev := rfl
@[simp] theorem bumpPart_ash (d : Dev) (i j v : Nat) : (bumpPart d i j v).ash = d.ash := rfl
@[simp] theorem bumpPart_epell (d : Dev) (i j v : Nat) : (bumpPart d i j v).epell = d.epell := rfl
@[simp] theorem bumpPart_pow (d : Dev) (i j v : Nat) : (bumpPart d i j v).pow = d.pow := rfl
@[simp] theorem bumpPart_hearth (d : Dev) (i j v : Nat) : (bumpPart d i j v).hearth = d.hearth := rfl
@[simp] theorem bumpPart_num (d : Dev) (i j v : Nat) : (bumpPart d i j v).num = d.num := rfl
@[simp] theorem bumpPart_mem (d : Dev) (i j v : Nat) : (bumpPart d i j v).mem = d.mem := rfl
@[simp] theorem bumpPart_ink (d : Dev) (i j v : Nat) : (bumpPart d i j v).ink = d.ink := rfl
@[simp] theorem bumpPart_gen (d : Dev) (i j v : Nat) : (bumpPart d i j v).gen = d.gen := rfl
@[simp] theorem bumpPart_train (d : Dev) (i j v : Nat) : (bumpPart d i j v).train = d.train := rfl
@[simp] theorem bumpPart_snap (d : Dev) (i j v : Nat) : (bumpPart d i j v).snap = d.snap := rfl
@[simp] theorem bumpPart_base (d : Dev) (i j v : Nat) : (bumpPart d i j v).base = d.base := rfl
@[simp] theorem bumpPart_baseGens (d : Dev) (i j v : Nat) : (bumpPart d i j v).baseGens = d.baseGens := rfl
@[simp] theorem bumpPart_nextOp (d : Dev) (i j v : Nat) : (bumpPart d i j v).nextOp = d.nextOp := rfl
@[simp] theorem bumpPart_lig (d : Dev) (i j v : Nat) : (bumpPart d i j v).lig = d.lig := rfl
@[simp] theorem bumpPart_keys (d : Dev) (i j v : Nat) : (bumpPart d i j v).keys = d.keys := rfl
@[simp] theorem bumpPart_sec (d : Dev) (i j v : Nat) : (bumpPart d i j v).sec = d.sec := rfl
@[simp] theorem bumpPart_waiting (d : Dev) (i j v : Nat) : (bumpPart d i j v).waiting = d.waiting := rfl
@[simp] theorem bumpPart_out (d : Dev) (i j v : Nat) : (bumpPart d i j v).out = d.out := rfl
@[simp] theorem bumpPart_held (d : Dev) (i j v : Nat) : (bumpPart d i j v).held = d.held := rfl
@[simp] theorem bumpPart_fresh (d : Dev) (i j v : Nat) : (bumpPart d i j v).fresh = d.fresh := rfl

@[simp] theorem setSource_frame (d : Dev) (n : Nat) (q : Source) : (setSource d n q).frame = d.frame := rfl
@[simp] theorem setSource_ash (d : Dev) (n : Nat) (q : Source) : (setSource d n q).ash = d.ash := rfl
@[simp] theorem setSource_epell (d : Dev) (n : Nat) (q : Source) : (setSource d n q).epell = d.epell := rfl
@[simp] theorem setSource_pow (d : Dev) (n : Nat) (q : Source) : (setSource d n q).pow = d.pow := rfl
@[simp] theorem setSource_hearth (d : Dev) (n : Nat) (q : Source) : (setSource d n q).hearth = d.hearth := rfl
@[simp] theorem setSource_num (d : Dev) (n : Nat) (q : Source) : (setSource d n q).num = d.num := rfl
@[simp] theorem setSource_mem (d : Dev) (n : Nat) (q : Source) : (setSource d n q).mem = d.mem := rfl
@[simp] theorem setSource_ink (d : Dev) (n : Nat) (q : Source) : (setSource d n q).ink = d.ink := rfl
@[simp] theorem setSource_gen (d : Dev) (n : Nat) (q : Source) : (setSource d n q).gen = d.gen := rfl
@[simp] theorem setSource_train (d : Dev) (n : Nat) (q : Source) : (setSource d n q).train = d.train := rfl
@[simp] theorem setSource_snap (d : Dev) (n : Nat) (q : Source) : (setSource d n q).snap = d.snap := rfl
@[simp] theorem setSource_base (d : Dev) (n : Nat) (q : Source) : (setSource d n q).base = d.base := rfl
@[simp] theorem setSource_baseGens (d : Dev) (n : Nat) (q : Source) : (setSource d n q).baseGens = d.baseGens := rfl
@[simp] theorem setSource_nextOp (d : Dev) (n : Nat) (q : Source) : (setSource d n q).nextOp = d.nextOp := rfl
@[simp] theorem setSource_lig (d : Dev) (n : Nat) (q : Source) : (setSource d n q).lig = d.lig := rfl
@[simp] theorem setSource_keys (d : Dev) (n : Nat) (q : Source) : (setSource d n q).keys = d.keys := rfl
@[simp] theorem setSource_sec (d : Dev) (n : Nat) (q : Source) : (setSource d n q).sec = d.sec := rfl
@[simp] theorem setSource_regs (d : Dev) (n : Nat) (q : Source) : (setSource d n q).regs = d.regs := rfl
@[simp] theorem setSource_waiting (d : Dev) (n : Nat) (q : Source) : (setSource d n q).waiting = d.waiting := rfl
@[simp] theorem setSource_out (d : Dev) (n : Nat) (q : Source) : (setSource d n q).out = d.out := rfl
@[simp] theorem setSource_held (d : Dev) (n : Nat) (q : Source) : (setSource d n q).held = d.held := rfl
@[simp] theorem setSource_fresh (d : Dev) (n : Nat) (q : Source) : (setSource d n q).fresh = d.fresh := rfl

@[simp] theorem setRing_frame (d : Dev) (n : Nat) (c : BitVec 256) : (setRing d n c).frame = d.frame := rfl
@[simp] theorem setRing_ash (d : Dev) (n : Nat) (c : BitVec 256) : (setRing d n c).ash = d.ash := rfl
@[simp] theorem setRing_epell (d : Dev) (n : Nat) (c : BitVec 256) : (setRing d n c).epell = d.epell := rfl
@[simp] theorem setRing_pow (d : Dev) (n : Nat) (c : BitVec 256) : (setRing d n c).pow = d.pow := rfl
@[simp] theorem setRing_hearth (d : Dev) (n : Nat) (c : BitVec 256) : (setRing d n c).hearth = d.hearth := rfl
@[simp] theorem setRing_num (d : Dev) (n : Nat) (c : BitVec 256) : (setRing d n c).num = d.num := rfl
@[simp] theorem setRing_mem (d : Dev) (n : Nat) (c : BitVec 256) : (setRing d n c).mem = d.mem := rfl
@[simp] theorem setRing_ink (d : Dev) (n : Nat) (c : BitVec 256) : (setRing d n c).ink = d.ink := rfl
@[simp] theorem setRing_gen (d : Dev) (n : Nat) (c : BitVec 256) : (setRing d n c).gen = d.gen := rfl
@[simp] theorem setRing_train (d : Dev) (n : Nat) (c : BitVec 256) : (setRing d n c).train = d.train := rfl
@[simp] theorem setRing_snap (d : Dev) (n : Nat) (c : BitVec 256) : (setRing d n c).snap = d.snap := rfl
@[simp] theorem setRing_base (d : Dev) (n : Nat) (c : BitVec 256) : (setRing d n c).base = d.base := rfl
@[simp] theorem setRing_baseGens (d : Dev) (n : Nat) (c : BitVec 256) : (setRing d n c).baseGens = d.baseGens := rfl
@[simp] theorem setRing_nextOp (d : Dev) (n : Nat) (c : BitVec 256) : (setRing d n c).nextOp = d.nextOp := rfl
@[simp] theorem setRing_lig (d : Dev) (n : Nat) (c : BitVec 256) : (setRing d n c).lig = d.lig := rfl
@[simp] theorem setRing_keys (d : Dev) (n : Nat) (c : BitVec 256) : (setRing d n c).keys = d.keys := rfl
@[simp] theorem setRing_sec (d : Dev) (n : Nat) (c : BitVec 256) : (setRing d n c).sec = d.sec := rfl
@[simp] theorem setRing_regs (d : Dev) (n : Nat) (c : BitVec 256) : (setRing d n c).regs = d.regs := rfl
@[simp] theorem setRing_waiting (d : Dev) (n : Nat) (c : BitVec 256) : (setRing d n c).waiting = d.waiting := rfl
@[simp] theorem setRing_out (d : Dev) (n : Nat) (c : BitVec 256) : (setRing d n c).out = d.out := rfl
@[simp] theorem setRing_held (d : Dev) (n : Nat) (c : BitVec 256) : (setRing d n c).held = d.held := rfl
@[simp] theorem setRing_fresh (d : Dev) (n : Nat) (c : BitVec 256) : (setRing d n c).fresh = d.fresh := rfl

@[simp] theorem ringPush_frame (d : Dev) (n : Nat) (l : List Byte) : (ringPush d n l).frame = d.frame := by simp [ringPush]
@[simp] theorem ringPush_ash (d : Dev) (n : Nat) (l : List Byte) : (ringPush d n l).ash = d.ash := by simp [ringPush]
@[simp] theorem ringPush_epell (d : Dev) (n : Nat) (l : List Byte) : (ringPush d n l).epell = d.epell := by simp [ringPush]
@[simp] theorem ringPush_pow (d : Dev) (n : Nat) (l : List Byte) : (ringPush d n l).pow = d.pow := by simp [ringPush]
@[simp] theorem ringPush_hearth (d : Dev) (n : Nat) (l : List Byte) : (ringPush d n l).hearth = d.hearth := by simp [ringPush]
@[simp] theorem ringPush_num (d : Dev) (n : Nat) (l : List Byte) : (ringPush d n l).num = d.num := by simp [ringPush]
@[simp] theorem ringPush_mem (d : Dev) (n : Nat) (l : List Byte) : (ringPush d n l).mem = d.mem := by simp [ringPush]
@[simp] theorem ringPush_ink (d : Dev) (n : Nat) (l : List Byte) : (ringPush d n l).ink = d.ink := by simp [ringPush]
@[simp] theorem ringPush_gen (d : Dev) (n : Nat) (l : List Byte) : (ringPush d n l).gen = d.gen := by simp [ringPush]
@[simp] theorem ringPush_train (d : Dev) (n : Nat) (l : List Byte) : (ringPush d n l).train = d.train := by simp [ringPush]
@[simp] theorem ringPush_snap (d : Dev) (n : Nat) (l : List Byte) : (ringPush d n l).snap = d.snap := by simp [ringPush]
@[simp] theorem ringPush_base (d : Dev) (n : Nat) (l : List Byte) : (ringPush d n l).base = d.base := by simp [ringPush]
@[simp] theorem ringPush_baseGens (d : Dev) (n : Nat) (l : List Byte) : (ringPush d n l).baseGens = d.baseGens := by simp [ringPush]
@[simp] theorem ringPush_nextOp (d : Dev) (n : Nat) (l : List Byte) : (ringPush d n l).nextOp = d.nextOp := by simp [ringPush]
@[simp] theorem ringPush_lig (d : Dev) (n : Nat) (l : List Byte) : (ringPush d n l).lig = d.lig := by simp [ringPush]
@[simp] theorem ringPush_keys (d : Dev) (n : Nat) (l : List Byte) : (ringPush d n l).keys = d.keys := by simp [ringPush]
@[simp] theorem ringPush_sec (d : Dev) (n : Nat) (l : List Byte) : (ringPush d n l).sec = d.sec := by simp [ringPush]
@[simp] theorem ringPush_regs (d : Dev) (n : Nat) (l : List Byte) : (ringPush d n l).regs = d.regs := by simp [ringPush]
@[simp] theorem ringPush_waiting (d : Dev) (n : Nat) (l : List Byte) : (ringPush d n l).waiting = d.waiting := by simp [ringPush]
@[simp] theorem ringPush_out (d : Dev) (n : Nat) (l : List Byte) : (ringPush d n l).out = d.out := by simp [ringPush]
@[simp] theorem ringPush_held (d : Dev) (n : Nat) (l : List Byte) : (ringPush d n l).held = d.held := by simp [ringPush]
@[simp] theorem ringPush_fresh (d : Dev) (n : Nat) (l : List Byte) : (ringPush d n l).fresh = d.fresh := by simp [ringPush]

@[simp] theorem setFrame_ev (d : Dev) (f : FrameS → FrameS) : (setFrame d f).ev = d.ev := rfl
@[simp] theorem setFrame_ash (d : Dev) (f : FrameS → FrameS) : (setFrame d f).ash = d.ash := rfl
@[simp] theorem setFrame_epell (d : Dev) (f : FrameS → FrameS) : (setFrame d f).epell = d.epell := rfl
@[simp] theorem setFrame_pow (d : Dev) (f : FrameS → FrameS) : (setFrame d f).pow = d.pow := rfl
@[simp] theorem setFrame_hearth (d : Dev) (f : FrameS → FrameS) : (setFrame d f).hearth = d.hearth := rfl
@[simp] theorem setFrame_num (d : Dev) (f : FrameS → FrameS) : (setFrame d f).num = d.num := rfl
@[simp] theorem setFrame_mem (d : Dev) (f : FrameS → FrameS) : (setFrame d f).mem = d.mem := rfl
@[simp] theorem setFrame_ink (d : Dev) (f : FrameS → FrameS) : (setFrame d f).ink = d.ink := rfl
@[simp] theorem setFrame_gen (d : Dev) (f : FrameS → FrameS) : (setFrame d f).gen = d.gen := rfl
@[simp] theorem setFrame_train (d : Dev) (f : FrameS → FrameS) : (setFrame d f).train = d.train := rfl
@[simp] theorem setFrame_snap (d : Dev) (f : FrameS → FrameS) : (setFrame d f).snap = d.snap := rfl
@[simp] theorem setFrame_base (d : Dev) (f : FrameS → FrameS) : (setFrame d f).base = d.base := rfl
@[simp] theorem setFrame_baseGens (d : Dev) (f : FrameS → FrameS) : (setFrame d f).baseGens = d.baseGens := rfl
@[simp] theorem setFrame_nextOp (d : Dev) (f : FrameS → FrameS) : (setFrame d f).nextOp = d.nextOp := rfl
@[simp] theorem setFrame_lig (d : Dev) (f : FrameS → FrameS) : (setFrame d f).lig = d.lig := rfl
@[simp] theorem setFrame_keys (d : Dev) (f : FrameS → FrameS) : (setFrame d f).keys = d.keys := rfl
@[simp] theorem setFrame_sec (d : Dev) (f : FrameS → FrameS) : (setFrame d f).sec = d.sec := rfl
@[simp] theorem setFrame_regs (d : Dev) (f : FrameS → FrameS) : (setFrame d f).regs = d.regs := rfl
@[simp] theorem setFrame_waiting (d : Dev) (f : FrameS → FrameS) : (setFrame d f).waiting = d.waiting := rfl
@[simp] theorem setFrame_out (d : Dev) (f : FrameS → FrameS) : (setFrame d f).out = d.out := rfl
@[simp] theorem setFrame_held (d : Dev) (f : FrameS → FrameS) : (setFrame d f).held = d.held := rfl
@[simp] theorem setFrame_fresh (d : Dev) (f : FrameS → FrameS) : (setFrame d f).fresh = d.fresh := rfl

@[simp] theorem setPow_frame (d : Dev) (f : PowS → PowS) : (setPow d f).frame = d.frame := rfl
@[simp] theorem setPow_ev (d : Dev) (f : PowS → PowS) : (setPow d f).ev = d.ev := rfl
@[simp] theorem setPow_ash (d : Dev) (f : PowS → PowS) : (setPow d f).ash = d.ash := rfl
@[simp] theorem setPow_epell (d : Dev) (f : PowS → PowS) : (setPow d f).epell = d.epell := rfl
@[simp] theorem setPow_hearth (d : Dev) (f : PowS → PowS) : (setPow d f).hearth = d.hearth := rfl
@[simp] theorem setPow_num (d : Dev) (f : PowS → PowS) : (setPow d f).num = d.num := rfl
@[simp] theorem setPow_mem (d : Dev) (f : PowS → PowS) : (setPow d f).mem = d.mem := rfl
@[simp] theorem setPow_ink (d : Dev) (f : PowS → PowS) : (setPow d f).ink = d.ink := rfl
@[simp] theorem setPow_gen (d : Dev) (f : PowS → PowS) : (setPow d f).gen = d.gen := rfl
@[simp] theorem setPow_train (d : Dev) (f : PowS → PowS) : (setPow d f).train = d.train := rfl
@[simp] theorem setPow_snap (d : Dev) (f : PowS → PowS) : (setPow d f).snap = d.snap := rfl
@[simp] theorem setPow_base (d : Dev) (f : PowS → PowS) : (setPow d f).base = d.base := rfl
@[simp] theorem setPow_baseGens (d : Dev) (f : PowS → PowS) : (setPow d f).baseGens = d.baseGens := rfl
@[simp] theorem setPow_nextOp (d : Dev) (f : PowS → PowS) : (setPow d f).nextOp = d.nextOp := rfl
@[simp] theorem setPow_lig (d : Dev) (f : PowS → PowS) : (setPow d f).lig = d.lig := rfl
@[simp] theorem setPow_keys (d : Dev) (f : PowS → PowS) : (setPow d f).keys = d.keys := rfl
@[simp] theorem setPow_sec (d : Dev) (f : PowS → PowS) : (setPow d f).sec = d.sec := rfl
@[simp] theorem setPow_regs (d : Dev) (f : PowS → PowS) : (setPow d f).regs = d.regs := rfl
@[simp] theorem setPow_waiting (d : Dev) (f : PowS → PowS) : (setPow d f).waiting = d.waiting := rfl
@[simp] theorem setPow_out (d : Dev) (f : PowS → PowS) : (setPow d f).out = d.out := rfl
@[simp] theorem setPow_held (d : Dev) (f : PowS → PowS) : (setPow d f).held = d.held := rfl
@[simp] theorem setPow_fresh (d : Dev) (f : PowS → PowS) : (setPow d f).fresh = d.fresh := rfl

@[simp] theorem setReqs_frame (d : Dev) (l : List GenReq) : (setReqs d l).frame = d.frame := rfl
@[simp] theorem setReqs_ev (d : Dev) (l : List GenReq) : (setReqs d l).ev = d.ev := rfl
@[simp] theorem setReqs_ash (d : Dev) (l : List GenReq) : (setReqs d l).ash = d.ash := rfl
@[simp] theorem setReqs_epell (d : Dev) (l : List GenReq) : (setReqs d l).epell = d.epell := rfl
@[simp] theorem setReqs_pow (d : Dev) (l : List GenReq) : (setReqs d l).pow = d.pow := rfl
@[simp] theorem setReqs_hearth (d : Dev) (l : List GenReq) : (setReqs d l).hearth = d.hearth := rfl
@[simp] theorem setReqs_num (d : Dev) (l : List GenReq) : (setReqs d l).num = d.num := rfl
@[simp] theorem setReqs_mem (d : Dev) (l : List GenReq) : (setReqs d l).mem = d.mem := rfl
@[simp] theorem setReqs_ink (d : Dev) (l : List GenReq) : (setReqs d l).ink = d.ink := rfl
@[simp] theorem setReqs_train (d : Dev) (l : List GenReq) : (setReqs d l).train = d.train := rfl
@[simp] theorem setReqs_snap (d : Dev) (l : List GenReq) : (setReqs d l).snap = d.snap := rfl
@[simp] theorem setReqs_base (d : Dev) (l : List GenReq) : (setReqs d l).base = d.base := rfl
@[simp] theorem setReqs_baseGens (d : Dev) (l : List GenReq) : (setReqs d l).baseGens = d.baseGens := rfl
@[simp] theorem setReqs_nextOp (d : Dev) (l : List GenReq) : (setReqs d l).nextOp = d.nextOp := rfl
@[simp] theorem setReqs_lig (d : Dev) (l : List GenReq) : (setReqs d l).lig = d.lig := rfl
@[simp] theorem setReqs_keys (d : Dev) (l : List GenReq) : (setReqs d l).keys = d.keys := rfl
@[simp] theorem setReqs_sec (d : Dev) (l : List GenReq) : (setReqs d l).sec = d.sec := rfl
@[simp] theorem setReqs_regs (d : Dev) (l : List GenReq) : (setReqs d l).regs = d.regs := rfl
@[simp] theorem setReqs_waiting (d : Dev) (l : List GenReq) : (setReqs d l).waiting = d.waiting := rfl
@[simp] theorem setReqs_out (d : Dev) (l : List GenReq) : (setReqs d l).out = d.out := rfl
@[simp] theorem setReqs_held (d : Dev) (l : List GenReq) : (setReqs d l).held = d.held := rfl
@[simp] theorem setReqs_fresh (d : Dev) (l : List GenReq) : (setReqs d l).fresh = d.fresh := rfl

@[simp] theorem setReq_frame (d : Dev) (q : GenReq) : (setReq d q).frame = d.frame := rfl
@[simp] theorem setReq_ev (d : Dev) (q : GenReq) : (setReq d q).ev = d.ev := rfl
@[simp] theorem setReq_ash (d : Dev) (q : GenReq) : (setReq d q).ash = d.ash := rfl
@[simp] theorem setReq_epell (d : Dev) (q : GenReq) : (setReq d q).epell = d.epell := rfl
@[simp] theorem setReq_pow (d : Dev) (q : GenReq) : (setReq d q).pow = d.pow := rfl
@[simp] theorem setReq_hearth (d : Dev) (q : GenReq) : (setReq d q).hearth = d.hearth := rfl
@[simp] theorem setReq_num (d : Dev) (q : GenReq) : (setReq d q).num = d.num := rfl
@[simp] theorem setReq_mem (d : Dev) (q : GenReq) : (setReq d q).mem = d.mem := rfl
@[simp] theorem setReq_ink (d : Dev) (q : GenReq) : (setReq d q).ink = d.ink := rfl
@[simp] theorem setReq_train (d : Dev) (q : GenReq) : (setReq d q).train = d.train := rfl
@[simp] theorem setReq_snap (d : Dev) (q : GenReq) : (setReq d q).snap = d.snap := rfl
@[simp] theorem setReq_base (d : Dev) (q : GenReq) : (setReq d q).base = d.base := rfl
@[simp] theorem setReq_baseGens (d : Dev) (q : GenReq) : (setReq d q).baseGens = d.baseGens := rfl
@[simp] theorem setReq_nextOp (d : Dev) (q : GenReq) : (setReq d q).nextOp = d.nextOp := rfl
@[simp] theorem setReq_lig (d : Dev) (q : GenReq) : (setReq d q).lig = d.lig := rfl
@[simp] theorem setReq_keys (d : Dev) (q : GenReq) : (setReq d q).keys = d.keys := rfl
@[simp] theorem setReq_sec (d : Dev) (q : GenReq) : (setReq d q).sec = d.sec := rfl
@[simp] theorem setReq_regs (d : Dev) (q : GenReq) : (setReq d q).regs = d.regs := rfl
@[simp] theorem setReq_waiting (d : Dev) (q : GenReq) : (setReq d q).waiting = d.waiting := rfl
@[simp] theorem setReq_out (d : Dev) (q : GenReq) : (setReq d q).out = d.out := rfl
@[simp] theorem setReq_held (d : Dev) (q : GenReq) : (setReq d q).held = d.held := rfl
@[simp] theorem setReq_fresh (d : Dev) (q : GenReq) : (setReq d q).fresh = d.fresh := rfl

@[simp] theorem setPool_frame (d : Dev) (a k : Nat) (l : List Nat) : (setPool d a k l).frame = d.frame := rfl
@[simp] theorem setPool_ev (d : Dev) (a k : Nat) (l : List Nat) : (setPool d a k l).ev = d.ev := rfl
@[simp] theorem setPool_ash (d : Dev) (a k : Nat) (l : List Nat) : (setPool d a k l).ash = d.ash := rfl
@[simp] theorem setPool_epell (d : Dev) (a k : Nat) (l : List Nat) : (setPool d a k l).epell = d.epell := rfl
@[simp] theorem setPool_pow (d : Dev) (a k : Nat) (l : List Nat) : (setPool d a k l).pow = d.pow := rfl
@[simp] theorem setPool_hearth (d : Dev) (a k : Nat) (l : List Nat) : (setPool d a k l).hearth = d.hearth := rfl
@[simp] theorem setPool_num (d : Dev) (a k : Nat) (l : List Nat) : (setPool d a k l).num = d.num := rfl
@[simp] theorem setPool_mem (d : Dev) (a k : Nat) (l : List Nat) : (setPool d a k l).mem = d.mem := rfl
@[simp] theorem setPool_ink (d : Dev) (a k : Nat) (l : List Nat) : (setPool d a k l).ink = d.ink := rfl
@[simp] theorem setPool_train (d : Dev) (a k : Nat) (l : List Nat) : (setPool d a k l).train = d.train := rfl
@[simp] theorem setPool_snap (d : Dev) (a k : Nat) (l : List Nat) : (setPool d a k l).snap = d.snap := rfl
@[simp] theorem setPool_base (d : Dev) (a k : Nat) (l : List Nat) : (setPool d a k l).base = d.base := rfl
@[simp] theorem setPool_baseGens (d : Dev) (a k : Nat) (l : List Nat) : (setPool d a k l).baseGens = d.baseGens := rfl
@[simp] theorem setPool_nextOp (d : Dev) (a k : Nat) (l : List Nat) : (setPool d a k l).nextOp = d.nextOp := rfl
@[simp] theorem setPool_lig (d : Dev) (a k : Nat) (l : List Nat) : (setPool d a k l).lig = d.lig := rfl
@[simp] theorem setPool_keys (d : Dev) (a k : Nat) (l : List Nat) : (setPool d a k l).keys = d.keys := rfl
@[simp] theorem setPool_sec (d : Dev) (a k : Nat) (l : List Nat) : (setPool d a k l).sec = d.sec := rfl
@[simp] theorem setPool_regs (d : Dev) (a k : Nat) (l : List Nat) : (setPool d a k l).regs = d.regs := rfl
@[simp] theorem setPool_waiting (d : Dev) (a k : Nat) (l : List Nat) : (setPool d a k l).waiting = d.waiting := rfl
@[simp] theorem setPool_out (d : Dev) (a k : Nat) (l : List Nat) : (setPool d a k l).out = d.out := rfl
@[simp] theorem setPool_held (d : Dev) (a k : Nat) (l : List Nat) : (setPool d a k l).held = d.held := rfl
@[simp] theorem setPool_fresh (d : Dev) (a k : Nat) (l : List Nat) : (setPool d a k l).fresh = d.fresh := rfl

@[simp] theorem addResp_frame (d : Dev) (r : Resp) : (addResp d r).frame = d.frame := rfl
@[simp] theorem addResp_ev (d : Dev) (r : Resp) : (addResp d r).ev = d.ev := rfl
@[simp] theorem addResp_ash (d : Dev) (r : Resp) : (addResp d r).ash = d.ash := rfl
@[simp] theorem addResp_epell (d : Dev) (r : Resp) : (addResp d r).epell = d.epell := rfl
@[simp] theorem addResp_pow (d : Dev) (r : Resp) : (addResp d r).pow = d.pow := rfl
@[simp] theorem addResp_hearth (d : Dev) (r : Resp) : (addResp d r).hearth = d.hearth := rfl
@[simp] theorem addResp_num (d : Dev) (r : Resp) : (addResp d r).num = d.num := rfl
@[simp] theorem addResp_mem (d : Dev) (r : Resp) : (addResp d r).mem = d.mem := rfl
@[simp] theorem addResp_ink (d : Dev) (r : Resp) : (addResp d r).ink = d.ink := rfl
@[simp] theorem addResp_train (d : Dev) (r : Resp) : (addResp d r).train = d.train := rfl
@[simp] theorem addResp_snap (d : Dev) (r : Resp) : (addResp d r).snap = d.snap := rfl
@[simp] theorem addResp_base (d : Dev) (r : Resp) : (addResp d r).base = d.base := rfl
@[simp] theorem addResp_baseGens (d : Dev) (r : Resp) : (addResp d r).baseGens = d.baseGens := rfl
@[simp] theorem addResp_nextOp (d : Dev) (r : Resp) : (addResp d r).nextOp = d.nextOp := rfl
@[simp] theorem addResp_lig (d : Dev) (r : Resp) : (addResp d r).lig = d.lig := rfl
@[simp] theorem addResp_keys (d : Dev) (r : Resp) : (addResp d r).keys = d.keys := rfl
@[simp] theorem addResp_sec (d : Dev) (r : Resp) : (addResp d r).sec = d.sec := rfl
@[simp] theorem addResp_regs (d : Dev) (r : Resp) : (addResp d r).regs = d.regs := rfl
@[simp] theorem addResp_waiting (d : Dev) (r : Resp) : (addResp d r).waiting = d.waiting := rfl
@[simp] theorem addResp_out (d : Dev) (r : Resp) : (addResp d r).out = d.out := rfl
@[simp] theorem addResp_held (d : Dev) (r : Resp) : (addResp d r).held = d.held := rfl
@[simp] theorem addResp_fresh (d : Dev) (r : Resp) : (addResp d r).fresh = d.fresh := rfl

@[simp] theorem setFilter_frame (d : Dev) (k : Nat) (l : List Replay) : (setFilter d k l).frame = d.frame := rfl
@[simp] theorem setFilter_ev (d : Dev) (k : Nat) (l : List Replay) : (setFilter d k l).ev = d.ev := rfl
@[simp] theorem setFilter_ash (d : Dev) (k : Nat) (l : List Replay) : (setFilter d k l).ash = d.ash := rfl
@[simp] theorem setFilter_epell (d : Dev) (k : Nat) (l : List Replay) : (setFilter d k l).epell = d.epell := rfl
@[simp] theorem setFilter_pow (d : Dev) (k : Nat) (l : List Replay) : (setFilter d k l).pow = d.pow := rfl
@[simp] theorem setFilter_hearth (d : Dev) (k : Nat) (l : List Replay) : (setFilter d k l).hearth = d.hearth := rfl
@[simp] theorem setFilter_num (d : Dev) (k : Nat) (l : List Replay) : (setFilter d k l).num = d.num := rfl
@[simp] theorem setFilter_mem (d : Dev) (k : Nat) (l : List Replay) : (setFilter d k l).mem = d.mem := rfl
@[simp] theorem setFilter_ink (d : Dev) (k : Nat) (l : List Replay) : (setFilter d k l).ink = d.ink := rfl
@[simp] theorem setFilter_train (d : Dev) (k : Nat) (l : List Replay) : (setFilter d k l).train = d.train := rfl
@[simp] theorem setFilter_snap (d : Dev) (k : Nat) (l : List Replay) : (setFilter d k l).snap = d.snap := rfl
@[simp] theorem setFilter_base (d : Dev) (k : Nat) (l : List Replay) : (setFilter d k l).base = d.base := rfl
@[simp] theorem setFilter_baseGens (d : Dev) (k : Nat) (l : List Replay) : (setFilter d k l).baseGens = d.baseGens := rfl
@[simp] theorem setFilter_nextOp (d : Dev) (k : Nat) (l : List Replay) : (setFilter d k l).nextOp = d.nextOp := rfl
@[simp] theorem setFilter_lig (d : Dev) (k : Nat) (l : List Replay) : (setFilter d k l).lig = d.lig := rfl
@[simp] theorem setFilter_keys (d : Dev) (k : Nat) (l : List Replay) : (setFilter d k l).keys = d.keys := rfl
@[simp] theorem setFilter_sec (d : Dev) (k : Nat) (l : List Replay) : (setFilter d k l).sec = d.sec := rfl
@[simp] theorem setFilter_regs (d : Dev) (k : Nat) (l : List Replay) : (setFilter d k l).regs = d.regs := rfl
@[simp] theorem setFilter_waiting (d : Dev) (k : Nat) (l : List Replay) : (setFilter d k l).waiting = d.waiting := rfl
@[simp] theorem setFilter_out (d : Dev) (k : Nat) (l : List Replay) : (setFilter d k l).out = d.out := rfl
@[simp] theorem setFilter_held (d : Dev) (k : Nat) (l : List Replay) : (setFilter d k l).held = d.held := rfl
@[simp] theorem setFilter_fresh (d : Dev) (k : Nat) (l : List Replay) : (setFilter d k l).fresh = d.fresh := rfl

@[simp] theorem setApp_frame (d : Dev) (a : Nat) (x : App) : (setApp d a x).frame = d.frame := rfl
@[simp] theorem setApp_ev (d : Dev) (a : Nat) (x : App) : (setApp d a x).ev = d.ev := rfl
@[simp] theorem setApp_ash (d : Dev) (a : Nat) (x : App) : (setApp d a x).ash = d.ash := rfl
@[simp] theorem setApp_epell (d : Dev) (a : Nat) (x : App) : (setApp d a x).epell = d.epell := rfl
@[simp] theorem setApp_pow (d : Dev) (a : Nat) (x : App) : (setApp d a x).pow = d.pow := rfl
@[simp] theorem setApp_hearth (d : Dev) (a : Nat) (x : App) : (setApp d a x).hearth = d.hearth := rfl
@[simp] theorem setApp_num (d : Dev) (a : Nat) (x : App) : (setApp d a x).num = d.num := rfl
@[simp] theorem setApp_mem (d : Dev) (a : Nat) (x : App) : (setApp d a x).mem = d.mem := rfl
@[simp] theorem setApp_ink (d : Dev) (a : Nat) (x : App) : (setApp d a x).ink = d.ink := rfl
@[simp] theorem setApp_train (d : Dev) (a : Nat) (x : App) : (setApp d a x).train = d.train := rfl
@[simp] theorem setApp_snap (d : Dev) (a : Nat) (x : App) : (setApp d a x).snap = d.snap := rfl
@[simp] theorem setApp_base (d : Dev) (a : Nat) (x : App) : (setApp d a x).base = d.base := rfl
@[simp] theorem setApp_baseGens (d : Dev) (a : Nat) (x : App) : (setApp d a x).baseGens = d.baseGens := rfl
@[simp] theorem setApp_nextOp (d : Dev) (a : Nat) (x : App) : (setApp d a x).nextOp = d.nextOp := rfl
@[simp] theorem setApp_lig (d : Dev) (a : Nat) (x : App) : (setApp d a x).lig = d.lig := rfl
@[simp] theorem setApp_keys (d : Dev) (a : Nat) (x : App) : (setApp d a x).keys = d.keys := rfl
@[simp] theorem setApp_sec (d : Dev) (a : Nat) (x : App) : (setApp d a x).sec = d.sec := rfl
@[simp] theorem setApp_regs (d : Dev) (a : Nat) (x : App) : (setApp d a x).regs = d.regs := rfl
@[simp] theorem setApp_waiting (d : Dev) (a : Nat) (x : App) : (setApp d a x).waiting = d.waiting := rfl
@[simp] theorem setApp_out (d : Dev) (a : Nat) (x : App) : (setApp d a x).out = d.out := rfl
@[simp] theorem setApp_held (d : Dev) (a : Nat) (x : App) : (setApp d a x).held = d.held := rfl
@[simp] theorem setApp_fresh (d : Dev) (a : Nat) (x : App) : (setApp d a x).fresh = d.fresh := rfl

@[simp] theorem setKey_frame (d : Dev) (k : Nat) (x : KeySlot) : (setKey d k x).frame = d.frame := rfl
@[simp] theorem setKey_ev (d : Dev) (k : Nat) (x : KeySlot) : (setKey d k x).ev = d.ev := rfl
@[simp] theorem setKey_ash (d : Dev) (k : Nat) (x : KeySlot) : (setKey d k x).ash = d.ash := rfl
@[simp] theorem setKey_epell (d : Dev) (k : Nat) (x : KeySlot) : (setKey d k x).epell = d.epell := rfl
@[simp] theorem setKey_pow (d : Dev) (k : Nat) (x : KeySlot) : (setKey d k x).pow = d.pow := rfl
@[simp] theorem setKey_hearth (d : Dev) (k : Nat) (x : KeySlot) : (setKey d k x).hearth = d.hearth := rfl
@[simp] theorem setKey_num (d : Dev) (k : Nat) (x : KeySlot) : (setKey d k x).num = d.num := rfl
@[simp] theorem setKey_mem (d : Dev) (k : Nat) (x : KeySlot) : (setKey d k x).mem = d.mem := rfl
@[simp] theorem setKey_ink (d : Dev) (k : Nat) (x : KeySlot) : (setKey d k x).ink = d.ink := rfl
@[simp] theorem setKey_gen (d : Dev) (k : Nat) (x : KeySlot) : (setKey d k x).gen = d.gen := rfl
@[simp] theorem setKey_train (d : Dev) (k : Nat) (x : KeySlot) : (setKey d k x).train = d.train := rfl
@[simp] theorem setKey_snap (d : Dev) (k : Nat) (x : KeySlot) : (setKey d k x).snap = d.snap := rfl
@[simp] theorem setKey_base (d : Dev) (k : Nat) (x : KeySlot) : (setKey d k x).base = d.base := rfl
@[simp] theorem setKey_baseGens (d : Dev) (k : Nat) (x : KeySlot) : (setKey d k x).baseGens = d.baseGens := rfl
@[simp] theorem setKey_nextOp (d : Dev) (k : Nat) (x : KeySlot) : (setKey d k x).nextOp = d.nextOp := rfl
@[simp] theorem setKey_lig (d : Dev) (k : Nat) (x : KeySlot) : (setKey d k x).lig = d.lig := rfl
@[simp] theorem setKey_sec (d : Dev) (k : Nat) (x : KeySlot) : (setKey d k x).sec = d.sec := rfl
@[simp] theorem setKey_regs (d : Dev) (k : Nat) (x : KeySlot) : (setKey d k x).regs = d.regs := rfl
@[simp] theorem setKey_waiting (d : Dev) (k : Nat) (x : KeySlot) : (setKey d k x).waiting = d.waiting := rfl
@[simp] theorem setKey_out (d : Dev) (k : Nat) (x : KeySlot) : (setKey d k x).out = d.out := rfl
@[simp] theorem setKey_held (d : Dev) (k : Nat) (x : KeySlot) : (setKey d k x).held = d.held := rfl
@[simp] theorem setKey_fresh (d : Dev) (k : Nat) (x : KeySlot) : (setKey d k x).fresh = d.fresh := rfl

@[simp] theorem setSlot_frame (d : Dev) (n : Nat) (e : Slot) : (setSlot d n e).frame = d.frame := rfl
@[simp] theorem setSlot_ev (d : Dev) (n : Nat) (e : Slot) : (setSlot d n e).ev = d.ev := rfl
@[simp] theorem setSlot_ash (d : Dev) (n : Nat) (e : Slot) : (setSlot d n e).ash = d.ash := rfl
@[simp] theorem setSlot_epell (d : Dev) (n : Nat) (e : Slot) : (setSlot d n e).epell = d.epell := rfl
@[simp] theorem setSlot_pow (d : Dev) (n : Nat) (e : Slot) : (setSlot d n e).pow = d.pow := rfl
@[simp] theorem setSlot_hearth (d : Dev) (n : Nat) (e : Slot) : (setSlot d n e).hearth = d.hearth := rfl
@[simp] theorem setSlot_num (d : Dev) (n : Nat) (e : Slot) : (setSlot d n e).num = d.num := rfl
@[simp] theorem setSlot_mem (d : Dev) (n : Nat) (e : Slot) : (setSlot d n e).mem = d.mem := rfl
@[simp] theorem setSlot_gen (d : Dev) (n : Nat) (e : Slot) : (setSlot d n e).gen = d.gen := rfl
@[simp] theorem setSlot_train (d : Dev) (n : Nat) (e : Slot) : (setSlot d n e).train = d.train := rfl
@[simp] theorem setSlot_snap (d : Dev) (n : Nat) (e : Slot) : (setSlot d n e).snap = d.snap := rfl
@[simp] theorem setSlot_base (d : Dev) (n : Nat) (e : Slot) : (setSlot d n e).base = d.base := rfl
@[simp] theorem setSlot_baseGens (d : Dev) (n : Nat) (e : Slot) : (setSlot d n e).baseGens = d.baseGens := rfl
@[simp] theorem setSlot_nextOp (d : Dev) (n : Nat) (e : Slot) : (setSlot d n e).nextOp = d.nextOp := rfl
@[simp] theorem setSlot_lig (d : Dev) (n : Nat) (e : Slot) : (setSlot d n e).lig = d.lig := rfl
@[simp] theorem setSlot_keys (d : Dev) (n : Nat) (e : Slot) : (setSlot d n e).keys = d.keys := rfl
@[simp] theorem setSlot_sec (d : Dev) (n : Nat) (e : Slot) : (setSlot d n e).sec = d.sec := rfl
@[simp] theorem setSlot_regs (d : Dev) (n : Nat) (e : Slot) : (setSlot d n e).regs = d.regs := rfl
@[simp] theorem setSlot_waiting (d : Dev) (n : Nat) (e : Slot) : (setSlot d n e).waiting = d.waiting := rfl
@[simp] theorem setSlot_out (d : Dev) (n : Nat) (e : Slot) : (setSlot d n e).out = d.out := rfl
@[simp] theorem setSlot_held (d : Dev) (n : Nat) (e : Slot) : (setSlot d n e).held = d.held := rfl
@[simp] theorem setSlot_fresh (d : Dev) (n : Nat) (e : Slot) : (setSlot d n e).fresh = d.fresh := rfl

@[simp] theorem setVariant_frame (d : Dev) (v : Nat) (r : Option VarRec) : (setVariant d v r).frame = d.frame := rfl
@[simp] theorem setVariant_ev (d : Dev) (v : Nat) (r : Option VarRec) : (setVariant d v r).ev = d.ev := rfl
@[simp] theorem setVariant_ash (d : Dev) (v : Nat) (r : Option VarRec) : (setVariant d v r).ash = d.ash := rfl
@[simp] theorem setVariant_epell (d : Dev) (v : Nat) (r : Option VarRec) : (setVariant d v r).epell = d.epell := rfl
@[simp] theorem setVariant_pow (d : Dev) (v : Nat) (r : Option VarRec) : (setVariant d v r).pow = d.pow := rfl
@[simp] theorem setVariant_hearth (d : Dev) (v : Nat) (r : Option VarRec) : (setVariant d v r).hearth = d.hearth := rfl
@[simp] theorem setVariant_num (d : Dev) (v : Nat) (r : Option VarRec) : (setVariant d v r).num = d.num := rfl
@[simp] theorem setVariant_mem (d : Dev) (v : Nat) (r : Option VarRec) : (setVariant d v r).mem = d.mem := rfl
@[simp] theorem setVariant_gen (d : Dev) (v : Nat) (r : Option VarRec) : (setVariant d v r).gen = d.gen := rfl
@[simp] theorem setVariant_train (d : Dev) (v : Nat) (r : Option VarRec) : (setVariant d v r).train = d.train := rfl
@[simp] theorem setVariant_snap (d : Dev) (v : Nat) (r : Option VarRec) : (setVariant d v r).snap = d.snap := rfl
@[simp] theorem setVariant_base (d : Dev) (v : Nat) (r : Option VarRec) : (setVariant d v r).base = d.base := rfl
@[simp] theorem setVariant_baseGens (d : Dev) (v : Nat) (r : Option VarRec) : (setVariant d v r).baseGens = d.baseGens := rfl
@[simp] theorem setVariant_nextOp (d : Dev) (v : Nat) (r : Option VarRec) : (setVariant d v r).nextOp = d.nextOp := rfl
@[simp] theorem setVariant_lig (d : Dev) (v : Nat) (r : Option VarRec) : (setVariant d v r).lig = d.lig := rfl
@[simp] theorem setVariant_keys (d : Dev) (v : Nat) (r : Option VarRec) : (setVariant d v r).keys = d.keys := rfl
@[simp] theorem setVariant_sec (d : Dev) (v : Nat) (r : Option VarRec) : (setVariant d v r).sec = d.sec := rfl
@[simp] theorem setVariant_regs (d : Dev) (v : Nat) (r : Option VarRec) : (setVariant d v r).regs = d.regs := rfl
@[simp] theorem setVariant_waiting (d : Dev) (v : Nat) (r : Option VarRec) : (setVariant d v r).waiting = d.waiting := rfl
@[simp] theorem setVariant_out (d : Dev) (v : Nat) (r : Option VarRec) : (setVariant d v r).out = d.out := rfl
@[simp] theorem setVariant_held (d : Dev) (v : Nat) (r : Option VarRec) : (setVariant d v r).held = d.held := rfl
@[simp] theorem setVariant_fresh (d : Dev) (v : Nat) (r : Option VarRec) : (setVariant d v r).fresh = d.fresh := rfl

@[simp] theorem setAnswer_frame (d : Dev) (a : SlotAnswer) : (setAnswer d a).frame = d.frame := rfl
@[simp] theorem setAnswer_ev (d : Dev) (a : SlotAnswer) : (setAnswer d a).ev = d.ev := rfl
@[simp] theorem setAnswer_ash (d : Dev) (a : SlotAnswer) : (setAnswer d a).ash = d.ash := rfl
@[simp] theorem setAnswer_epell (d : Dev) (a : SlotAnswer) : (setAnswer d a).epell = d.epell := rfl
@[simp] theorem setAnswer_pow (d : Dev) (a : SlotAnswer) : (setAnswer d a).pow = d.pow := rfl
@[simp] theorem setAnswer_hearth (d : Dev) (a : SlotAnswer) : (setAnswer d a).hearth = d.hearth := rfl
@[simp] theorem setAnswer_num (d : Dev) (a : SlotAnswer) : (setAnswer d a).num = d.num := rfl
@[simp] theorem setAnswer_mem (d : Dev) (a : SlotAnswer) : (setAnswer d a).mem = d.mem := rfl
@[simp] theorem setAnswer_gen (d : Dev) (a : SlotAnswer) : (setAnswer d a).gen = d.gen := rfl
@[simp] theorem setAnswer_train (d : Dev) (a : SlotAnswer) : (setAnswer d a).train = d.train := rfl
@[simp] theorem setAnswer_snap (d : Dev) (a : SlotAnswer) : (setAnswer d a).snap = d.snap := rfl
@[simp] theorem setAnswer_base (d : Dev) (a : SlotAnswer) : (setAnswer d a).base = d.base := rfl
@[simp] theorem setAnswer_baseGens (d : Dev) (a : SlotAnswer) : (setAnswer d a).baseGens = d.baseGens := rfl
@[simp] theorem setAnswer_nextOp (d : Dev) (a : SlotAnswer) : (setAnswer d a).nextOp = d.nextOp := rfl
@[simp] theorem setAnswer_lig (d : Dev) (a : SlotAnswer) : (setAnswer d a).lig = d.lig := rfl
@[simp] theorem setAnswer_keys (d : Dev) (a : SlotAnswer) : (setAnswer d a).keys = d.keys := rfl
@[simp] theorem setAnswer_sec (d : Dev) (a : SlotAnswer) : (setAnswer d a).sec = d.sec := rfl
@[simp] theorem setAnswer_regs (d : Dev) (a : SlotAnswer) : (setAnswer d a).regs = d.regs := rfl
@[simp] theorem setAnswer_waiting (d : Dev) (a : SlotAnswer) : (setAnswer d a).waiting = d.waiting := rfl
@[simp] theorem setAnswer_out (d : Dev) (a : SlotAnswer) : (setAnswer d a).out = d.out := rfl
@[simp] theorem setAnswer_held (d : Dev) (a : SlotAnswer) : (setAnswer d a).held = d.held := rfl
@[simp] theorem setAnswer_fresh (d : Dev) (a : SlotAnswer) : (setAnswer d a).fresh = d.fresh := rfl

@[simp] theorem setBinds_frame (d : Dev) (l : List Bind) : (setBinds d l).frame = d.frame := rfl
@[simp] theorem setBinds_ev (d : Dev) (l : List Bind) : (setBinds d l).ev = d.ev := rfl
@[simp] theorem setBinds_ash (d : Dev) (l : List Bind) : (setBinds d l).ash = d.ash := rfl
@[simp] theorem setBinds_epell (d : Dev) (l : List Bind) : (setBinds d l).epell = d.epell := rfl
@[simp] theorem setBinds_pow (d : Dev) (l : List Bind) : (setBinds d l).pow = d.pow := rfl
@[simp] theorem setBinds_hearth (d : Dev) (l : List Bind) : (setBinds d l).hearth = d.hearth := rfl
@[simp] theorem setBinds_num (d : Dev) (l : List Bind) : (setBinds d l).num = d.num := rfl
@[simp] theorem setBinds_mem (d : Dev) (l : List Bind) : (setBinds d l).mem = d.mem := rfl
@[simp] theorem setBinds_gen (d : Dev) (l : List Bind) : (setBinds d l).gen = d.gen := rfl
@[simp] theorem setBinds_train (d : Dev) (l : List Bind) : (setBinds d l).train = d.train := rfl
@[simp] theorem setBinds_snap (d : Dev) (l : List Bind) : (setBinds d l).snap = d.snap := rfl
@[simp] theorem setBinds_base (d : Dev) (l : List Bind) : (setBinds d l).base = d.base := rfl
@[simp] theorem setBinds_baseGens (d : Dev) (l : List Bind) : (setBinds d l).baseGens = d.baseGens := rfl
@[simp] theorem setBinds_nextOp (d : Dev) (l : List Bind) : (setBinds d l).nextOp = d.nextOp := rfl
@[simp] theorem setBinds_lig (d : Dev) (l : List Bind) : (setBinds d l).lig = d.lig := rfl
@[simp] theorem setBinds_keys (d : Dev) (l : List Bind) : (setBinds d l).keys = d.keys := rfl
@[simp] theorem setBinds_sec (d : Dev) (l : List Bind) : (setBinds d l).sec = d.sec := rfl
@[simp] theorem setBinds_regs (d : Dev) (l : List Bind) : (setBinds d l).regs = d.regs := rfl
@[simp] theorem setBinds_waiting (d : Dev) (l : List Bind) : (setBinds d l).waiting = d.waiting := rfl
@[simp] theorem setBinds_out (d : Dev) (l : List Bind) : (setBinds d l).out = d.out := rfl
@[simp] theorem setBinds_held (d : Dev) (l : List Bind) : (setBinds d l).held = d.held := rfl
@[simp] theorem setBinds_fresh (d : Dev) (l : List Bind) : (setBinds d l).fresh = d.fresh := rfl

@[simp] theorem setPort_frame (d : Dev) (p : Nat) (x : PortS) : (setPort d p x).frame = d.frame := rfl
@[simp] theorem setPort_ev (d : Dev) (p : Nat) (x : PortS) : (setPort d p x).ev = d.ev := rfl
@[simp] theorem setPort_ash (d : Dev) (p : Nat) (x : PortS) : (setPort d p x).ash = d.ash := rfl
@[simp] theorem setPort_epell (d : Dev) (p : Nat) (x : PortS) : (setPort d p x).epell = d.epell := rfl
@[simp] theorem setPort_pow (d : Dev) (p : Nat) (x : PortS) : (setPort d p x).pow = d.pow := rfl
@[simp] theorem setPort_hearth (d : Dev) (p : Nat) (x : PortS) : (setPort d p x).hearth = d.hearth := rfl
@[simp] theorem setPort_num (d : Dev) (p : Nat) (x : PortS) : (setPort d p x).num = d.num := rfl
@[simp] theorem setPort_mem (d : Dev) (p : Nat) (x : PortS) : (setPort d p x).mem = d.mem := rfl
@[simp] theorem setPort_ink (d : Dev) (p : Nat) (x : PortS) : (setPort d p x).ink = d.ink := rfl
@[simp] theorem setPort_gen (d : Dev) (p : Nat) (x : PortS) : (setPort d p x).gen = d.gen := rfl
@[simp] theorem setPort_train (d : Dev) (p : Nat) (x : PortS) : (setPort d p x).train = d.train := rfl
@[simp] theorem setPort_snap (d : Dev) (p : Nat) (x : PortS) : (setPort d p x).snap = d.snap := rfl
@[simp] theorem setPort_base (d : Dev) (p : Nat) (x : PortS) : (setPort d p x).base = d.base := rfl
@[simp] theorem setPort_baseGens (d : Dev) (p : Nat) (x : PortS) : (setPort d p x).baseGens = d.baseGens := rfl
@[simp] theorem setPort_nextOp (d : Dev) (p : Nat) (x : PortS) : (setPort d p x).nextOp = d.nextOp := rfl
@[simp] theorem setPort_keys (d : Dev) (p : Nat) (x : PortS) : (setPort d p x).keys = d.keys := rfl
@[simp] theorem setPort_sec (d : Dev) (p : Nat) (x : PortS) : (setPort d p x).sec = d.sec := rfl
@[simp] theorem setPort_regs (d : Dev) (p : Nat) (x : PortS) : (setPort d p x).regs = d.regs := rfl
@[simp] theorem setPort_waiting (d : Dev) (p : Nat) (x : PortS) : (setPort d p x).waiting = d.waiting := rfl
@[simp] theorem setPort_out (d : Dev) (p : Nat) (x : PortS) : (setPort d p x).out = d.out := rfl
@[simp] theorem setPort_held (d : Dev) (p : Nat) (x : PortS) : (setPort d p x).held = d.held := rfl
@[simp] theorem setPort_fresh (d : Dev) (p : Nat) (x : PortS) : (setPort d p x).fresh = d.fresh := rfl

@[simp] theorem setBase_frame (d : Dev) (a : Nat) (b : BaseS) : (setBase d a b).frame = d.frame := rfl
@[simp] theorem setBase_ev (d : Dev) (a : Nat) (b : BaseS) : (setBase d a b).ev = d.ev := rfl
@[simp] theorem setBase_ash (d : Dev) (a : Nat) (b : BaseS) : (setBase d a b).ash = d.ash := rfl
@[simp] theorem setBase_epell (d : Dev) (a : Nat) (b : BaseS) : (setBase d a b).epell = d.epell := rfl
@[simp] theorem setBase_pow (d : Dev) (a : Nat) (b : BaseS) : (setBase d a b).pow = d.pow := rfl
@[simp] theorem setBase_hearth (d : Dev) (a : Nat) (b : BaseS) : (setBase d a b).hearth = d.hearth := rfl
@[simp] theorem setBase_num (d : Dev) (a : Nat) (b : BaseS) : (setBase d a b).num = d.num := rfl
@[simp] theorem setBase_mem (d : Dev) (a : Nat) (b : BaseS) : (setBase d a b).mem = d.mem := rfl
@[simp] theorem setBase_ink (d : Dev) (a : Nat) (b : BaseS) : (setBase d a b).ink = d.ink := rfl
@[simp] theorem setBase_gen (d : Dev) (a : Nat) (b : BaseS) : (setBase d a b).gen = d.gen := rfl
@[simp] theorem setBase_train (d : Dev) (a : Nat) (b : BaseS) : (setBase d a b).train = d.train := rfl
@[simp] theorem setBase_snap (d : Dev) (a : Nat) (b : BaseS) : (setBase d a b).snap = d.snap := rfl
@[simp] theorem setBase_baseGens (d : Dev) (a : Nat) (b : BaseS) : (setBase d a b).baseGens = d.baseGens := rfl
@[simp] theorem setBase_nextOp (d : Dev) (a : Nat) (b : BaseS) : (setBase d a b).nextOp = d.nextOp := rfl
@[simp] theorem setBase_lig (d : Dev) (a : Nat) (b : BaseS) : (setBase d a b).lig = d.lig := rfl
@[simp] theorem setBase_keys (d : Dev) (a : Nat) (b : BaseS) : (setBase d a b).keys = d.keys := rfl
@[simp] theorem setBase_sec (d : Dev) (a : Nat) (b : BaseS) : (setBase d a b).sec = d.sec := rfl
@[simp] theorem setBase_waiting (d : Dev) (a : Nat) (b : BaseS) : (setBase d a b).waiting = d.waiting := rfl
@[simp] theorem setBase_out (d : Dev) (a : Nat) (b : BaseS) : (setBase d a b).out = d.out := rfl
@[simp] theorem setBase_held (d : Dev) (a : Nat) (b : BaseS) : (setBase d a b).held = d.held := rfl
@[simp] theorem setBase_fresh (d : Dev) (a : Nat) (b : BaseS) : (setBase d a b).fresh = d.fresh := rfl

@[simp] theorem setHalt_frame (d : Dev) (a : Nat) (h : Halt) : (setHalt d a h).frame = d.frame := rfl
@[simp] theorem setHalt_ev (d : Dev) (a : Nat) (h : Halt) : (setHalt d a h).ev = d.ev := rfl
@[simp] theorem setHalt_ash (d : Dev) (a : Nat) (h : Halt) : (setHalt d a h).ash = d.ash := rfl
@[simp] theorem setHalt_epell (d : Dev) (a : Nat) (h : Halt) : (setHalt d a h).epell = d.epell := rfl
@[simp] theorem setHalt_pow (d : Dev) (a : Nat) (h : Halt) : (setHalt d a h).pow = d.pow := rfl
@[simp] theorem setHalt_hearth (d : Dev) (a : Nat) (h : Halt) : (setHalt d a h).hearth = d.hearth := rfl
@[simp] theorem setHalt_num (d : Dev) (a : Nat) (h : Halt) : (setHalt d a h).num = d.num := rfl
@[simp] theorem setHalt_mem (d : Dev) (a : Nat) (h : Halt) : (setHalt d a h).mem = d.mem := rfl
@[simp] theorem setHalt_ink (d : Dev) (a : Nat) (h : Halt) : (setHalt d a h).ink = d.ink := rfl
@[simp] theorem setHalt_gen (d : Dev) (a : Nat) (h : Halt) : (setHalt d a h).gen = d.gen := rfl
@[simp] theorem setHalt_train (d : Dev) (a : Nat) (h : Halt) : (setHalt d a h).train = d.train := rfl
@[simp] theorem setHalt_snap (d : Dev) (a : Nat) (h : Halt) : (setHalt d a h).snap = d.snap := rfl
@[simp] theorem setHalt_base (d : Dev) (a : Nat) (h : Halt) : (setHalt d a h).base = d.base := rfl
@[simp] theorem setHalt_baseGens (d : Dev) (a : Nat) (h : Halt) : (setHalt d a h).baseGens = d.baseGens := rfl
@[simp] theorem setHalt_nextOp (d : Dev) (a : Nat) (h : Halt) : (setHalt d a h).nextOp = d.nextOp := rfl
@[simp] theorem setHalt_lig (d : Dev) (a : Nat) (h : Halt) : (setHalt d a h).lig = d.lig := rfl
@[simp] theorem setHalt_keys (d : Dev) (a : Nat) (h : Halt) : (setHalt d a h).keys = d.keys := rfl
@[simp] theorem setHalt_regs (d : Dev) (a : Nat) (h : Halt) : (setHalt d a h).regs = d.regs := rfl
@[simp] theorem setHalt_waiting (d : Dev) (a : Nat) (h : Halt) : (setHalt d a h).waiting = d.waiting := rfl
@[simp] theorem setHalt_out (d : Dev) (a : Nat) (h : Halt) : (setHalt d a h).out = d.out := rfl
@[simp] theorem setHalt_held (d : Dev) (a : Nat) (h : Halt) : (setHalt d a h).held = d.held := rfl
@[simp] theorem setHalt_fresh (d : Dev) (a : Nat) (h : Halt) : (setHalt d a h).fresh = d.fresh := rfl

@[simp] theorem timing_frame (d : Dev) (k i n : Nat) : (timing d k i n).frame = d.frame := rfl
@[simp] theorem timing_ev (d : Dev) (k i n : Nat) : (timing d k i n).ev = d.ev := rfl
@[simp] theorem timing_ash (d : Dev) (k i n : Nat) : (timing d k i n).ash = d.ash := rfl
@[simp] theorem timing_epell (d : Dev) (k i n : Nat) : (timing d k i n).epell = d.epell := rfl
@[simp] theorem timing_pow (d : Dev) (k i n : Nat) : (timing d k i n).pow = d.pow := rfl
@[simp] theorem timing_hearth (d : Dev) (k i n : Nat) : (timing d k i n).hearth = d.hearth := rfl
@[simp] theorem timing_num (d : Dev) (k i n : Nat) : (timing d k i n).num = d.num := rfl
@[simp] theorem timing_mem (d : Dev) (k i n : Nat) : (timing d k i n).mem = d.mem := rfl
@[simp] theorem timing_ink (d : Dev) (k i n : Nat) : (timing d k i n).ink = d.ink := rfl
@[simp] theorem timing_gen (d : Dev) (k i n : Nat) : (timing d k i n).gen = d.gen := rfl
@[simp] theorem timing_train (d : Dev) (k i n : Nat) : (timing d k i n).train = d.train := rfl
@[simp] theorem timing_snap (d : Dev) (k i n : Nat) : (timing d k i n).snap = d.snap := rfl
@[simp] theorem timing_base (d : Dev) (k i n : Nat) : (timing d k i n).base = d.base := rfl
@[simp] theorem timing_baseGens (d : Dev) (k i n : Nat) : (timing d k i n).baseGens = d.baseGens := rfl
@[simp] theorem timing_nextOp (d : Dev) (k i n : Nat) : (timing d k i n).nextOp = d.nextOp := rfl
@[simp] theorem timing_lig (d : Dev) (k i n : Nat) : (timing d k i n).lig = d.lig := rfl
@[simp] theorem timing_keys (d : Dev) (k i n : Nat) : (timing d k i n).keys = d.keys := rfl
@[simp] theorem timing_regs (d : Dev) (k i n : Nat) : (timing d k i n).regs = d.regs := rfl
@[simp] theorem timing_waiting (d : Dev) (k i n : Nat) : (timing d k i n).waiting = d.waiting := rfl
@[simp] theorem timing_out (d : Dev) (k i n : Nat) : (timing d k i n).out = d.out := rfl
@[simp] theorem timing_held (d : Dev) (k i n : Nat) : (timing d k i n).held = d.held := rfl
@[simp] theorem timing_fresh (d : Dev) (k i n : Nat) : (timing d k i n).fresh = d.fresh := rfl

@[simp] theorem setSem_frame (d : Dev) (c n v : Nat) : (setSem d c n v).frame = d.frame := rfl
@[simp] theorem setSem_ev (d : Dev) (c n v : Nat) : (setSem d c n v).ev = d.ev := rfl
@[simp] theorem setSem_ash (d : Dev) (c n v : Nat) : (setSem d c n v).ash = d.ash := rfl
@[simp] theorem setSem_epell (d : Dev) (c n v : Nat) : (setSem d c n v).epell = d.epell := rfl
@[simp] theorem setSem_pow (d : Dev) (c n v : Nat) : (setSem d c n v).pow = d.pow := rfl
@[simp] theorem setSem_hearth (d : Dev) (c n v : Nat) : (setSem d c n v).hearth = d.hearth := rfl
@[simp] theorem setSem_num (d : Dev) (c n v : Nat) : (setSem d c n v).num = d.num := rfl
@[simp] theorem setSem_ink (d : Dev) (c n v : Nat) : (setSem d c n v).ink = d.ink := rfl
@[simp] theorem setSem_gen (d : Dev) (c n v : Nat) : (setSem d c n v).gen = d.gen := rfl
@[simp] theorem setSem_train (d : Dev) (c n v : Nat) : (setSem d c n v).train = d.train := rfl
@[simp] theorem setSem_snap (d : Dev) (c n v : Nat) : (setSem d c n v).snap = d.snap := rfl
@[simp] theorem setSem_base (d : Dev) (c n v : Nat) : (setSem d c n v).base = d.base := rfl
@[simp] theorem setSem_baseGens (d : Dev) (c n v : Nat) : (setSem d c n v).baseGens = d.baseGens := rfl
@[simp] theorem setSem_nextOp (d : Dev) (c n v : Nat) : (setSem d c n v).nextOp = d.nextOp := rfl
@[simp] theorem setSem_lig (d : Dev) (c n v : Nat) : (setSem d c n v).lig = d.lig := rfl
@[simp] theorem setSem_keys (d : Dev) (c n v : Nat) : (setSem d c n v).keys = d.keys := rfl
@[simp] theorem setSem_sec (d : Dev) (c n v : Nat) : (setSem d c n v).sec = d.sec := rfl
@[simp] theorem setSem_regs (d : Dev) (c n v : Nat) : (setSem d c n v).regs = d.regs := rfl
@[simp] theorem setSem_waiting (d : Dev) (c n v : Nat) : (setSem d c n v).waiting = d.waiting := rfl
@[simp] theorem setSem_out (d : Dev) (c n v : Nat) : (setSem d c n v).out = d.out := rfl
@[simp] theorem setSem_held (d : Dev) (c n v : Nat) : (setSem d c n v).held = d.held := rfl
@[simp] theorem setSem_fresh (d : Dev) (c n v : Nat) : (setSem d c n v).fresh = d.fresh := rfl

@[simp] theorem setBring_frame (d : Dev) (c r : Nat) (v : BRing) : (setBring d c r v).frame = d.frame := rfl
@[simp] theorem setBring_ev (d : Dev) (c r : Nat) (v : BRing) : (setBring d c r v).ev = d.ev := rfl
@[simp] theorem setBring_ash (d : Dev) (c r : Nat) (v : BRing) : (setBring d c r v).ash = d.ash := rfl
@[simp] theorem setBring_epell (d : Dev) (c r : Nat) (v : BRing) : (setBring d c r v).epell = d.epell := rfl
@[simp] theorem setBring_pow (d : Dev) (c r : Nat) (v : BRing) : (setBring d c r v).pow = d.pow := rfl
@[simp] theorem setBring_hearth (d : Dev) (c r : Nat) (v : BRing) : (setBring d c r v).hearth = d.hearth := rfl
@[simp] theorem setBring_num (d : Dev) (c r : Nat) (v : BRing) : (setBring d c r v).num = d.num := rfl
@[simp] theorem setBring_ink (d : Dev) (c r : Nat) (v : BRing) : (setBring d c r v).ink = d.ink := rfl
@[simp] theorem setBring_gen (d : Dev) (c r : Nat) (v : BRing) : (setBring d c r v).gen = d.gen := rfl
@[simp] theorem setBring_train (d : Dev) (c r : Nat) (v : BRing) : (setBring d c r v).train = d.train := rfl
@[simp] theorem setBring_snap (d : Dev) (c r : Nat) (v : BRing) : (setBring d c r v).snap = d.snap := rfl
@[simp] theorem setBring_base (d : Dev) (c r : Nat) (v : BRing) : (setBring d c r v).base = d.base := rfl
@[simp] theorem setBring_baseGens (d : Dev) (c r : Nat) (v : BRing) : (setBring d c r v).baseGens = d.baseGens := rfl
@[simp] theorem setBring_nextOp (d : Dev) (c r : Nat) (v : BRing) : (setBring d c r v).nextOp = d.nextOp := rfl
@[simp] theorem setBring_lig (d : Dev) (c r : Nat) (v : BRing) : (setBring d c r v).lig = d.lig := rfl
@[simp] theorem setBring_keys (d : Dev) (c r : Nat) (v : BRing) : (setBring d c r v).keys = d.keys := rfl
@[simp] theorem setBring_sec (d : Dev) (c r : Nat) (v : BRing) : (setBring d c r v).sec = d.sec := rfl
@[simp] theorem setBring_regs (d : Dev) (c r : Nat) (v : BRing) : (setBring d c r v).regs = d.regs := rfl
@[simp] theorem setBring_waiting (d : Dev) (c r : Nat) (v : BRing) : (setBring d c r v).waiting = d.waiting := rfl
@[simp] theorem setBring_out (d : Dev) (c r : Nat) (v : BRing) : (setBring d c r v).out = d.out := rfl
@[simp] theorem setBring_held (d : Dev) (c r : Nat) (v : BRing) : (setBring d c r v).held = d.held := rfl
@[simp] theorem setBring_fresh (d : Dev) (c r : Nat) (v : BRing) : (setBring d c r v).fresh = d.fresh := rfl

@[simp] theorem setTe_frame (d : Dev) (c : Nat) (q : List Xfer) : (setTe d c q).frame = d.frame := rfl
@[simp] theorem setTe_ev (d : Dev) (c : Nat) (q : List Xfer) : (setTe d c q).ev = d.ev := rfl
@[simp] theorem setTe_ash (d : Dev) (c : Nat) (q : List Xfer) : (setTe d c q).ash = d.ash := rfl
@[simp] theorem setTe_epell (d : Dev) (c : Nat) (q : List Xfer) : (setTe d c q).epell = d.epell := rfl
@[simp] theorem setTe_pow (d : Dev) (c : Nat) (q : List Xfer) : (setTe d c q).pow = d.pow := rfl
@[simp] theorem setTe_hearth (d : Dev) (c : Nat) (q : List Xfer) : (setTe d c q).hearth = d.hearth := rfl
@[simp] theorem setTe_num (d : Dev) (c : Nat) (q : List Xfer) : (setTe d c q).num = d.num := rfl
@[simp] theorem setTe_ink (d : Dev) (c : Nat) (q : List Xfer) : (setTe d c q).ink = d.ink := rfl
@[simp] theorem setTe_gen (d : Dev) (c : Nat) (q : List Xfer) : (setTe d c q).gen = d.gen := rfl
@[simp] theorem setTe_train (d : Dev) (c : Nat) (q : List Xfer) : (setTe d c q).train = d.train := rfl
@[simp] theorem setTe_snap (d : Dev) (c : Nat) (q : List Xfer) : (setTe d c q).snap = d.snap := rfl
@[simp] theorem setTe_base (d : Dev) (c : Nat) (q : List Xfer) : (setTe d c q).base = d.base := rfl
@[simp] theorem setTe_baseGens (d : Dev) (c : Nat) (q : List Xfer) : (setTe d c q).baseGens = d.baseGens := rfl
@[simp] theorem setTe_nextOp (d : Dev) (c : Nat) (q : List Xfer) : (setTe d c q).nextOp = d.nextOp := rfl
@[simp] theorem setTe_lig (d : Dev) (c : Nat) (q : List Xfer) : (setTe d c q).lig = d.lig := rfl
@[simp] theorem setTe_keys (d : Dev) (c : Nat) (q : List Xfer) : (setTe d c q).keys = d.keys := rfl
@[simp] theorem setTe_sec (d : Dev) (c : Nat) (q : List Xfer) : (setTe d c q).sec = d.sec := rfl
@[simp] theorem setTe_regs (d : Dev) (c : Nat) (q : List Xfer) : (setTe d c q).regs = d.regs := rfl
@[simp] theorem setTe_waiting (d : Dev) (c : Nat) (q : List Xfer) : (setTe d c q).waiting = d.waiting := rfl
@[simp] theorem setTe_out (d : Dev) (c : Nat) (q : List Xfer) : (setTe d c q).out = d.out := rfl
@[simp] theorem setTe_held (d : Dev) (c : Nat) (q : List Xfer) : (setTe d c q).held = d.held := rfl
@[simp] theorem setTe_fresh (d : Dev) (c : Nat) (q : List Xfer) : (setTe d c q).fresh = d.fresh := rfl

@[simp] theorem setTile_frame (d : Dev) (k : Nat) (t : TileS) : (setTile d k t).frame = d.frame := rfl
@[simp] theorem setTile_ev (d : Dev) (k : Nat) (t : TileS) : (setTile d k t).ev = d.ev := rfl
@[simp] theorem setTile_ash (d : Dev) (k : Nat) (t : TileS) : (setTile d k t).ash = d.ash := rfl
@[simp] theorem setTile_epell (d : Dev) (k : Nat) (t : TileS) : (setTile d k t).epell = d.epell := rfl
@[simp] theorem setTile_pow (d : Dev) (k : Nat) (t : TileS) : (setTile d k t).pow = d.pow := rfl
@[simp] theorem setTile_num (d : Dev) (k : Nat) (t : TileS) : (setTile d k t).num = d.num := rfl
@[simp] theorem setTile_mem (d : Dev) (k : Nat) (t : TileS) : (setTile d k t).mem = d.mem := rfl
@[simp] theorem setTile_ink (d : Dev) (k : Nat) (t : TileS) : (setTile d k t).ink = d.ink := rfl
@[simp] theorem setTile_gen (d : Dev) (k : Nat) (t : TileS) : (setTile d k t).gen = d.gen := rfl
@[simp] theorem setTile_train (d : Dev) (k : Nat) (t : TileS) : (setTile d k t).train = d.train := rfl
@[simp] theorem setTile_snap (d : Dev) (k : Nat) (t : TileS) : (setTile d k t).snap = d.snap := rfl
@[simp] theorem setTile_base (d : Dev) (k : Nat) (t : TileS) : (setTile d k t).base = d.base := rfl
@[simp] theorem setTile_baseGens (d : Dev) (k : Nat) (t : TileS) : (setTile d k t).baseGens = d.baseGens := rfl
@[simp] theorem setTile_nextOp (d : Dev) (k : Nat) (t : TileS) : (setTile d k t).nextOp = d.nextOp := rfl
@[simp] theorem setTile_lig (d : Dev) (k : Nat) (t : TileS) : (setTile d k t).lig = d.lig := rfl
@[simp] theorem setTile_keys (d : Dev) (k : Nat) (t : TileS) : (setTile d k t).keys = d.keys := rfl
@[simp] theorem setTile_sec (d : Dev) (k : Nat) (t : TileS) : (setTile d k t).sec = d.sec := rfl
@[simp] theorem setTile_regs (d : Dev) (k : Nat) (t : TileS) : (setTile d k t).regs = d.regs := rfl
@[simp] theorem setTile_waiting (d : Dev) (k : Nat) (t : TileS) : (setTile d k t).waiting = d.waiting := rfl
@[simp] theorem setTile_out (d : Dev) (k : Nat) (t : TileS) : (setTile d k t).out = d.out := rfl
@[simp] theorem setTile_held (d : Dev) (k : Nat) (t : TileS) : (setTile d k t).held = d.held := rfl
@[simp] theorem setTile_fresh (d : Dev) (k : Nat) (t : TileS) : (setTile d k t).fresh = d.fresh := rfl

@[simp] theorem setArray_frame (d : Dev) (k : Nat) (x : ArrayS) : (setArray d k x).frame = d.frame := rfl
@[simp] theorem setArray_ev (d : Dev) (k : Nat) (x : ArrayS) : (setArray d k x).ev = d.ev := rfl
@[simp] theorem setArray_ash (d : Dev) (k : Nat) (x : ArrayS) : (setArray d k x).ash = d.ash := rfl
@[simp] theorem setArray_epell (d : Dev) (k : Nat) (x : ArrayS) : (setArray d k x).epell = d.epell := rfl
@[simp] theorem setArray_pow (d : Dev) (k : Nat) (x : ArrayS) : (setArray d k x).pow = d.pow := rfl
@[simp] theorem setArray_num (d : Dev) (k : Nat) (x : ArrayS) : (setArray d k x).num = d.num := rfl
@[simp] theorem setArray_mem (d : Dev) (k : Nat) (x : ArrayS) : (setArray d k x).mem = d.mem := rfl
@[simp] theorem setArray_ink (d : Dev) (k : Nat) (x : ArrayS) : (setArray d k x).ink = d.ink := rfl
@[simp] theorem setArray_gen (d : Dev) (k : Nat) (x : ArrayS) : (setArray d k x).gen = d.gen := rfl
@[simp] theorem setArray_train (d : Dev) (k : Nat) (x : ArrayS) : (setArray d k x).train = d.train := rfl
@[simp] theorem setArray_snap (d : Dev) (k : Nat) (x : ArrayS) : (setArray d k x).snap = d.snap := rfl
@[simp] theorem setArray_base (d : Dev) (k : Nat) (x : ArrayS) : (setArray d k x).base = d.base := rfl
@[simp] theorem setArray_baseGens (d : Dev) (k : Nat) (x : ArrayS) : (setArray d k x).baseGens = d.baseGens := rfl
@[simp] theorem setArray_nextOp (d : Dev) (k : Nat) (x : ArrayS) : (setArray d k x).nextOp = d.nextOp := rfl
@[simp] theorem setArray_lig (d : Dev) (k : Nat) (x : ArrayS) : (setArray d k x).lig = d.lig := rfl
@[simp] theorem setArray_keys (d : Dev) (k : Nat) (x : ArrayS) : (setArray d k x).keys = d.keys := rfl
@[simp] theorem setArray_sec (d : Dev) (k : Nat) (x : ArrayS) : (setArray d k x).sec = d.sec := rfl
@[simp] theorem setArray_regs (d : Dev) (k : Nat) (x : ArrayS) : (setArray d k x).regs = d.regs := rfl
@[simp] theorem setArray_waiting (d : Dev) (k : Nat) (x : ArrayS) : (setArray d k x).waiting = d.waiting := rfl
@[simp] theorem setArray_out (d : Dev) (k : Nat) (x : ArrayS) : (setArray d k x).out = d.out := rfl
@[simp] theorem setArray_held (d : Dev) (k : Nat) (x : ArrayS) : (setArray d k x).held = d.held := rfl
@[simp] theorem setArray_fresh (d : Dev) (k : Nat) (x : ArrayS) : (setArray d k x).fresh = d.fresh := rfl

@[simp] theorem setDuctus_frame (d : Dev) (h : Nat) (q : List DuctOp) : (setDuctus d h q).frame = d.frame := rfl
@[simp] theorem setDuctus_ev (d : Dev) (h : Nat) (q : List DuctOp) : (setDuctus d h q).ev = d.ev := rfl
@[simp] theorem setDuctus_ash (d : Dev) (h : Nat) (q : List DuctOp) : (setDuctus d h q).ash = d.ash := rfl
@[simp] theorem setDuctus_epell (d : Dev) (h : Nat) (q : List DuctOp) : (setDuctus d h q).epell = d.epell := rfl
@[simp] theorem setDuctus_pow (d : Dev) (h : Nat) (q : List DuctOp) : (setDuctus d h q).pow = d.pow := rfl
@[simp] theorem setDuctus_num (d : Dev) (h : Nat) (q : List DuctOp) : (setDuctus d h q).num = d.num := rfl
@[simp] theorem setDuctus_mem (d : Dev) (h : Nat) (q : List DuctOp) : (setDuctus d h q).mem = d.mem := rfl
@[simp] theorem setDuctus_ink (d : Dev) (h : Nat) (q : List DuctOp) : (setDuctus d h q).ink = d.ink := rfl
@[simp] theorem setDuctus_gen (d : Dev) (h : Nat) (q : List DuctOp) : (setDuctus d h q).gen = d.gen := rfl
@[simp] theorem setDuctus_train (d : Dev) (h : Nat) (q : List DuctOp) : (setDuctus d h q).train = d.train := rfl
@[simp] theorem setDuctus_snap (d : Dev) (h : Nat) (q : List DuctOp) : (setDuctus d h q).snap = d.snap := rfl
@[simp] theorem setDuctus_base (d : Dev) (h : Nat) (q : List DuctOp) : (setDuctus d h q).base = d.base := rfl
@[simp] theorem setDuctus_baseGens (d : Dev) (h : Nat) (q : List DuctOp) : (setDuctus d h q).baseGens = d.baseGens := rfl
@[simp] theorem setDuctus_nextOp (d : Dev) (h : Nat) (q : List DuctOp) : (setDuctus d h q).nextOp = d.nextOp := rfl
@[simp] theorem setDuctus_lig (d : Dev) (h : Nat) (q : List DuctOp) : (setDuctus d h q).lig = d.lig := rfl
@[simp] theorem setDuctus_keys (d : Dev) (h : Nat) (q : List DuctOp) : (setDuctus d h q).keys = d.keys := rfl
@[simp] theorem setDuctus_sec (d : Dev) (h : Nat) (q : List DuctOp) : (setDuctus d h q).sec = d.sec := rfl
@[simp] theorem setDuctus_regs (d : Dev) (h : Nat) (q : List DuctOp) : (setDuctus d h q).regs = d.regs := rfl
@[simp] theorem setDuctus_waiting (d : Dev) (h : Nat) (q : List DuctOp) : (setDuctus d h q).waiting = d.waiting := rfl
@[simp] theorem setDuctus_out (d : Dev) (h : Nat) (q : List DuctOp) : (setDuctus d h q).out = d.out := rfl
@[simp] theorem setDuctus_held (d : Dev) (h : Nat) (q : List DuctOp) : (setDuctus d h q).held = d.held := rfl
@[simp] theorem setDuctus_fresh (d : Dev) (h : Nat) (q : List DuctOp) : (setDuctus d h q).fresh = d.fresh := rfl

@[simp] theorem setVreg_frame (d : Dev) (h v : Nat) (t : Table Word) : (setVreg d h v t).frame = d.frame := rfl
@[simp] theorem setVreg_ev (d : Dev) (h v : Nat) (t : Table Word) : (setVreg d h v t).ev = d.ev := rfl
@[simp] theorem setVreg_ash (d : Dev) (h v : Nat) (t : Table Word) : (setVreg d h v t).ash = d.ash := rfl
@[simp] theorem setVreg_epell (d : Dev) (h v : Nat) (t : Table Word) : (setVreg d h v t).epell = d.epell := rfl
@[simp] theorem setVreg_pow (d : Dev) (h v : Nat) (t : Table Word) : (setVreg d h v t).pow = d.pow := rfl
@[simp] theorem setVreg_num (d : Dev) (h v : Nat) (t : Table Word) : (setVreg d h v t).num = d.num := rfl
@[simp] theorem setVreg_mem (d : Dev) (h v : Nat) (t : Table Word) : (setVreg d h v t).mem = d.mem := rfl
@[simp] theorem setVreg_ink (d : Dev) (h v : Nat) (t : Table Word) : (setVreg d h v t).ink = d.ink := rfl
@[simp] theorem setVreg_gen (d : Dev) (h v : Nat) (t : Table Word) : (setVreg d h v t).gen = d.gen := rfl
@[simp] theorem setVreg_train (d : Dev) (h v : Nat) (t : Table Word) : (setVreg d h v t).train = d.train := rfl
@[simp] theorem setVreg_snap (d : Dev) (h v : Nat) (t : Table Word) : (setVreg d h v t).snap = d.snap := rfl
@[simp] theorem setVreg_base (d : Dev) (h v : Nat) (t : Table Word) : (setVreg d h v t).base = d.base := rfl
@[simp] theorem setVreg_baseGens (d : Dev) (h v : Nat) (t : Table Word) : (setVreg d h v t).baseGens = d.baseGens := rfl
@[simp] theorem setVreg_nextOp (d : Dev) (h v : Nat) (t : Table Word) : (setVreg d h v t).nextOp = d.nextOp := rfl
@[simp] theorem setVreg_lig (d : Dev) (h v : Nat) (t : Table Word) : (setVreg d h v t).lig = d.lig := rfl
@[simp] theorem setVreg_keys (d : Dev) (h v : Nat) (t : Table Word) : (setVreg d h v t).keys = d.keys := rfl
@[simp] theorem setVreg_sec (d : Dev) (h v : Nat) (t : Table Word) : (setVreg d h v t).sec = d.sec := rfl
@[simp] theorem setVreg_regs (d : Dev) (h v : Nat) (t : Table Word) : (setVreg d h v t).regs = d.regs := rfl
@[simp] theorem setVreg_waiting (d : Dev) (h v : Nat) (t : Table Word) : (setVreg d h v t).waiting = d.waiting := rfl
@[simp] theorem setVreg_out (d : Dev) (h v : Nat) (t : Table Word) : (setVreg d h v t).out = d.out := rfl
@[simp] theorem setVreg_held (d : Dev) (h v : Nat) (t : Table Word) : (setVreg d h v t).held = d.held := rfl
@[simp] theorem setVreg_fresh (d : Dev) (h v : Nat) (t : Table Word) : (setVreg d h v t).fresh = d.fresh := rfl

@[simp] theorem setTask_ev (d : Dev) (i : Nat) (t : Task) : (setTask d i t).ev = d.ev := rfl
@[simp] theorem setTask_ash (d : Dev) (i : Nat) (t : Task) : (setTask d i t).ash = d.ash := rfl
@[simp] theorem setTask_epell (d : Dev) (i : Nat) (t : Task) : (setTask d i t).epell = d.epell := rfl
@[simp] theorem setTask_pow (d : Dev) (i : Nat) (t : Task) : (setTask d i t).pow = d.pow := rfl
@[simp] theorem setTask_hearth (d : Dev) (i : Nat) (t : Task) : (setTask d i t).hearth = d.hearth := rfl
@[simp] theorem setTask_num (d : Dev) (i : Nat) (t : Task) : (setTask d i t).num = d.num := rfl
@[simp] theorem setTask_mem (d : Dev) (i : Nat) (t : Task) : (setTask d i t).mem = d.mem := rfl
@[simp] theorem setTask_ink (d : Dev) (i : Nat) (t : Task) : (setTask d i t).ink = d.ink := rfl
@[simp] theorem setTask_gen (d : Dev) (i : Nat) (t : Task) : (setTask d i t).gen = d.gen := rfl
@[simp] theorem setTask_train (d : Dev) (i : Nat) (t : Task) : (setTask d i t).train = d.train := rfl
@[simp] theorem setTask_snap (d : Dev) (i : Nat) (t : Task) : (setTask d i t).snap = d.snap := rfl
@[simp] theorem setTask_base (d : Dev) (i : Nat) (t : Task) : (setTask d i t).base = d.base := rfl
@[simp] theorem setTask_baseGens (d : Dev) (i : Nat) (t : Task) : (setTask d i t).baseGens = d.baseGens := rfl
@[simp] theorem setTask_nextOp (d : Dev) (i : Nat) (t : Task) : (setTask d i t).nextOp = d.nextOp := rfl
@[simp] theorem setTask_lig (d : Dev) (i : Nat) (t : Task) : (setTask d i t).lig = d.lig := rfl
@[simp] theorem setTask_keys (d : Dev) (i : Nat) (t : Task) : (setTask d i t).keys = d.keys := rfl
@[simp] theorem setTask_sec (d : Dev) (i : Nat) (t : Task) : (setTask d i t).sec = d.sec := rfl
@[simp] theorem setTask_regs (d : Dev) (i : Nat) (t : Task) : (setTask d i t).regs = d.regs := rfl
@[simp] theorem setTask_waiting (d : Dev) (i : Nat) (t : Task) : (setTask d i t).waiting = d.waiting := rfl
@[simp] theorem setTask_out (d : Dev) (i : Nat) (t : Task) : (setTask d i t).out = d.out := rfl
@[simp] theorem setTask_held (d : Dev) (i : Nat) (t : Task) : (setTask d i t).held = d.held := rfl
@[simp] theorem setTask_fresh (d : Dev) (i : Nat) (t : Task) : (setTask d i t).fresh = d.fresh := rfl

@[simp] theorem setStream_ev (d : Dev) (i : Nat) (x : Stream) : (setStream d i x).ev = d.ev := rfl
@[simp] theorem setStream_ash (d : Dev) (i : Nat) (x : Stream) : (setStream d i x).ash = d.ash := rfl
@[simp] theorem setStream_epell (d : Dev) (i : Nat) (x : Stream) : (setStream d i x).epell = d.epell := rfl
@[simp] theorem setStream_pow (d : Dev) (i : Nat) (x : Stream) : (setStream d i x).pow = d.pow := rfl
@[simp] theorem setStream_hearth (d : Dev) (i : Nat) (x : Stream) : (setStream d i x).hearth = d.hearth := rfl
@[simp] theorem setStream_num (d : Dev) (i : Nat) (x : Stream) : (setStream d i x).num = d.num := rfl
@[simp] theorem setStream_mem (d : Dev) (i : Nat) (x : Stream) : (setStream d i x).mem = d.mem := rfl
@[simp] theorem setStream_ink (d : Dev) (i : Nat) (x : Stream) : (setStream d i x).ink = d.ink := rfl
@[simp] theorem setStream_gen (d : Dev) (i : Nat) (x : Stream) : (setStream d i x).gen = d.gen := rfl
@[simp] theorem setStream_train (d : Dev) (i : Nat) (x : Stream) : (setStream d i x).train = d.train := rfl
@[simp] theorem setStream_snap (d : Dev) (i : Nat) (x : Stream) : (setStream d i x).snap = d.snap := rfl
@[simp] theorem setStream_base (d : Dev) (i : Nat) (x : Stream) : (setStream d i x).base = d.base := rfl
@[simp] theorem setStream_baseGens (d : Dev) (i : Nat) (x : Stream) : (setStream d i x).baseGens = d.baseGens := rfl
@[simp] theorem setStream_nextOp (d : Dev) (i : Nat) (x : Stream) : (setStream d i x).nextOp = d.nextOp := rfl
@[simp] theorem setStream_lig (d : Dev) (i : Nat) (x : Stream) : (setStream d i x).lig = d.lig := rfl
@[simp] theorem setStream_keys (d : Dev) (i : Nat) (x : Stream) : (setStream d i x).keys = d.keys := rfl
@[simp] theorem setStream_sec (d : Dev) (i : Nat) (x : Stream) : (setStream d i x).sec = d.sec := rfl
@[simp] theorem setStream_regs (d : Dev) (i : Nat) (x : Stream) : (setStream d i x).regs = d.regs := rfl
@[simp] theorem setStream_waiting (d : Dev) (i : Nat) (x : Stream) : (setStream d i x).waiting = d.waiting := rfl
@[simp] theorem setStream_out (d : Dev) (i : Nat) (x : Stream) : (setStream d i x).out = d.out := rfl
@[simp] theorem setStream_held (d : Dev) (i : Nat) (x : Stream) : (setStream d i x).held = d.held := rfl
@[simp] theorem setStream_fresh (d : Dev) (i : Nat) (x : Stream) : (setStream d i x).fresh = d.fresh := rfl

@[simp] theorem setSnap_frame (d : Dev) (a : Nat) (x : Snap) : (setSnap d a x).frame = d.frame := rfl
@[simp] theorem setSnap_ev (d : Dev) (a : Nat) (x : Snap) : (setSnap d a x).ev = d.ev := rfl
@[simp] theorem setSnap_ash (d : Dev) (a : Nat) (x : Snap) : (setSnap d a x).ash = d.ash := rfl
@[simp] theorem setSnap_epell (d : Dev) (a : Nat) (x : Snap) : (setSnap d a x).epell = d.epell := rfl
@[simp] theorem setSnap_pow (d : Dev) (a : Nat) (x : Snap) : (setSnap d a x).pow = d.pow := rfl
@[simp] theorem setSnap_hearth (d : Dev) (a : Nat) (x : Snap) : (setSnap d a x).hearth = d.hearth := rfl
@[simp] theorem setSnap_num (d : Dev) (a : Nat) (x : Snap) : (setSnap d a x).num = d.num := rfl
@[simp] theorem setSnap_mem (d : Dev) (a : Nat) (x : Snap) : (setSnap d a x).mem = d.mem := rfl
@[simp] theorem setSnap_ink (d : Dev) (a : Nat) (x : Snap) : (setSnap d a x).ink = d.ink := rfl
@[simp] theorem setSnap_gen (d : Dev) (a : Nat) (x : Snap) : (setSnap d a x).gen = d.gen := rfl
@[simp] theorem setSnap_train (d : Dev) (a : Nat) (x : Snap) : (setSnap d a x).train = d.train := rfl
@[simp] theorem setSnap_base (d : Dev) (a : Nat) (x : Snap) : (setSnap d a x).base = d.base := rfl
@[simp] theorem setSnap_baseGens (d : Dev) (a : Nat) (x : Snap) : (setSnap d a x).baseGens = d.baseGens := rfl
@[simp] theorem setSnap_nextOp (d : Dev) (a : Nat) (x : Snap) : (setSnap d a x).nextOp = d.nextOp := rfl
@[simp] theorem setSnap_lig (d : Dev) (a : Nat) (x : Snap) : (setSnap d a x).lig = d.lig := rfl
@[simp] theorem setSnap_keys (d : Dev) (a : Nat) (x : Snap) : (setSnap d a x).keys = d.keys := rfl
@[simp] theorem setSnap_sec (d : Dev) (a : Nat) (x : Snap) : (setSnap d a x).sec = d.sec := rfl
@[simp] theorem setSnap_regs (d : Dev) (a : Nat) (x : Snap) : (setSnap d a x).regs = d.regs := rfl
@[simp] theorem setSnap_waiting (d : Dev) (a : Nat) (x : Snap) : (setSnap d a x).waiting = d.waiting := rfl
@[simp] theorem setSnap_out (d : Dev) (a : Nat) (x : Snap) : (setSnap d a x).out = d.out := rfl
@[simp] theorem setSnap_held (d : Dev) (a : Nat) (x : Snap) : (setSnap d a x).held = d.held := rfl
@[simp] theorem setSnap_fresh (d : Dev) (a : Nat) (x : Snap) : (setSnap d a x).fresh = d.fresh := rfl

@[simp] theorem raiseEra_frame (d : Dev) (k : Nat) : (raiseEra d k).frame = d.frame := rfl
@[simp] theorem raiseEra_ev (d : Dev) (k : Nat) : (raiseEra d k).ev = d.ev := rfl
@[simp] theorem raiseEra_ash (d : Dev) (k : Nat) : (raiseEra d k).ash = d.ash := rfl
@[simp] theorem raiseEra_epell (d : Dev) (k : Nat) : (raiseEra d k).epell = d.epell := rfl
@[simp] theorem raiseEra_pow (d : Dev) (k : Nat) : (raiseEra d k).pow = d.pow := rfl
@[simp] theorem raiseEra_hearth (d : Dev) (k : Nat) : (raiseEra d k).hearth = d.hearth := rfl
@[simp] theorem raiseEra_mem (d : Dev) (k : Nat) : (raiseEra d k).mem = d.mem := rfl
@[simp] theorem raiseEra_ink (d : Dev) (k : Nat) : (raiseEra d k).ink = d.ink := rfl
@[simp] theorem raiseEra_gen (d : Dev) (k : Nat) : (raiseEra d k).gen = d.gen := rfl
@[simp] theorem raiseEra_train (d : Dev) (k : Nat) : (raiseEra d k).train = d.train := rfl
@[simp] theorem raiseEra_snap (d : Dev) (k : Nat) : (raiseEra d k).snap = d.snap := rfl
@[simp] theorem raiseEra_base (d : Dev) (k : Nat) : (raiseEra d k).base = d.base := rfl
@[simp] theorem raiseEra_baseGens (d : Dev) (k : Nat) : (raiseEra d k).baseGens = d.baseGens := rfl
@[simp] theorem raiseEra_nextOp (d : Dev) (k : Nat) : (raiseEra d k).nextOp = d.nextOp := rfl
@[simp] theorem raiseEra_lig (d : Dev) (k : Nat) : (raiseEra d k).lig = d.lig := rfl
@[simp] theorem raiseEra_keys (d : Dev) (k : Nat) : (raiseEra d k).keys = d.keys := rfl
@[simp] theorem raiseEra_sec (d : Dev) (k : Nat) : (raiseEra d k).sec = d.sec := rfl
@[simp] theorem raiseEra_regs (d : Dev) (k : Nat) : (raiseEra d k).regs = d.regs := rfl
@[simp] theorem raiseEra_waiting (d : Dev) (k : Nat) : (raiseEra d k).waiting = d.waiting := rfl
@[simp] theorem raiseEra_out (d : Dev) (k : Nat) : (raiseEra d k).out = d.out := rfl
@[simp] theorem raiseEra_held (d : Dev) (k : Nat) : (raiseEra d k).held = d.held := rfl
@[simp] theorem raiseEra_fresh (d : Dev) (k : Nat) : (raiseEra d k).fresh = d.fresh := rfl

@[simp] theorem keepPins_frame (d : Dev) (t : Task) : (keepPins d t).frame = d.frame := rfl
@[simp] theorem keepPins_ev (d : Dev) (t : Task) : (keepPins d t).ev = d.ev := rfl
@[simp] theorem keepPins_ash (d : Dev) (t : Task) : (keepPins d t).ash = d.ash := rfl
@[simp] theorem keepPins_epell (d : Dev) (t : Task) : (keepPins d t).epell = d.epell := rfl
@[simp] theorem keepPins_pow (d : Dev) (t : Task) : (keepPins d t).pow = d.pow := rfl
@[simp] theorem keepPins_hearth (d : Dev) (t : Task) : (keepPins d t).hearth = d.hearth := rfl
@[simp] theorem keepPins_mem (d : Dev) (t : Task) : (keepPins d t).mem = d.mem := rfl
@[simp] theorem keepPins_ink (d : Dev) (t : Task) : (keepPins d t).ink = d.ink := rfl
@[simp] theorem keepPins_gen (d : Dev) (t : Task) : (keepPins d t).gen = d.gen := rfl
@[simp] theorem keepPins_train (d : Dev) (t : Task) : (keepPins d t).train = d.train := rfl
@[simp] theorem keepPins_snap (d : Dev) (t : Task) : (keepPins d t).snap = d.snap := rfl
@[simp] theorem keepPins_base (d : Dev) (t : Task) : (keepPins d t).base = d.base := rfl
@[simp] theorem keepPins_baseGens (d : Dev) (t : Task) : (keepPins d t).baseGens = d.baseGens := rfl
@[simp] theorem keepPins_nextOp (d : Dev) (t : Task) : (keepPins d t).nextOp = d.nextOp := rfl
@[simp] theorem keepPins_lig (d : Dev) (t : Task) : (keepPins d t).lig = d.lig := rfl
@[simp] theorem keepPins_keys (d : Dev) (t : Task) : (keepPins d t).keys = d.keys := rfl
@[simp] theorem keepPins_sec (d : Dev) (t : Task) : (keepPins d t).sec = d.sec := rfl
@[simp] theorem keepPins_regs (d : Dev) (t : Task) : (keepPins d t).regs = d.regs := rfl
@[simp] theorem keepPins_waiting (d : Dev) (t : Task) : (keepPins d t).waiting = d.waiting := rfl
@[simp] theorem keepPins_out (d : Dev) (t : Task) : (keepPins d t).out = d.out := rfl
@[simp] theorem keepPins_held (d : Dev) (t : Task) : (keepPins d t).held = d.held := rfl
@[simp] theorem keepPins_fresh (d : Dev) (t : Task) : (keepPins d t).fresh = d.fresh := rfl

@[simp] theorem pinPlan_frame (d : Dev) (p : Plan) : (pinPlan d p).frame = d.frame := rfl
@[simp] theorem pinPlan_ev (d : Dev) (p : Plan) : (pinPlan d p).ev = d.ev := rfl
@[simp] theorem pinPlan_ash (d : Dev) (p : Plan) : (pinPlan d p).ash = d.ash := rfl
@[simp] theorem pinPlan_epell (d : Dev) (p : Plan) : (pinPlan d p).epell = d.epell := rfl
@[simp] theorem pinPlan_pow (d : Dev) (p : Plan) : (pinPlan d p).pow = d.pow := rfl
@[simp] theorem pinPlan_hearth (d : Dev) (p : Plan) : (pinPlan d p).hearth = d.hearth := rfl
@[simp] theorem pinPlan_mem (d : Dev) (p : Plan) : (pinPlan d p).mem = d.mem := rfl
@[simp] theorem pinPlan_ink (d : Dev) (p : Plan) : (pinPlan d p).ink = d.ink := rfl
@[simp] theorem pinPlan_gen (d : Dev) (p : Plan) : (pinPlan d p).gen = d.gen := rfl
@[simp] theorem pinPlan_train (d : Dev) (p : Plan) : (pinPlan d p).train = d.train := rfl
@[simp] theorem pinPlan_snap (d : Dev) (p : Plan) : (pinPlan d p).snap = d.snap := rfl
@[simp] theorem pinPlan_base (d : Dev) (p : Plan) : (pinPlan d p).base = d.base := rfl
@[simp] theorem pinPlan_baseGens (d : Dev) (p : Plan) : (pinPlan d p).baseGens = d.baseGens := rfl
@[simp] theorem pinPlan_nextOp (d : Dev) (p : Plan) : (pinPlan d p).nextOp = d.nextOp := rfl
@[simp] theorem pinPlan_lig (d : Dev) (p : Plan) : (pinPlan d p).lig = d.lig := rfl
@[simp] theorem pinPlan_keys (d : Dev) (p : Plan) : (pinPlan d p).keys = d.keys := rfl
@[simp] theorem pinPlan_sec (d : Dev) (p : Plan) : (pinPlan d p).sec = d.sec := rfl
@[simp] theorem pinPlan_regs (d : Dev) (p : Plan) : (pinPlan d p).regs = d.regs := rfl
@[simp] theorem pinPlan_waiting (d : Dev) (p : Plan) : (pinPlan d p).waiting = d.waiting := rfl
@[simp] theorem pinPlan_out (d : Dev) (p : Plan) : (pinPlan d p).out = d.out := rfl
@[simp] theorem pinPlan_held (d : Dev) (p : Plan) : (pinPlan d p).held = d.held := rfl
@[simp] theorem pinPlan_fresh (d : Dev) (p : Plan) : (pinPlan d p).fresh = d.fresh := rfl

@[simp] theorem releasePins_frame (d : Dev) (b : Bool) : (releasePins d b).frame = d.frame := rfl
@[simp] theorem releasePins_ev (d : Dev) (b : Bool) : (releasePins d b).ev = d.ev := rfl
@[simp] theorem releasePins_ash (d : Dev) (b : Bool) : (releasePins d b).ash = d.ash := rfl
@[simp] theorem releasePins_epell (d : Dev) (b : Bool) : (releasePins d b).epell = d.epell := rfl
@[simp] theorem releasePins_pow (d : Dev) (b : Bool) : (releasePins d b).pow = d.pow := rfl
@[simp] theorem releasePins_hearth (d : Dev) (b : Bool) : (releasePins d b).hearth = d.hearth := rfl
@[simp] theorem releasePins_mem (d : Dev) (b : Bool) : (releasePins d b).mem = d.mem := rfl
@[simp] theorem releasePins_ink (d : Dev) (b : Bool) : (releasePins d b).ink = d.ink := rfl
@[simp] theorem releasePins_gen (d : Dev) (b : Bool) : (releasePins d b).gen = d.gen := rfl
@[simp] theorem releasePins_train (d : Dev) (b : Bool) : (releasePins d b).train = d.train := rfl
@[simp] theorem releasePins_snap (d : Dev) (b : Bool) : (releasePins d b).snap = d.snap := rfl
@[simp] theorem releasePins_base (d : Dev) (b : Bool) : (releasePins d b).base = d.base := rfl
@[simp] theorem releasePins_baseGens (d : Dev) (b : Bool) : (releasePins d b).baseGens = d.baseGens := rfl
@[simp] theorem releasePins_nextOp (d : Dev) (b : Bool) : (releasePins d b).nextOp = d.nextOp := rfl
@[simp] theorem releasePins_lig (d : Dev) (b : Bool) : (releasePins d b).lig = d.lig := rfl
@[simp] theorem releasePins_keys (d : Dev) (b : Bool) : (releasePins d b).keys = d.keys := rfl
@[simp] theorem releasePins_sec (d : Dev) (b : Bool) : (releasePins d b).sec = d.sec := rfl
@[simp] theorem releasePins_regs (d : Dev) (b : Bool) : (releasePins d b).regs = d.regs := rfl
@[simp] theorem releasePins_waiting (d : Dev) (b : Bool) : (releasePins d b).waiting = d.waiting := rfl
@[simp] theorem releasePins_out (d : Dev) (b : Bool) : (releasePins d b).out = d.out := rfl
@[simp] theorem releasePins_held (d : Dev) (b : Bool) : (releasePins d b).held = d.held := rfl
@[simp] theorem releasePins_fresh (d : Dev) (b : Bool) : (releasePins d b).fresh = d.fresh := rfl

@[simp] theorem forgetSteps_frame (d : Dev) (g : Nat × Nat → Bool) : (forgetSteps d g).frame = d.frame := rfl
@[simp] theorem forgetSteps_ev (d : Dev) (g : Nat × Nat → Bool) : (forgetSteps d g).ev = d.ev := rfl
@[simp] theorem forgetSteps_ash (d : Dev) (g : Nat × Nat → Bool) : (forgetSteps d g).ash = d.ash := rfl
@[simp] theorem forgetSteps_epell (d : Dev) (g : Nat × Nat → Bool) : (forgetSteps d g).epell = d.epell := rfl
@[simp] theorem forgetSteps_pow (d : Dev) (g : Nat × Nat → Bool) : (forgetSteps d g).pow = d.pow := rfl
@[simp] theorem forgetSteps_hearth (d : Dev) (g : Nat × Nat → Bool) : (forgetSteps d g).hearth = d.hearth := rfl
@[simp] theorem forgetSteps_mem (d : Dev) (g : Nat × Nat → Bool) : (forgetSteps d g).mem = d.mem := rfl
@[simp] theorem forgetSteps_ink (d : Dev) (g : Nat × Nat → Bool) : (forgetSteps d g).ink = d.ink := rfl
@[simp] theorem forgetSteps_gen (d : Dev) (g : Nat × Nat → Bool) : (forgetSteps d g).gen = d.gen := rfl
@[simp] theorem forgetSteps_train (d : Dev) (g : Nat × Nat → Bool) : (forgetSteps d g).train = d.train := rfl
@[simp] theorem forgetSteps_snap (d : Dev) (g : Nat × Nat → Bool) : (forgetSteps d g).snap = d.snap := rfl
@[simp] theorem forgetSteps_base (d : Dev) (g : Nat × Nat → Bool) : (forgetSteps d g).base = d.base := rfl
@[simp] theorem forgetSteps_baseGens (d : Dev) (g : Nat × Nat → Bool) : (forgetSteps d g).baseGens = d.baseGens := rfl
@[simp] theorem forgetSteps_nextOp (d : Dev) (g : Nat × Nat → Bool) : (forgetSteps d g).nextOp = d.nextOp := rfl
@[simp] theorem forgetSteps_lig (d : Dev) (g : Nat × Nat → Bool) : (forgetSteps d g).lig = d.lig := rfl
@[simp] theorem forgetSteps_keys (d : Dev) (g : Nat × Nat → Bool) : (forgetSteps d g).keys = d.keys := rfl
@[simp] theorem forgetSteps_sec (d : Dev) (g : Nat × Nat → Bool) : (forgetSteps d g).sec = d.sec := rfl
@[simp] theorem forgetSteps_regs (d : Dev) (g : Nat × Nat → Bool) : (forgetSteps d g).regs = d.regs := rfl
@[simp] theorem forgetSteps_waiting (d : Dev) (g : Nat × Nat → Bool) : (forgetSteps d g).waiting = d.waiting := rfl
@[simp] theorem forgetSteps_out (d : Dev) (g : Nat × Nat → Bool) : (forgetSteps d g).out = d.out := rfl
@[simp] theorem forgetSteps_held (d : Dev) (g : Nat × Nat → Bool) : (forgetSteps d g).held = d.held := rfl
@[simp] theorem forgetSteps_fresh (d : Dev) (g : Nat × Nat → Bool) : (forgetSteps d g).fresh = d.fresh := rfl

@[simp] theorem setStreamRec_frame (d : Dev) (k : Nat) (r : StreamRec) : (setStreamRec d k r).frame = d.frame := rfl
@[simp] theorem setStreamRec_ev (d : Dev) (k : Nat) (r : StreamRec) : (setStreamRec d k r).ev = d.ev := rfl
@[simp] theorem setStreamRec_ash (d : Dev) (k : Nat) (r : StreamRec) : (setStreamRec d k r).ash = d.ash := rfl
@[simp] theorem setStreamRec_epell (d : Dev) (k : Nat) (r : StreamRec) : (setStreamRec d k r).epell = d.epell := rfl
@[simp] theorem setStreamRec_pow (d : Dev) (k : Nat) (r : StreamRec) : (setStreamRec d k r).pow = d.pow := rfl
@[simp] theorem setStreamRec_hearth (d : Dev) (k : Nat) (r : StreamRec) : (setStreamRec d k r).hearth = d.hearth := rfl
@[simp] theorem setStreamRec_mem (d : Dev) (k : Nat) (r : StreamRec) : (setStreamRec d k r).mem = d.mem := rfl
@[simp] theorem setStreamRec_ink (d : Dev) (k : Nat) (r : StreamRec) : (setStreamRec d k r).ink = d.ink := rfl
@[simp] theorem setStreamRec_gen (d : Dev) (k : Nat) (r : StreamRec) : (setStreamRec d k r).gen = d.gen := rfl
@[simp] theorem setStreamRec_train (d : Dev) (k : Nat) (r : StreamRec) : (setStreamRec d k r).train = d.train := rfl
@[simp] theorem setStreamRec_snap (d : Dev) (k : Nat) (r : StreamRec) : (setStreamRec d k r).snap = d.snap := rfl
@[simp] theorem setStreamRec_base (d : Dev) (k : Nat) (r : StreamRec) : (setStreamRec d k r).base = d.base := rfl
@[simp] theorem setStreamRec_baseGens (d : Dev) (k : Nat) (r : StreamRec) : (setStreamRec d k r).baseGens = d.baseGens := rfl
@[simp] theorem setStreamRec_nextOp (d : Dev) (k : Nat) (r : StreamRec) : (setStreamRec d k r).nextOp = d.nextOp := rfl
@[simp] theorem setStreamRec_lig (d : Dev) (k : Nat) (r : StreamRec) : (setStreamRec d k r).lig = d.lig := rfl
@[simp] theorem setStreamRec_keys (d : Dev) (k : Nat) (r : StreamRec) : (setStreamRec d k r).keys = d.keys := rfl
@[simp] theorem setStreamRec_sec (d : Dev) (k : Nat) (r : StreamRec) : (setStreamRec d k r).sec = d.sec := rfl
@[simp] theorem setStreamRec_regs (d : Dev) (k : Nat) (r : StreamRec) : (setStreamRec d k r).regs = d.regs := rfl
@[simp] theorem setStreamRec_waiting (d : Dev) (k : Nat) (r : StreamRec) : (setStreamRec d k r).waiting = d.waiting := rfl
@[simp] theorem setStreamRec_out (d : Dev) (k : Nat) (r : StreamRec) : (setStreamRec d k r).out = d.out := rfl
@[simp] theorem setStreamRec_held (d : Dev) (k : Nat) (r : StreamRec) : (setStreamRec d k r).held = d.held := rfl
@[simp] theorem setStreamRec_fresh (d : Dev) (k : Nat) (r : StreamRec) : (setStreamRec d k r).fresh = d.fresh := rfl

@[simp] theorem setSteps_frame (d : Dev) (k : Nat) (l : List Evidence) : (setSteps d k l).frame = d.frame := rfl
@[simp] theorem setSteps_ev (d : Dev) (k : Nat) (l : List Evidence) : (setSteps d k l).ev = d.ev := rfl
@[simp] theorem setSteps_ash (d : Dev) (k : Nat) (l : List Evidence) : (setSteps d k l).ash = d.ash := rfl
@[simp] theorem setSteps_epell (d : Dev) (k : Nat) (l : List Evidence) : (setSteps d k l).epell = d.epell := rfl
@[simp] theorem setSteps_pow (d : Dev) (k : Nat) (l : List Evidence) : (setSteps d k l).pow = d.pow := rfl
@[simp] theorem setSteps_hearth (d : Dev) (k : Nat) (l : List Evidence) : (setSteps d k l).hearth = d.hearth := rfl
@[simp] theorem setSteps_mem (d : Dev) (k : Nat) (l : List Evidence) : (setSteps d k l).mem = d.mem := rfl
@[simp] theorem setSteps_ink (d : Dev) (k : Nat) (l : List Evidence) : (setSteps d k l).ink = d.ink := rfl
@[simp] theorem setSteps_gen (d : Dev) (k : Nat) (l : List Evidence) : (setSteps d k l).gen = d.gen := rfl
@[simp] theorem setSteps_train (d : Dev) (k : Nat) (l : List Evidence) : (setSteps d k l).train = d.train := rfl
@[simp] theorem setSteps_snap (d : Dev) (k : Nat) (l : List Evidence) : (setSteps d k l).snap = d.snap := rfl
@[simp] theorem setSteps_base (d : Dev) (k : Nat) (l : List Evidence) : (setSteps d k l).base = d.base := rfl
@[simp] theorem setSteps_baseGens (d : Dev) (k : Nat) (l : List Evidence) : (setSteps d k l).baseGens = d.baseGens := rfl
@[simp] theorem setSteps_nextOp (d : Dev) (k : Nat) (l : List Evidence) : (setSteps d k l).nextOp = d.nextOp := rfl
@[simp] theorem setSteps_lig (d : Dev) (k : Nat) (l : List Evidence) : (setSteps d k l).lig = d.lig := rfl
@[simp] theorem setSteps_keys (d : Dev) (k : Nat) (l : List Evidence) : (setSteps d k l).keys = d.keys := rfl
@[simp] theorem setSteps_sec (d : Dev) (k : Nat) (l : List Evidence) : (setSteps d k l).sec = d.sec := rfl
@[simp] theorem setSteps_regs (d : Dev) (k : Nat) (l : List Evidence) : (setSteps d k l).regs = d.regs := rfl
@[simp] theorem setSteps_waiting (d : Dev) (k : Nat) (l : List Evidence) : (setSteps d k l).waiting = d.waiting := rfl
@[simp] theorem setSteps_out (d : Dev) (k : Nat) (l : List Evidence) : (setSteps d k l).out = d.out := rfl
@[simp] theorem setSteps_held (d : Dev) (k : Nat) (l : List Evidence) : (setSteps d k l).held = d.held := rfl
@[simp] theorem setSteps_fresh (d : Dev) (k : Nat) (l : List Evidence) : (setSteps d k l).fresh = d.fresh := rfl

@[simp] theorem tlbInval_frame (d : Dev) (p lo hi : Nat) : (tlbInval d p lo hi).frame = d.frame := rfl
@[simp] theorem tlbInval_ev (d : Dev) (p lo hi : Nat) : (tlbInval d p lo hi).ev = d.ev := rfl
@[simp] theorem tlbInval_ash (d : Dev) (p lo hi : Nat) : (tlbInval d p lo hi).ash = d.ash := rfl
@[simp] theorem tlbInval_epell (d : Dev) (p lo hi : Nat) : (tlbInval d p lo hi).epell = d.epell := rfl
@[simp] theorem tlbInval_pow (d : Dev) (p lo hi : Nat) : (tlbInval d p lo hi).pow = d.pow := rfl
@[simp] theorem tlbInval_hearth (d : Dev) (p lo hi : Nat) : (tlbInval d p lo hi).hearth = d.hearth := rfl
@[simp] theorem tlbInval_num (d : Dev) (p lo hi : Nat) : (tlbInval d p lo hi).num = d.num := rfl
@[simp] theorem tlbInval_ink (d : Dev) (p lo hi : Nat) : (tlbInval d p lo hi).ink = d.ink := rfl
@[simp] theorem tlbInval_gen (d : Dev) (p lo hi : Nat) : (tlbInval d p lo hi).gen = d.gen := rfl
@[simp] theorem tlbInval_train (d : Dev) (p lo hi : Nat) : (tlbInval d p lo hi).train = d.train := rfl
@[simp] theorem tlbInval_snap (d : Dev) (p lo hi : Nat) : (tlbInval d p lo hi).snap = d.snap := rfl
@[simp] theorem tlbInval_base (d : Dev) (p lo hi : Nat) : (tlbInval d p lo hi).base = d.base := rfl
@[simp] theorem tlbInval_baseGens (d : Dev) (p lo hi : Nat) : (tlbInval d p lo hi).baseGens = d.baseGens := rfl
@[simp] theorem tlbInval_nextOp (d : Dev) (p lo hi : Nat) : (tlbInval d p lo hi).nextOp = d.nextOp := rfl
@[simp] theorem tlbInval_lig (d : Dev) (p lo hi : Nat) : (tlbInval d p lo hi).lig = d.lig := rfl
@[simp] theorem tlbInval_keys (d : Dev) (p lo hi : Nat) : (tlbInval d p lo hi).keys = d.keys := rfl
@[simp] theorem tlbInval_sec (d : Dev) (p lo hi : Nat) : (tlbInval d p lo hi).sec = d.sec := rfl
@[simp] theorem tlbInval_regs (d : Dev) (p lo hi : Nat) : (tlbInval d p lo hi).regs = d.regs := rfl
@[simp] theorem tlbInval_waiting (d : Dev) (p lo hi : Nat) : (tlbInval d p lo hi).waiting = d.waiting := rfl
@[simp] theorem tlbInval_out (d : Dev) (p lo hi : Nat) : (tlbInval d p lo hi).out = d.out := rfl
@[simp] theorem tlbInval_held (d : Dev) (p lo hi : Nat) : (tlbInval d p lo hi).held = d.held := rfl
@[simp] theorem tlbInval_fresh (d : Dev) (p lo hi : Nat) : (tlbInval d p lo hi).fresh = d.fresh := rfl

@[simp] theorem granWhole_frame (d : Dev) (g k : Nat) : (granWhole d g k).frame = d.frame := rfl
@[simp] theorem granWhole_ev (d : Dev) (g k : Nat) : (granWhole d g k).ev = d.ev := rfl
@[simp] theorem granWhole_ash (d : Dev) (g k : Nat) : (granWhole d g k).ash = d.ash := rfl
@[simp] theorem granWhole_epell (d : Dev) (g k : Nat) : (granWhole d g k).epell = d.epell := rfl
@[simp] theorem granWhole_pow (d : Dev) (g k : Nat) : (granWhole d g k).pow = d.pow := rfl
@[simp] theorem granWhole_hearth (d : Dev) (g k : Nat) : (granWhole d g k).hearth = d.hearth := rfl
@[simp] theorem granWhole_num (d : Dev) (g k : Nat) : (granWhole d g k).num = d.num := rfl
@[simp] theorem granWhole_ink (d : Dev) (g k : Nat) : (granWhole d g k).ink = d.ink := rfl
@[simp] theorem granWhole_gen (d : Dev) (g k : Nat) : (granWhole d g k).gen = d.gen := rfl
@[simp] theorem granWhole_train (d : Dev) (g k : Nat) : (granWhole d g k).train = d.train := rfl
@[simp] theorem granWhole_snap (d : Dev) (g k : Nat) : (granWhole d g k).snap = d.snap := rfl
@[simp] theorem granWhole_base (d : Dev) (g k : Nat) : (granWhole d g k).base = d.base := rfl
@[simp] theorem granWhole_baseGens (d : Dev) (g k : Nat) : (granWhole d g k).baseGens = d.baseGens := rfl
@[simp] theorem granWhole_nextOp (d : Dev) (g k : Nat) : (granWhole d g k).nextOp = d.nextOp := rfl
@[simp] theorem granWhole_lig (d : Dev) (g k : Nat) : (granWhole d g k).lig = d.lig := rfl
@[simp] theorem granWhole_keys (d : Dev) (g k : Nat) : (granWhole d g k).keys = d.keys := rfl
@[simp] theorem granWhole_sec (d : Dev) (g k : Nat) : (granWhole d g k).sec = d.sec := rfl
@[simp] theorem granWhole_regs (d : Dev) (g k : Nat) : (granWhole d g k).regs = d.regs := rfl
@[simp] theorem granWhole_waiting (d : Dev) (g k : Nat) : (granWhole d g k).waiting = d.waiting := rfl
@[simp] theorem granWhole_out (d : Dev) (g k : Nat) : (granWhole d g k).out = d.out := rfl
@[simp] theorem granWhole_held (d : Dev) (g k : Nat) : (granWhole d g k).held = d.held := rfl
@[simp] theorem granWhole_fresh (d : Dev) (g k : Nat) : (granWhole d g k).fresh = d.fresh := rfl

@[simp] theorem bumpVersion_frame (d : Dev) (f : Nat) : (bumpVersion d f).frame = d.frame := rfl
@[simp] theorem bumpVersion_ev (d : Dev) (f : Nat) : (bumpVersion d f).ev = d.ev := rfl
@[simp] theorem bumpVersion_ash (d : Dev) (f : Nat) : (bumpVersion d f).ash = d.ash := rfl
@[simp] theorem bumpVersion_epell (d : Dev) (f : Nat) : (bumpVersion d f).epell = d.epell := rfl
@[simp] theorem bumpVersion_pow (d : Dev) (f : Nat) : (bumpVersion d f).pow = d.pow := rfl
@[simp] theorem bumpVersion_hearth (d : Dev) (f : Nat) : (bumpVersion d f).hearth = d.hearth := rfl
@[simp] theorem bumpVersion_num (d : Dev) (f : Nat) : (bumpVersion d f).num = d.num := rfl
@[simp] theorem bumpVersion_ink (d : Dev) (f : Nat) : (bumpVersion d f).ink = d.ink := rfl
@[simp] theorem bumpVersion_gen (d : Dev) (f : Nat) : (bumpVersion d f).gen = d.gen := rfl
@[simp] theorem bumpVersion_train (d : Dev) (f : Nat) : (bumpVersion d f).train = d.train := rfl
@[simp] theorem bumpVersion_snap (d : Dev) (f : Nat) : (bumpVersion d f).snap = d.snap := rfl
@[simp] theorem bumpVersion_base (d : Dev) (f : Nat) : (bumpVersion d f).base = d.base := rfl
@[simp] theorem bumpVersion_baseGens (d : Dev) (f : Nat) : (bumpVersion d f).baseGens = d.baseGens := rfl
@[simp] theorem bumpVersion_nextOp (d : Dev) (f : Nat) : (bumpVersion d f).nextOp = d.nextOp := rfl
@[simp] theorem bumpVersion_lig (d : Dev) (f : Nat) : (bumpVersion d f).lig = d.lig := rfl
@[simp] theorem bumpVersion_keys (d : Dev) (f : Nat) : (bumpVersion d f).keys = d.keys := rfl
@[simp] theorem bumpVersion_sec (d : Dev) (f : Nat) : (bumpVersion d f).sec = d.sec := rfl
@[simp] theorem bumpVersion_regs (d : Dev) (f : Nat) : (bumpVersion d f).regs = d.regs := rfl
@[simp] theorem bumpVersion_waiting (d : Dev) (f : Nat) : (bumpVersion d f).waiting = d.waiting := rfl
@[simp] theorem bumpVersion_out (d : Dev) (f : Nat) : (bumpVersion d f).out = d.out := rfl
@[simp] theorem bumpVersion_held (d : Dev) (f : Nat) : (bumpVersion d f).held = d.held := rfl
@[simp] theorem bumpVersion_fresh (d : Dev) (f : Nat) : (bumpVersion d f).fresh = d.fresh := rfl

@[simp] theorem giveFrame_frame (d : Dev) (f o : Nat) : (giveFrame d f o).frame = d.frame := rfl
@[simp] theorem giveFrame_ev (d : Dev) (f o : Nat) : (giveFrame d f o).ev = d.ev := rfl
@[simp] theorem giveFrame_ash (d : Dev) (f o : Nat) : (giveFrame d f o).ash = d.ash := rfl
@[simp] theorem giveFrame_epell (d : Dev) (f o : Nat) : (giveFrame d f o).epell = d.epell := rfl
@[simp] theorem giveFrame_pow (d : Dev) (f o : Nat) : (giveFrame d f o).pow = d.pow := rfl
@[simp] theorem giveFrame_hearth (d : Dev) (f o : Nat) : (giveFrame d f o).hearth = d.hearth := rfl
@[simp] theorem giveFrame_num (d : Dev) (f o : Nat) : (giveFrame d f o).num = d.num := rfl
@[simp] theorem giveFrame_ink (d : Dev) (f o : Nat) : (giveFrame d f o).ink = d.ink := rfl
@[simp] theorem giveFrame_gen (d : Dev) (f o : Nat) : (giveFrame d f o).gen = d.gen := rfl
@[simp] theorem giveFrame_train (d : Dev) (f o : Nat) : (giveFrame d f o).train = d.train := rfl
@[simp] theorem giveFrame_snap (d : Dev) (f o : Nat) : (giveFrame d f o).snap = d.snap := rfl
@[simp] theorem giveFrame_base (d : Dev) (f o : Nat) : (giveFrame d f o).base = d.base := rfl
@[simp] theorem giveFrame_baseGens (d : Dev) (f o : Nat) : (giveFrame d f o).baseGens = d.baseGens := rfl
@[simp] theorem giveFrame_nextOp (d : Dev) (f o : Nat) : (giveFrame d f o).nextOp = d.nextOp := rfl
@[simp] theorem giveFrame_lig (d : Dev) (f o : Nat) : (giveFrame d f o).lig = d.lig := rfl
@[simp] theorem giveFrame_keys (d : Dev) (f o : Nat) : (giveFrame d f o).keys = d.keys := rfl
@[simp] theorem giveFrame_sec (d : Dev) (f o : Nat) : (giveFrame d f o).sec = d.sec := rfl
@[simp] theorem giveFrame_regs (d : Dev) (f o : Nat) : (giveFrame d f o).regs = d.regs := rfl
@[simp] theorem giveFrame_waiting (d : Dev) (f o : Nat) : (giveFrame d f o).waiting = d.waiting := rfl
@[simp] theorem giveFrame_out (d : Dev) (f o : Nat) : (giveFrame d f o).out = d.out := rfl
@[simp] theorem giveFrame_held (d : Dev) (f o : Nat) : (giveFrame d f o).held = d.held := rfl
@[simp] theorem giveFrame_fresh (d : Dev) (f o : Nat) : (giveFrame d f o).fresh = d.fresh := rfl

@[simp] theorem freeFrame_frame (d : Dev) (f : Nat) : (freeFrame d f).frame = d.frame := rfl
@[simp] theorem freeFrame_ev (d : Dev) (f : Nat) : (freeFrame d f).ev = d.ev := rfl
@[simp] theorem freeFrame_ash (d : Dev) (f : Nat) : (freeFrame d f).ash = d.ash := rfl
@[simp] theorem freeFrame_epell (d : Dev) (f : Nat) : (freeFrame d f).epell = d.epell := rfl
@[simp] theorem freeFrame_pow (d : Dev) (f : Nat) : (freeFrame d f).pow = d.pow := rfl
@[simp] theorem freeFrame_hearth (d : Dev) (f : Nat) : (freeFrame d f).hearth = d.hearth := rfl
@[simp] theorem freeFrame_num (d : Dev) (f : Nat) : (freeFrame d f).num = d.num := rfl
@[simp] theorem freeFrame_ink (d : Dev) (f : Nat) : (freeFrame d f).ink = d.ink := rfl
@[simp] theorem freeFrame_gen (d : Dev) (f : Nat) : (freeFrame d f).gen = d.gen := rfl
@[simp] theorem freeFrame_train (d : Dev) (f : Nat) : (freeFrame d f).train = d.train := rfl
@[simp] theorem freeFrame_snap (d : Dev) (f : Nat) : (freeFrame d f).snap = d.snap := rfl
@[simp] theorem freeFrame_base (d : Dev) (f : Nat) : (freeFrame d f).base = d.base := rfl
@[simp] theorem freeFrame_baseGens (d : Dev) (f : Nat) : (freeFrame d f).baseGens = d.baseGens := rfl
@[simp] theorem freeFrame_nextOp (d : Dev) (f : Nat) : (freeFrame d f).nextOp = d.nextOp := rfl
@[simp] theorem freeFrame_lig (d : Dev) (f : Nat) : (freeFrame d f).lig = d.lig := rfl
@[simp] theorem freeFrame_keys (d : Dev) (f : Nat) : (freeFrame d f).keys = d.keys := rfl
@[simp] theorem freeFrame_sec (d : Dev) (f : Nat) : (freeFrame d f).sec = d.sec := rfl
@[simp] theorem freeFrame_regs (d : Dev) (f : Nat) : (freeFrame d f).regs = d.regs := rfl
@[simp] theorem freeFrame_waiting (d : Dev) (f : Nat) : (freeFrame d f).waiting = d.waiting := rfl
@[simp] theorem freeFrame_out (d : Dev) (f : Nat) : (freeFrame d f).out = d.out := rfl
@[simp] theorem freeFrame_held (d : Dev) (f : Nat) : (freeFrame d f).held = d.held := rfl
@[simp] theorem freeFrame_fresh (d : Dev) (f : Nat) : (freeFrame d f).fresh = d.fresh := rfl

@[simp] theorem setChannel_frame (d : Dev) (a c : Nat) : (setChannel d a c).frame = d.frame := rfl
@[simp] theorem setChannel_ev (d : Dev) (a c : Nat) : (setChannel d a c).ev = d.ev := rfl
@[simp] theorem setChannel_ash (d : Dev) (a c : Nat) : (setChannel d a c).ash = d.ash := rfl
@[simp] theorem setChannel_epell (d : Dev) (a c : Nat) : (setChannel d a c).epell = d.epell := rfl
@[simp] theorem setChannel_pow (d : Dev) (a c : Nat) : (setChannel d a c).pow = d.pow := rfl
@[simp] theorem setChannel_hearth (d : Dev) (a c : Nat) : (setChannel d a c).hearth = d.hearth := rfl
@[simp] theorem setChannel_num (d : Dev) (a c : Nat) : (setChannel d a c).num = d.num := rfl
@[simp] theorem setChannel_mem (d : Dev) (a c : Nat) : (setChannel d a c).mem = d.mem := rfl
@[simp] theorem setChannel_ink (d : Dev) (a c : Nat) : (setChannel d a c).ink = d.ink := rfl
@[simp] theorem setChannel_gen (d : Dev) (a c : Nat) : (setChannel d a c).gen = d.gen := rfl
@[simp] theorem setChannel_train (d : Dev) (a c : Nat) : (setChannel d a c).train = d.train := rfl
@[simp] theorem setChannel_snap (d : Dev) (a c : Nat) : (setChannel d a c).snap = d.snap := rfl
@[simp] theorem setChannel_base (d : Dev) (a c : Nat) : (setChannel d a c).base = d.base := rfl
@[simp] theorem setChannel_baseGens (d : Dev) (a c : Nat) : (setChannel d a c).baseGens = d.baseGens := rfl
@[simp] theorem setChannel_nextOp (d : Dev) (a c : Nat) : (setChannel d a c).nextOp = d.nextOp := rfl
@[simp] theorem setChannel_lig (d : Dev) (a c : Nat) : (setChannel d a c).lig = d.lig := rfl
@[simp] theorem setChannel_keys (d : Dev) (a c : Nat) : (setChannel d a c).keys = d.keys := rfl
@[simp] theorem setChannel_sec (d : Dev) (a c : Nat) : (setChannel d a c).sec = d.sec := rfl
@[simp] theorem setChannel_waiting (d : Dev) (a c : Nat) : (setChannel d a c).waiting = d.waiting := rfl
@[simp] theorem setChannel_out (d : Dev) (a c : Nat) : (setChannel d a c).out = d.out := rfl
@[simp] theorem setChannel_held (d : Dev) (a c : Nat) : (setChannel d a c).held = d.held := rfl
@[simp] theorem setChannel_fresh (d : Dev) (a c : Nat) : (setChannel d a c).fresh = d.fresh := rfl

@[simp] theorem setTdi_frame (d : Dev) (v a : Nat) : (setTdi d v a).frame = d.frame := rfl
@[simp] theorem setTdi_ev (d : Dev) (v a : Nat) : (setTdi d v a).ev = d.ev := rfl
@[simp] theorem setTdi_ash (d : Dev) (v a : Nat) : (setTdi d v a).ash = d.ash := rfl
@[simp] theorem setTdi_epell (d : Dev) (v a : Nat) : (setTdi d v a).epell = d.epell := rfl
@[simp] theorem setTdi_pow (d : Dev) (v a : Nat) : (setTdi d v a).pow = d.pow := rfl
@[simp] theorem setTdi_hearth (d : Dev) (v a : Nat) : (setTdi d v a).hearth = d.hearth := rfl
@[simp] theorem setTdi_num (d : Dev) (v a : Nat) : (setTdi d v a).num = d.num := rfl
@[simp] theorem setTdi_mem (d : Dev) (v a : Nat) : (setTdi d v a).mem = d.mem := rfl
@[simp] theorem setTdi_ink (d : Dev) (v a : Nat) : (setTdi d v a).ink = d.ink := rfl
@[simp] theorem setTdi_gen (d : Dev) (v a : Nat) : (setTdi d v a).gen = d.gen := rfl
@[simp] theorem setTdi_train (d : Dev) (v a : Nat) : (setTdi d v a).train = d.train := rfl
@[simp] theorem setTdi_snap (d : Dev) (v a : Nat) : (setTdi d v a).snap = d.snap := rfl
@[simp] theorem setTdi_base (d : Dev) (v a : Nat) : (setTdi d v a).base = d.base := rfl
@[simp] theorem setTdi_baseGens (d : Dev) (v a : Nat) : (setTdi d v a).baseGens = d.baseGens := rfl
@[simp] theorem setTdi_nextOp (d : Dev) (v a : Nat) : (setTdi d v a).nextOp = d.nextOp := rfl
@[simp] theorem setTdi_lig (d : Dev) (v a : Nat) : (setTdi d v a).lig = d.lig := rfl
@[simp] theorem setTdi_keys (d : Dev) (v a : Nat) : (setTdi d v a).keys = d.keys := rfl
@[simp] theorem setTdi_sec (d : Dev) (v a : Nat) : (setTdi d v a).sec = d.sec := rfl
@[simp] theorem setTdi_waiting (d : Dev) (v a : Nat) : (setTdi d v a).waiting = d.waiting := rfl
@[simp] theorem setTdi_out (d : Dev) (v a : Nat) : (setTdi d v a).out = d.out := rfl
@[simp] theorem setTdi_held (d : Dev) (v a : Nat) : (setTdi d v a).held = d.held := rfl
@[simp] theorem setTdi_fresh (d : Dev) (v a : Nat) : (setTdi d v a).fresh = d.fresh := rfl

@[simp] theorem setError_ev (d : Dev) (e : Int) : (setError d e).ev = d.ev := rfl
@[simp] theorem setError_ash (d : Dev) (e : Int) : (setError d e).ash = d.ash := rfl
@[simp] theorem setError_epell (d : Dev) (e : Int) : (setError d e).epell = d.epell := rfl
@[simp] theorem setError_pow (d : Dev) (e : Int) : (setError d e).pow = d.pow := rfl
@[simp] theorem setError_hearth (d : Dev) (e : Int) : (setError d e).hearth = d.hearth := rfl
@[simp] theorem setError_num (d : Dev) (e : Int) : (setError d e).num = d.num := rfl
@[simp] theorem setError_mem (d : Dev) (e : Int) : (setError d e).mem = d.mem := rfl
@[simp] theorem setError_ink (d : Dev) (e : Int) : (setError d e).ink = d.ink := rfl
@[simp] theorem setError_gen (d : Dev) (e : Int) : (setError d e).gen = d.gen := rfl
@[simp] theorem setError_train (d : Dev) (e : Int) : (setError d e).train = d.train := rfl
@[simp] theorem setError_snap (d : Dev) (e : Int) : (setError d e).snap = d.snap := rfl
@[simp] theorem setError_base (d : Dev) (e : Int) : (setError d e).base = d.base := rfl
@[simp] theorem setError_baseGens (d : Dev) (e : Int) : (setError d e).baseGens = d.baseGens := rfl
@[simp] theorem setError_nextOp (d : Dev) (e : Int) : (setError d e).nextOp = d.nextOp := rfl
@[simp] theorem setError_lig (d : Dev) (e : Int) : (setError d e).lig = d.lig := rfl
@[simp] theorem setError_keys (d : Dev) (e : Int) : (setError d e).keys = d.keys := rfl
@[simp] theorem setError_sec (d : Dev) (e : Int) : (setError d e).sec = d.sec := rfl
@[simp] theorem setError_waiting (d : Dev) (e : Int) : (setError d e).waiting = d.waiting := rfl
@[simp] theorem setError_out (d : Dev) (e : Int) : (setError d e).out = d.out := rfl
@[simp] theorem setError_held (d : Dev) (e : Int) : (setError d e).held = d.held := rfl
@[simp] theorem setError_fresh (d : Dev) (e : Int) : (setError d e).fresh = d.fresh := rfl

@[simp] theorem openTable_frame (d : Dev) (a p : Nat) : (openTable d a p).frame = d.frame := by unfold openTable; split <;> rfl
@[simp] theorem openTable_ev (d : Dev) (a p : Nat) : (openTable d a p).ev = d.ev := by unfold openTable; split <;> rfl
@[simp] theorem openTable_ash (d : Dev) (a p : Nat) : (openTable d a p).ash = d.ash := by unfold openTable; split <;> rfl
@[simp] theorem openTable_epell (d : Dev) (a p : Nat) : (openTable d a p).epell = d.epell := by unfold openTable; split <;> rfl
@[simp] theorem openTable_pow (d : Dev) (a p : Nat) : (openTable d a p).pow = d.pow := by unfold openTable; split <;> rfl
@[simp] theorem openTable_hearth (d : Dev) (a p : Nat) : (openTable d a p).hearth = d.hearth := by unfold openTable; split <;> rfl
@[simp] theorem openTable_num (d : Dev) (a p : Nat) : (openTable d a p).num = d.num := by unfold openTable; split <;> rfl
@[simp] theorem openTable_ink (d : Dev) (a p : Nat) : (openTable d a p).ink = d.ink := by unfold openTable; split <;> rfl
@[simp] theorem openTable_gen (d : Dev) (a p : Nat) : (openTable d a p).gen = d.gen := by unfold openTable; split <;> rfl
@[simp] theorem openTable_train (d : Dev) (a p : Nat) : (openTable d a p).train = d.train := by unfold openTable; split <;> rfl
@[simp] theorem openTable_snap (d : Dev) (a p : Nat) : (openTable d a p).snap = d.snap := by unfold openTable; split <;> rfl
@[simp] theorem openTable_base (d : Dev) (a p : Nat) : (openTable d a p).base = d.base := by unfold openTable; split <;> rfl
@[simp] theorem openTable_baseGens (d : Dev) (a p : Nat) : (openTable d a p).baseGens = d.baseGens := by unfold openTable; split <;> rfl
@[simp] theorem openTable_nextOp (d : Dev) (a p : Nat) : (openTable d a p).nextOp = d.nextOp := by unfold openTable; split <;> rfl
@[simp] theorem openTable_lig (d : Dev) (a p : Nat) : (openTable d a p).lig = d.lig := by unfold openTable; split <;> rfl
@[simp] theorem openTable_keys (d : Dev) (a p : Nat) : (openTable d a p).keys = d.keys := by unfold openTable; split <;> rfl
@[simp] theorem openTable_sec (d : Dev) (a p : Nat) : (openTable d a p).sec = d.sec := by unfold openTable; split <;> rfl
@[simp] theorem openTable_regs (d : Dev) (a p : Nat) : (openTable d a p).regs = d.regs := by unfold openTable; split <;> rfl
@[simp] theorem openTable_waiting (d : Dev) (a p : Nat) : (openTable d a p).waiting = d.waiting := by unfold openTable; split <;> rfl
@[simp] theorem openTable_out (d : Dev) (a p : Nat) : (openTable d a p).out = d.out := by unfold openTable; split <;> rfl
@[simp] theorem openTable_held (d : Dev) (a p : Nat) : (openTable d a p).held = d.held := by unfold openTable; split <;> rfl
@[simp] theorem openTable_fresh (d : Dev) (a p : Nat) : (openTable d a p).fresh = d.fresh := by unfold openTable; split <;> rfl

@[simp] theorem putPte_frame (d : Dev) (a p : Nat) (e : Pte) : (putPte d a p e).frame = d.frame := by
  unfold putPte; dsimp only; split <;> cases pteAt _ _ _ <;> simp
@[simp] theorem putPte_ev (d : Dev) (a p : Nat) (e : Pte) : (putPte d a p e).ev = d.ev := by
  unfold putPte; dsimp only; split <;> cases pteAt _ _ _ <;> simp
@[simp] theorem putPte_ash (d : Dev) (a p : Nat) (e : Pte) : (putPte d a p e).ash = d.ash := by
  unfold putPte; dsimp only; split <;> cases pteAt _ _ _ <;> simp
@[simp] theorem putPte_epell (d : Dev) (a p : Nat) (e : Pte) : (putPte d a p e).epell = d.epell := by
  unfold putPte; dsimp only; split <;> cases pteAt _ _ _ <;> simp
@[simp] theorem putPte_pow (d : Dev) (a p : Nat) (e : Pte) : (putPte d a p e).pow = d.pow := by
  unfold putPte; dsimp only; split <;> cases pteAt _ _ _ <;> simp
@[simp] theorem putPte_hearth (d : Dev) (a p : Nat) (e : Pte) : (putPte d a p e).hearth = d.hearth := by
  unfold putPte; dsimp only; split <;> cases pteAt _ _ _ <;> simp
@[simp] theorem putPte_num (d : Dev) (a p : Nat) (e : Pte) : (putPte d a p e).num = d.num := by
  unfold putPte; dsimp only; split <;> cases pteAt _ _ _ <;> simp
@[simp] theorem putPte_ink (d : Dev) (a p : Nat) (e : Pte) : (putPte d a p e).ink = d.ink := by
  unfold putPte; dsimp only; split <;> cases pteAt _ _ _ <;> simp
@[simp] theorem putPte_gen (d : Dev) (a p : Nat) (e : Pte) : (putPte d a p e).gen = d.gen := by
  unfold putPte; dsimp only; split <;> cases pteAt _ _ _ <;> simp
@[simp] theorem putPte_train (d : Dev) (a p : Nat) (e : Pte) : (putPte d a p e).train = d.train := by
  unfold putPte; dsimp only; split <;> cases pteAt _ _ _ <;> simp
@[simp] theorem putPte_snap (d : Dev) (a p : Nat) (e : Pte) : (putPte d a p e).snap = d.snap := by
  unfold putPte; dsimp only; split <;> cases pteAt _ _ _ <;> simp
@[simp] theorem putPte_base (d : Dev) (a p : Nat) (e : Pte) : (putPte d a p e).base = d.base := by
  unfold putPte; dsimp only; split <;> cases pteAt _ _ _ <;> simp
@[simp] theorem putPte_baseGens (d : Dev) (a p : Nat) (e : Pte) : (putPte d a p e).baseGens = d.baseGens := by
  unfold putPte; dsimp only; split <;> cases pteAt _ _ _ <;> simp
@[simp] theorem putPte_nextOp (d : Dev) (a p : Nat) (e : Pte) : (putPte d a p e).nextOp = d.nextOp := by
  unfold putPte; dsimp only; split <;> cases pteAt _ _ _ <;> simp
@[simp] theorem putPte_lig (d : Dev) (a p : Nat) (e : Pte) : (putPte d a p e).lig = d.lig := by
  unfold putPte; dsimp only; split <;> cases pteAt _ _ _ <;> simp
@[simp] theorem putPte_keys (d : Dev) (a p : Nat) (e : Pte) : (putPte d a p e).keys = d.keys := by
  unfold putPte; dsimp only; split <;> cases pteAt _ _ _ <;> simp
@[simp] theorem putPte_sec (d : Dev) (a p : Nat) (e : Pte) : (putPte d a p e).sec = d.sec := by
  unfold putPte; dsimp only; split <;> cases pteAt _ _ _ <;> simp
@[simp] theorem putPte_regs (d : Dev) (a p : Nat) (e : Pte) : (putPte d a p e).regs = d.regs := by
  unfold putPte; dsimp only; split <;> cases pteAt _ _ _ <;> simp
@[simp] theorem putPte_waiting (d : Dev) (a p : Nat) (e : Pte) : (putPte d a p e).waiting = d.waiting := by
  unfold putPte; dsimp only; split <;> cases pteAt _ _ _ <;> simp
@[simp] theorem putPte_out (d : Dev) (a p : Nat) (e : Pte) : (putPte d a p e).out = d.out := by
  unfold putPte; dsimp only; split <;> cases pteAt _ _ _ <;> simp
@[simp] theorem putPte_held (d : Dev) (a p : Nat) (e : Pte) : (putPte d a p e).held = d.held := by
  unfold putPte; dsimp only; split <;> cases pteAt _ _ _ <;> simp
@[simp] theorem putPte_fresh (d : Dev) (a p : Nat) (e : Pte) : (putPte d a p e).fresh = d.fresh := by
  unfold putPte; dsimp only; split <;> cases pteAt _ _ _ <;> simp

@[simp] theorem writePte_frame (d : Dev) (a p : Nat) (e : Pte) : (writePte d a p e).frame = d.frame := by
  unfold writePte; split <;> simp
@[simp] theorem writePte_ev (d : Dev) (a p : Nat) (e : Pte) : (writePte d a p e).ev = d.ev := by
  unfold writePte; split <;> simp
@[simp] theorem writePte_ash (d : Dev) (a p : Nat) (e : Pte) : (writePte d a p e).ash = d.ash := by
  unfold writePte; split <;> simp
@[simp] theorem writePte_epell (d : Dev) (a p : Nat) (e : Pte) : (writePte d a p e).epell = d.epell := by
  unfold writePte; split <;> simp
@[simp] theorem writePte_pow (d : Dev) (a p : Nat) (e : Pte) : (writePte d a p e).pow = d.pow := by
  unfold writePte; split <;> simp
@[simp] theorem writePte_hearth (d : Dev) (a p : Nat) (e : Pte) : (writePte d a p e).hearth = d.hearth := by
  unfold writePte; split <;> simp
@[simp] theorem writePte_num (d : Dev) (a p : Nat) (e : Pte) : (writePte d a p e).num = d.num := by
  unfold writePte; split <;> simp
@[simp] theorem writePte_ink (d : Dev) (a p : Nat) (e : Pte) : (writePte d a p e).ink = d.ink := by
  unfold writePte; split <;> simp
@[simp] theorem writePte_gen (d : Dev) (a p : Nat) (e : Pte) : (writePte d a p e).gen = d.gen := by
  unfold writePte; split <;> simp
@[simp] theorem writePte_train (d : Dev) (a p : Nat) (e : Pte) : (writePte d a p e).train = d.train := by
  unfold writePte; split <;> simp
@[simp] theorem writePte_snap (d : Dev) (a p : Nat) (e : Pte) : (writePte d a p e).snap = d.snap := by
  unfold writePte; split <;> simp
@[simp] theorem writePte_base (d : Dev) (a p : Nat) (e : Pte) : (writePte d a p e).base = d.base := by
  unfold writePte; split <;> simp
@[simp] theorem writePte_baseGens (d : Dev) (a p : Nat) (e : Pte) : (writePte d a p e).baseGens = d.baseGens := by
  unfold writePte; split <;> simp
@[simp] theorem writePte_nextOp (d : Dev) (a p : Nat) (e : Pte) : (writePte d a p e).nextOp = d.nextOp := by
  unfold writePte; split <;> simp
@[simp] theorem writePte_lig (d : Dev) (a p : Nat) (e : Pte) : (writePte d a p e).lig = d.lig := by
  unfold writePte; split <;> simp
@[simp] theorem writePte_keys (d : Dev) (a p : Nat) (e : Pte) : (writePte d a p e).keys = d.keys := by
  unfold writePte; split <;> simp
@[simp] theorem writePte_sec (d : Dev) (a p : Nat) (e : Pte) : (writePte d a p e).sec = d.sec := by
  unfold writePte; split <;> simp
@[simp] theorem writePte_regs (d : Dev) (a p : Nat) (e : Pte) : (writePte d a p e).regs = d.regs := by
  unfold writePte; split <;> simp
@[simp] theorem writePte_waiting (d : Dev) (a p : Nat) (e : Pte) : (writePte d a p e).waiting = d.waiting := by
  unfold writePte; split <;> simp
@[simp] theorem writePte_out (d : Dev) (a p : Nat) (e : Pte) : (writePte d a p e).out = d.out := by
  unfold writePte; split <;> simp
@[simp] theorem writePte_held (d : Dev) (a p : Nat) (e : Pte) : (writePte d a p e).held = d.held := by
  unfold writePte; split <;> simp
@[simp] theorem writePte_fresh (d : Dev) (a p : Nat) (e : Pte) : (writePte d a p e).fresh = d.fresh := by
  unfold writePte; split <;> simp

@[simp] theorem releaseBlocks_frame (d : Dev) (q : GenReq) : (releaseBlocks d q).frame = d.frame := by
  unfold releaseBlocks; cases q.tableAt <;> simp
@[simp] theorem releaseBlocks_ev (d : Dev) (q : GenReq) : (releaseBlocks d q).ev = d.ev := by
  unfold releaseBlocks; cases q.tableAt <;> simp
@[simp] theorem releaseBlocks_ash (d : Dev) (q : GenReq) : (releaseBlocks d q).ash = d.ash := by
  unfold releaseBlocks; cases q.tableAt <;> simp
@[simp] theorem releaseBlocks_epell (d : Dev) (q : GenReq) : (releaseBlocks d q).epell = d.epell := by
  unfold releaseBlocks; cases q.tableAt <;> simp
@[simp] theorem releaseBlocks_pow (d : Dev) (q : GenReq) : (releaseBlocks d q).pow = d.pow := by
  unfold releaseBlocks; cases q.tableAt <;> simp
@[simp] theorem releaseBlocks_hearth (d : Dev) (q : GenReq) : (releaseBlocks d q).hearth = d.hearth := by
  unfold releaseBlocks; cases q.tableAt <;> simp
@[simp] theorem releaseBlocks_num (d : Dev) (q : GenReq) : (releaseBlocks d q).num = d.num := by
  unfold releaseBlocks; cases q.tableAt <;> simp
@[simp] theorem releaseBlocks_ink (d : Dev) (q : GenReq) : (releaseBlocks d q).ink = d.ink := by
  unfold releaseBlocks; cases q.tableAt <;> simp
@[simp] theorem releaseBlocks_train (d : Dev) (q : GenReq) : (releaseBlocks d q).train = d.train := by
  unfold releaseBlocks; cases q.tableAt <;> simp
@[simp] theorem releaseBlocks_snap (d : Dev) (q : GenReq) : (releaseBlocks d q).snap = d.snap := by
  unfold releaseBlocks; cases q.tableAt <;> simp
@[simp] theorem releaseBlocks_base (d : Dev) (q : GenReq) : (releaseBlocks d q).base = d.base := by
  unfold releaseBlocks; cases q.tableAt <;> simp
@[simp] theorem releaseBlocks_baseGens (d : Dev) (q : GenReq) : (releaseBlocks d q).baseGens = d.baseGens := by
  unfold releaseBlocks; cases q.tableAt <;> simp
@[simp] theorem releaseBlocks_nextOp (d : Dev) (q : GenReq) : (releaseBlocks d q).nextOp = d.nextOp := by
  unfold releaseBlocks; cases q.tableAt <;> simp
@[simp] theorem releaseBlocks_lig (d : Dev) (q : GenReq) : (releaseBlocks d q).lig = d.lig := by
  unfold releaseBlocks; cases q.tableAt <;> simp
@[simp] theorem releaseBlocks_keys (d : Dev) (q : GenReq) : (releaseBlocks d q).keys = d.keys := by
  unfold releaseBlocks; cases q.tableAt <;> simp
@[simp] theorem releaseBlocks_sec (d : Dev) (q : GenReq) : (releaseBlocks d q).sec = d.sec := by
  unfold releaseBlocks; cases q.tableAt <;> simp
@[simp] theorem releaseBlocks_regs (d : Dev) (q : GenReq) : (releaseBlocks d q).regs = d.regs := by
  unfold releaseBlocks; cases q.tableAt <;> simp
@[simp] theorem releaseBlocks_waiting (d : Dev) (q : GenReq) : (releaseBlocks d q).waiting = d.waiting := by
  unfold releaseBlocks; cases q.tableAt <;> simp
@[simp] theorem releaseBlocks_out (d : Dev) (q : GenReq) : (releaseBlocks d q).out = d.out := by
  unfold releaseBlocks; cases q.tableAt <;> simp
@[simp] theorem releaseBlocks_held (d : Dev) (q : GenReq) : (releaseBlocks d q).held = d.held := by
  unfold releaseBlocks; cases q.tableAt <;> simp
@[simp] theorem releaseBlocks_fresh (d : Dev) (q : GenReq) : (releaseBlocks d q).fresh = d.fresh := by
  unfold releaseBlocks; cases q.tableAt <;> simp

@[simp] theorem dropReq_frame (d : Dev) (q : GenReq) : (dropReq d q).frame = d.frame := by simp [dropReq]
@[simp] theorem dropReq_ev (d : Dev) (q : GenReq) : (dropReq d q).ev = d.ev := by simp [dropReq]
@[simp] theorem dropReq_ash (d : Dev) (q : GenReq) : (dropReq d q).ash = d.ash := by simp [dropReq]
@[simp] theorem dropReq_epell (d : Dev) (q : GenReq) : (dropReq d q).epell = d.epell := by simp [dropReq]
@[simp] theorem dropReq_pow (d : Dev) (q : GenReq) : (dropReq d q).pow = d.pow := by simp [dropReq]
@[simp] theorem dropReq_hearth (d : Dev) (q : GenReq) : (dropReq d q).hearth = d.hearth := by simp [dropReq]
@[simp] theorem dropReq_num (d : Dev) (q : GenReq) : (dropReq d q).num = d.num := by simp [dropReq]
@[simp] theorem dropReq_ink (d : Dev) (q : GenReq) : (dropReq d q).ink = d.ink := by simp [dropReq]
@[simp] theorem dropReq_train (d : Dev) (q : GenReq) : (dropReq d q).train = d.train := by simp [dropReq]
@[simp] theorem dropReq_snap (d : Dev) (q : GenReq) : (dropReq d q).snap = d.snap := by simp [dropReq]
@[simp] theorem dropReq_base (d : Dev) (q : GenReq) : (dropReq d q).base = d.base := by simp [dropReq]
@[simp] theorem dropReq_baseGens (d : Dev) (q : GenReq) : (dropReq d q).baseGens = d.baseGens := by simp [dropReq]
@[simp] theorem dropReq_nextOp (d : Dev) (q : GenReq) : (dropReq d q).nextOp = d.nextOp := by simp [dropReq]
@[simp] theorem dropReq_lig (d : Dev) (q : GenReq) : (dropReq d q).lig = d.lig := by simp [dropReq]
@[simp] theorem dropReq_keys (d : Dev) (q : GenReq) : (dropReq d q).keys = d.keys := by simp [dropReq]
@[simp] theorem dropReq_sec (d : Dev) (q : GenReq) : (dropReq d q).sec = d.sec := by simp [dropReq]
@[simp] theorem dropReq_regs (d : Dev) (q : GenReq) : (dropReq d q).regs = d.regs := by simp [dropReq]
@[simp] theorem dropReq_waiting (d : Dev) (q : GenReq) : (dropReq d q).waiting = d.waiting := by simp [dropReq]
@[simp] theorem dropReq_out (d : Dev) (q : GenReq) : (dropReq d q).out = d.out := by simp [dropReq]
@[simp] theorem dropReq_held (d : Dev) (q : GenReq) : (dropReq d q).held = d.held := by simp [dropReq]
@[simp] theorem dropReq_fresh (d : Dev) (q : GenReq) : (dropReq d q).fresh = d.fresh := by simp [dropReq]

@[simp] theorem atOff_frame (d : Dev) (o : Nat) : (atOff d o).frame = { d.frame with off := max d.frame.off o } := rfl
@[simp] theorem emit_out (d : Dev) (x : Out) : (emit d x).out = x :: d.out := rfl
@[simp] theorem setFrame_frame (d : Dev) (f : FrameS → FrameS) : (setFrame d f).frame = f d.frame := rfl
@[simp] theorem setPow_pow (d : Dev) (f : PowS → PowS) : (setPow d f).pow = f d.pow := rfl
@[simp] theorem reg_atOff (d : Dev) (o i j : Nat) : reg (atOff d o) i j = reg d i j := rfl
@[simp] theorem reg_emit (d : Dev) (x : Out) (i j : Nat) : reg (emit d x) i j = reg d i j := rfl
@[simp] theorem source_setReg (d : Dev) (i j v n : Nat) : source (setReg d i j v) n = source d n := rfl
@[simp] theorem source_atOff (d : Dev) (o n : Nat) : source (atOff d o) n = source d n := rfl
@[simp] theorem source_bump (d : Dev) (i j v n : Nat) : source (bump d i j v) n = source d n := rfl
@[simp] theorem reg_setSource (d : Dev) (n : Nat) (q : Source) (i j : Nat) : reg (setSource d n q) i j = reg d i j := rfl

/-- A firing of a source other than FATAL touches the event router and the counters, nothing else. -/
theorem raise_frame (d : Dev) (n code arg : Nat) (h : n ≠ 0) :
    { raise d n code arg with ev := d.ev, regs := d.regs } = d := by
  unfold raise
  split
  · rfl
  · dsimp only
    split
    · rfl
    · split <;> rfl

end Sys2Proof.Machine
end

