-- ==== Sys2Proof/Laws/Ops.lean ====
section
/-!
SUPPORT. What the shared operations do, one lemma each: what is read back after it was put, what a firing does, what a message that
arrives and a request that is let in do.
-/
namespace Sys2Proof.Machine
open Sys2Proof

/-! ## Reading back -/

theorem source_setSource (d : Dev) (n m : Nat) (q : Source) : source (setSource d n q) m = if m = n then q else source d m := by
  unfold source setSource
  by_cases h : m = n
  · subst h; simpa using Table.get_set_self _ _ _ _
  · simpa [h] using Table.get_set_ne _ _ _ _ _ _ h
theorem port_setPort (d : Dev) (p k : Nat) (x : PortS) : port (setPort d p x) k = if k = p then x else port d k := Table.get_set _ _ _ _ _
theorem keySlot_setKey (d : Dev) (a k : Nat) (x : KeySlot) : keySlot (setKey d a x) k = if k = a then x else keySlot d k :=
  Table.get_set _ _ _ _ _
theorem appAt_setApp (d : Dev) (a k : Nat) (x : App) : appAt (setApp d a x) k = if k = a then some x else appAt d k :=
  Table.get_set none d.gen.apps a k (some x)
theorem snapOf_setSnap (d : Dev) (a k : Nat) (x : Snap) : snapOf (setSnap d a x) k = if k = a then x else snapOf d k :=
  Table.get_set _ _ _ _ _
theorem baseOf_setBase (d : Dev) (a k : Nat) (x : BaseS) : baseOf (setBase d a x) k = if k = a then x else baseOf d k :=
  Table.get_set _ _ _ _ _
theorem haltOf_setHalt (d : Dev) (a k : Nat) (x : Halt) : haltOf (setHalt d a x) k = if k = a then x else haltOf d k :=
  Table.get_set _ _ _ _ _
theorem ring_setRing (d : Dev) (a k : Nat) (x : BitVec 256) : ring (setRing d a x) k = if k = a then x else ring d k :=
  Table.get_set _ _ _ _ _
theorem slot_setSlot (d : Dev) (a k : Nat) (x : Slot) : slot (setSlot d a x) k = if k = a then x else slot d k :=
  Table.get_set _ _ _ _ _
theorem variant_setVariant (d : Dev) (a k : Nat) (x : Option VarRec) :
    variant (setVariant d a x) k = if k = a then x else variant d k := Table.get_set _ _ _ _ _
theorem task_setTask (d : Dev) (a k : Nat) (x : Task) : task (setTask d a x) k = if k = a then some x else task d k :=
  Table.get_set none d.frame.tasks a k (some x)
theorem stream_setStream (d : Dev) (a k : Nat) (x : Stream) : stream (setStream d a x) k = if k = a then x else stream d k :=
  Table.get_set _ _ _ _ _
theorem sem_setSem (d : Dev) (c a k v : Nat) : sem (setSem d c a v) c k = if k = a then v else sem d c k := by
  have h := Table.get_set (0 : Nat) d.mem.sems (1024 * c + a) (1024 * c + k) v
  simpa [sem, setSem] using h
@[simp] theorem reg_bump (d : Dev) (i j n : Nat) : reg (bump d i j n) i j = reg d i j + n := reg_setReg_self _ _ _ _

/-! ## Firing (R415) -/

/-- A firing of any source but FATAL changes event sources and counters, and nothing else. -/
theorem raise_only (d : Dev) (n code arg : Nat) (h : n ≠ 0) : { raise d n code arg with ev := d.ev, regs := d.regs } = d := by
  simp only [raise, if_neg h]
  split
  · rfl
  · split
    · rfl
    · split <;> rfl

theorem raise_source_ne (d : Dev) (n m code arg : Nat) (h : n ≠ 0) (hm : m ≠ n) : source (raise d n code arg) m = source d m := by
  simp only [raise, if_neg h]
  split
  · rfl
  · split
    · rfl
    · split <;> (try simp only [coalesce]) <;> rw [source_setSource, if_neg hm] <;> rfl

/-- An INACTIVE source of LEVEL above 0 becomes PENDING with the firing's frame, offset, CODE and ARG. -/
theorem raise_inactive (d : Dev) (n code arg : Nat) (h : n ≠ 0) (hi : srcInfo n ≠ none) (hs : (source d n).st = .inactive)
    (hl : (source d n).level ≠ 0) : source (raise d n code arg) n =
      { source d n with
        frame := d.frame.no, offset := d.frame.off, code := code, arg := arg
        st := .pending, coalesced := 0, since := now d, raised := 0 } := by
  have hb : source (bump d 0x7004 0x00 1) n = source d n := rfl
  simp only [raise, if_neg hi, if_neg h, hb, if_neg hl, hs]
  rw [source_setSource, if_pos rfl]; rfl

theorem raise_counted (d : Dev) (n code arg : Nat) (h : n ≠ 0) (hi : srcInfo n ≠ none) :
    reg (raise d n code arg) 0x7004 0x00 = reg d 0x7004 0x00 + 1 := by
  have hb : reg (bump d 0x7004 0x00 1) 0x7004 0x00 = reg d 0x7004 0x00 + 1 := reg_bump _ _ _ _
  have hc : ∀ e : Dev, reg (bump e 0x7004 0x01 1) 0x7004 0x00 = reg e 0x7004 0x00 :=
    fun e => reg_setReg_ne _ _ _ _ _ _ (by decide)
  simp only [raise, if_neg hi, if_neg h]
  split
  · exact hb
  · split <;> simp [coalesce, hc]

/-! ## Every element in turn -/

/-- What the function keeps at each element holds at the end. -/
theorem forEach_keeps {α β : Type} (p : β → Prop) (l : List α) (d : β) (f : β → α → β) (h : p d)
    (hf : ∀ d x, x ∈ l → p d → p (f d x)) : p (forEach l d f) := by
  unfold forEach
  exact List.foldlRecOn l f h (fun e he x hx => hf e x hx he)

/-- What the function leaves alone at each element is unchanged at the end. -/
theorem forEach_same {α β γ : Type} (g : β → γ) (l : List α) (d : β) (f : β → α → β) (hf : ∀ d x, x ∈ l → g (f d x) = g d) :
    g (forEach l d f) = g d :=
  forEach_keeps (fun e => g e = g d) l d f rfl (fun e x hx he => (hf e x hx).trans he)

/-! ## Messages and requests -/

/-- A message that arrives is the device's to take, and reading it changes nothing. -/
theorem receive_arrives (d : Dev) (p kind : Nat) (m : Msg) (h : arrives d p kind m) : receive d p kind m = (d, true) := by
  obtain ⟨h1, h2, h3, h7, h4, h5, h6⟩ := h
  have h5' : ¬(d.pow.warm = true ∧ running d = false) := by
    rintro ⟨a, b⟩; rw [a, b] at h5; exact absurd h5 (by decide)
  have h2' : kindVc kind ≠ none := h3 ▸ h2
  simp [receive, h1, h2', h3, h4, h5', h6, h7]

/-- A request that is let in is served on the device that has noted it. -/
theorem request_letIn (n : Nv) (d : Dev) (req : Req) (a : Ask) (x : Session) (h : letIn d req x) :
    request n d req a = serveAsk n (heard d req x) (noted d req x) req.tag a := by
  obtain ⟨h1, h2, h3, h4, h5, h6, h7⟩ := h
  have hs : ∀ y : Session, y.staged = none → continuesStage y a = true := by
    intro y hy; cases a <;> simp [continuesStage, hy]
  have hs' := hs (noted d req x) h7
  simp only [noted] at hs'
  simp [request, h1, h2, h3, h4, Nat.not_le.mpr h5, Nat.not_le.mpr h6, heard, noted, hs']

/-- The queue is no meaning's business (log entry 1). -/
theorem onBoth_pending (s t : State) (f : Nv → Dev → Nv × Dev) (h : onBoth s f = .next t) : t.pending = s.pending := by
  simp only [onBoth, Host.Outcome.next.injEq] at h; rw [← h]

end Sys2Proof.Machine
end

