-- ==== Sys2Proof/Tests/Slice0.lean ====
section
/-!
SUPPORT. Tests: the check of well-formed commands, and for every obligation states and operands that meet its hypotheses.
-/
namespace Sys2Proof.Tests
open Sys2Proof Sys2Proof.Machine

set_option Elab.async false

/-! ## States -/

/-- The state after reset with another device. -/
def st (d : Dev) : State := { State.reset with dev := d }
/-- READY in frame 5 at hclk 1,000 before its cut-off, with nothing loaded. -/
def open_ : Dev := { Dev.reset with
  frame := { FrameS.reset with no := 5, off := 1000, base := 2000000 }
  pow := { PowS.reset with stage := .ready, dev := .ready } }
/-- The same device as manager. -/
def mgr : Dev := setReg open_ 0x4000 0x01 1
def s0 : State := st open_
def at1 : AtOp := ⟨2000⟩

/-! ## Commands that name units of the device (WellFormed) -/

theorem test_wf_port : Instr.wf (.upstreamDelayMeasure ⟨0, 15⟩) = true ∧ Instr.wf (.upstreamDelayMeasure ⟨0, 16⟩) = false := by decide
theorem test_wf_engine : Instr.wf (.windowClose ⟨0, 1, 1063⟩) = true ∧ Instr.wf (.windowClose ⟨0, 1, 4096⟩) = false := by decide
theorem test_wf_stream : Instr.wf (.nop ⟨0, 1055, 1⟩) = true ∧ Instr.wf (.nop ⟨0, 1056, 1⟩) = false := by decide
theorem test_wf_hearth : Instr.wf (.tileStepEnd ⟨0, 255, 1⟩) = true ∧ Instr.wf (.tileStepEnd ⟨0, 256, 1⟩) = false := by decide
theorem test_wf_array : Instr.wf (.tileStepEnd ⟨0, 0, 2⟩) = false := by decide
theorem test_wf_domain : Instr.wf (.domainFault ⟨0, 95⟩) = true ∧ Instr.wf (.domainFault ⟨0, 96⟩) = false := by decide
theorem test_wf_channel : Instr.wf (.dimmSupplyLoss ⟨0, 31⟩) = true ∧ Instr.wf (.dimmSupplyLoss ⟨0, 32⟩) = false := by decide
theorem test_wf_part : Instr.wf (.damperStep ⟨7, 1023, false⟩) = true ∧ Instr.wf (.damperStep ⟨8, 0, false⟩) = false ∧ Instr.wf (.damperStep ⟨0, 1024, true⟩) = false := by decide
theorem test_wf_group : Instr.wf (.channelRetrainDone ⟨0, 7, []⟩) = true ∧ Instr.wf (.channelRetrainDone ⟨0, 8, []⟩) = false := by decide
theorem test_wf_link : Instr.wf (.ucieModuleFail ⟨0, 11⟩) = true ∧ Instr.wf (.ucieModuleFail ⟨0, 12⟩) = false := by decide
theorem test_wf_vf : Instr.wf (.getVersion ⟨0, 8⟩) = true ∧ Instr.wf (.getVersion ⟨0, 0⟩) = false ∧ Instr.wf (.getVersion ⟨0, 9⟩) = false := by decide
theorem test_wf_cp : Instr.wf (.watchdogExpiry ⟨0, 7⟩) = true ∧ Instr.wf (.watchdogExpiry ⟨0, 8⟩) = false := by decide
theorem test_wf_slot : Instr.wf (.pin ⟨0, 4095, 0⟩) = true ∧ Instr.wf (.pin ⟨0, 4096, 0⟩) = false := by decide
theorem test_wf_source : Instr.wf (.eventFire ⟨0, 2047, 0, 0⟩) = true ∧ Instr.wf (.eventFire ⟨0, 2048, 0, 0⟩) = false := by decide
theorem test_wf_target : Instr.wf (.eventTake ⟨0, .cp 7, []⟩) = true ∧ Instr.wf (.eventTake ⟨0, .cp 8, []⟩) = false ∧
    Instr.wf (.eventTake ⟨0, .vector 64, []⟩) = false := by decide
theorem test_wf_escalate : Instr.wf (.eventEscalate ⟨0, .ring 32767⟩) = true ∧ Instr.wf (.eventEscalate ⟨0, .ring 32768⟩) = false := by decide
theorem test_wf_scope : Instr.wf (.resetDrainComplete ⟨0, .hearth 287⟩) = true ∧ Instr.wf (.resetDrainComplete ⟨0, .hearth 288⟩) = false ∧
    Instr.wf (.resetDrainComplete ⟨0, .cluster 32⟩) = false ∧ Instr.wf (.resetDrainComplete ⟨0, .partition 8⟩) = false := by decide
theorem test_wf_proof : Instr.wf (.proofStrokeComplete ⟨0, [⟨true, 31, 65⟩, ⟨false, 287, 32⟩], [287], [31], [7], [31], true⟩) = true ∧
    Instr.wf (.proofStrokeComplete ⟨0, [⟨false, 0, 33⟩], [], [], [], [], true⟩) = false ∧
    Instr.wf (.proofStrokeComplete ⟨0, [], [288], [], [], [], true⟩) = false := by decide
theorem test_wf_runs_not : exec (.pin ⟨0, 4096, 0⟩) s0 = .fault .noSuchUnit := rfl

/-! ## Witnesses: events -/

/-- Source 4 PENDING since hclk 0 with an AGE_LIMIT of 4, source 9 ACTIVE. -/
def src4 : Source := { srcIdle 8 with reg := srcReset 4, st := .pending, since := 0, code := 1 }
def evDev : Dev := setSource (setSource open_ 4 src4) 9 { srcIdle 9 with st := .active }

theorem wit_EffectiveLevel : src4.st = .pending ∧ 0 < src4.level ∧ src4.level < 15 ∧ 0 < src4.ageLimit ∧
    ({ src4 with reg := 0 }).level = 0 ∧ (source evDev 9).st ≠ .pending := by decide
theorem test_level_ages : effLevel evDev src4 = 14 := by decide

def fire (n : Nat) : FireOp := ⟨1500, n, 3, 77⟩
theorem wit_EventFirePends : srcInfo 4 ≠ none ∧ (source evDev 4).st = .pending ∧ (source evDev 9).st = .active ∧
    (source evDev 5).st = .inactive ∧ (source evDev 5).level ≠ 0 ∧ srcInfo 1280 ≠ none ∧ (source evDev 1280).level = 0 ∧
    (source (setSource evDev 6 { srcIdle 6 with st := .activePending }) 6).st = .activePending := by decide

/-- A firmware source fired for CP1, one for vector 3. -/
def takeDev : Dev := setSource (setSource open_ (partSrc 1 8) { srcIdle (partSrc 1 8) with st := .pending }) 4
  { src4 with reg := setField (setField (srcReset 4) 4 2 1) 6 6 3 }
theorem wit_EventTaken : offered (atOff takeDev 1500) (.cp 1) = some (9 + 5, 0, partSrc 1 8) ∧ targetRoom takeDev (.cp 1) = true ∧
    reg takeDev 0x7003 2 < 14 ∧ cpLevel takeDev 1 < 14 ∧ (source takeDev (partSrc 1 8)).to = .cp 1 ∧
    14 ≤ cpLevel { takeDev with ev := { takeDev.ev with handlers := [(1, [(0, 15)])] } } 1 ∧
    (offered (atOff takeDev 1500) (.vector 3)).isSome = true ∧ targetRoom takeDev (.vector 3) = true ∧ (source takeDev 4).to = .vector 3 := by
  decide

def eoiDev (x : SrcState) : Dev :=
  let d := setSource open_ 72 { srcIdle 72 with st := x }
  { d with ev := { d.ev with handlers := [(0, [(72, 9), (1, 5)])] } }
theorem wit_EoiCompletes : (eoiDev .active).ev.handlers.get [] 0 = (72, 9) :: [(1, 5)] ∧ (source (eoiDev .active) 72).st = .active ∧
    (source (eoiDev .activePending) 72).st = .activePending ∧ (source (eoiDev .activePending) 72).to = .cp 0 ∧
    targetRing (eoiDev .activePending) (.cp 0) = none := by decide

/-- Ring 2, of firmware, enabled, with one of 8 entries. -/
def ring2 : BitVec 256 := BitVec.ofNat 256 (packBits [(64, 3, 3), (76, 4, 8), (92, 1, 1), (96, 17, 0), (113, 17, 1), (130, 1, 1), (144, 4, 2),
  (148, 12, 1), (160, 16, 9)])
def ringDev : Dev := { open_ with ev := { open_.ev with rings := [(2, ring2)], ringAge := [(2, [(1, 0)])], scrubWait := 5000 } }
theorem wit_Escalations : (source takeDev 4).st = .pending ∧ (source evDev 4).level + (source evDev 4).raised < effLevel evDev (source evDev 4) ∧
    ringEnabled (ring ringDev 2) = true ∧ ringPrio (ring ringDev 2) + ringDev.ev.ringRaised.get 0 2 < ringLevel ringDev 2 (ring ringDev 2) ∧
    ringDev.ev.scrubPlace < 2 ∧ 0 < reg ringDev 0x7020 0x00 ∧
    (ringDev.ev.scrubPlace + 1) * reg ringDev 0x7020 0x00 ≤ ringDev.ev.scrubWait := by decide

theorem wit_FatalStops : (FatalOp.mk 0 2).code = 2 ∧ s0.dev.pow.stage ≠ .gasp ∧ s0.dev.ash.firstFault.length < 1024 ∧ (source s0.dev 0).st = .inactive ∧
    (source s0.dev 0).log = true ∧ s0.dev.ash.perFrame < reg s0.dev 0xA003 0x00 ∧
    (source (fatal s0.dev 1) 0).st = .active ∧ (fatal s0.dev 1).pow.stage ≠ .gasp ∧ (source (setSource s0.dev 0 { srcIdle 0 with reg := 0 }) 0).log = false ∧
    (FatalOp.mk 0 3).code ≠ 1 ∧ (FatalOp.mk 0 3).code ≠ 2 := by decide

def bell (i : Nat) : DoorbellOp := ⟨1500, false, 8, 9, i, []⟩
theorem wit_DoorbellsMoveIndices : (∀ r ∈ ringDev.gen.resps, r.waits = false) ∧ doorbellRing (atOff ringDev 1500) false 8 9 = some 2 ∧ ringSize ring2 = 8 ∧ ringFill ring2 = 1 ∧
    ringAhead ring2 0 8 = 8 ∧ field ring2 113 17 ≠ 8 ∧ ringAhead ring2 0 1 ≤ ringFill ring2 ∧ field ring2 96 17 ≠ 1 ∧
    passed ringDev 2 0 1 = [] ∧ ringSize ring2 < ringAhead ring2 0 9 ∧ ringFill ring2 < ringAhead ring2 0 2 ∧
    servedRing (atOff ringDev 1500) = some 2 ∧ ringShared ring2 = true := by decide

/-! ## Witnesses: frames, sequencers -/

def msg0 : Msg :=
  { kind := 0x01, vc := 0, cls := 3, dstUnit := 8, dstDevice := 7, srcDevice := 2, srcUnit := 8, tag := 0, hops := 15, epoch := 3,
    stamp := 6, addr := 0, seg := 0, segs := 1, arg := 0, body := [] }
def tables0 : Tables :=
  { number := 7, routes := [(2, 0)], groups := [(0, [3])], cables := [], parent := 2, depth := 1, children := [],
    epochs := [(2, 3)], edge := 1 }
/-- Device 7 of a system, with port 3 UP on the link to device 2, its parent. -/
def netDev : Dev :=
  let d := setReg open_ 0x4001 0x00 7
  { d with lig := { d.lig with tables := some tables0, routes := [(2, 0)], ports := [(3, { portIdle with st := .up, credit := [(0, 64), (1, 64), (2, 64), (3, 64)] })] } }
def tick0 : TickMsg := { off := 1500, port := 3, msg := msg0, correction := 10, term := 0, changes := [], residence := 5 }
def holdDev : Dev := { netDev with frame := { netDev.frame with tick := .holdover, holdRun := 600000, timer := true, adopted := true } }
def edge0 : TickEdgeOp := ⟨77, [], [], []⟩
def pin0 : EdgePinOp := ⟨1500, 5000000⟩

theorem wit_TickEdgeBeginsFrame : (st (readyDev 4 9 3)).dev = readyDev 4 9 3 ∧ edge0.tree = [] ∧ edge0.losses = [] ∧ edge0.evals = [] ∧
    running State.reset.dev = false := by decide
theorem wit_TickArrives : arrives (atOff holdDev 1500) 3 0x01 { msg0 with body := tickBody (relayed (atOff holdDev 1500) tick0) 0 [] } ∧
    reg holdDev 0x4002 0x00 ≤ 0 ∧ reg holdDev 0x4000 0x01 ≠ 1 ∧ reg holdDev 0x1020 0x00 = 1 ∧
    tickSource (setReg open_ 0x1020 0x00 2) = 2 ∧ tickCounts (atOff holdDev 1500) (tickAt (atOff holdDev 1500) tick0) = true ∧
    tickCounts (atOff open_ 210000) (tickAt (atOff open_ 210000) tick0) = false := by
  unfold arrives; decide +kernel
theorem wit_HoldoverAndExpiry : running netDev = true ∧ tickSource netDev = 1 ∧ netDev.frame.announced = none ∧ netDev.frame.timer = false ∧
    netDev.frame.tick ≠ .expired ∧ holdDev.frame.tick = .holdover ∧ reg holdDev 0x1021 0x00 ≤ holdDev.frame.holdRun ∧ tickSource mgr = 0 ∧
    (source holdDev 2).st = .inactive ∧ (source holdDev 2).level ≠ 0 := by decide
def ppsDev : Dev := setReg mgr 0x1030 0x00 1
theorem wit_PulsesAndDelays : usesPps ppsDev = true ∧ 1000000 % reg ppsDev 0x1010 0x00 = 0 ∧
    1000000 % reg (setReg ppsDev 0x1010 0x00 700) 0x1010 0x00 ≠ 0 ∧ usesPps (setReg ppsDev 0x1010 0x00 700) = true ∧
    portUp netDev 3 = true ∧ upstream netDev 3 = true := by decide
def sens0 : Sensors := ⟨[40000], 1000, [], 48000, []⟩
def plan0 : Plan :=
  { tasks := [], binds := [], tiles := [], sems := [], rings := [], carryRegs := [], lines := [], carriedSems := [], tallyMap := [],
    numStreams := [], seam := 10, batches := [], runTables := [], scales := [], scrubs := [], recals := [], reduction := [] }
set_option maxRecDepth 4096 in
theorem wit_CutoffClosesAdmission : running open_ = true ∧ open_.frame.cut = false ∧ plan0.tasks = [] ∧ plan0.binds = [] ∧ plan0.tiles = [] ∧
    (readyDev 5 0 0).frame.cut = true ∧ open_.frame.guard = false ∧ open_.gen.apps = [] ∧ open_.gen.reqs = [] ∧ open_.frame.retry = [] ∧
    open_.frame.carry = [] ∧ open_.waiting = [] ∧ open_.base = [] ∧ plan0.scrubs = [] ∧ plan0.reduction = [] ∧ open_.train.jobs = [] ∧ open_.train.evals = [] ∧ open_.train.scribe = [] ∧ (∀ k < 32, reg open_ 0x1101 (k + 1) ≠ 1) ∧
    plan0.batches = [] ∧ plan0.runTables = [] ∧ plan0.scales = [] ∧ plan0.recals = [] ∧ plan0.tallyMap = [] := by decide

/-- Task 7 of stream `s` with two descriptors left on engine `e`; ring 3 gives the stream its descriptors. -/
def task0 (s e : Nat) (cls : Cls) : Task :=
  { plan :=
      { id := 7, part := 0, cls := cls, stream := s, slot := 0, windows := [⟨e, 1700, 9000, 2, []⟩], controls := 9, tokens := 0, seqs := [],
        contribs := [], inputs := [], handoffs := [], fill := none, drain := none, shape := .fixed 0, resumes := none }
    status := .live, issued := [], completed := [], closed := [], taken := false, overrun := false, order := [], start := 0 }
def ring3 : BitVec 256 := BitVec.ofNat 256 (packBits [(64, 3, 1), (72, 3, 2), (130, 1, 1)])
def onTask (s e : Nat) (cls : Cls) : Dev := { open_ with
  frame := { open_.frame with tasks := [(7, some (task0 s e cls))], streams := [(s, ⟨3, [7], none, 0⟩)] }
  ev := { open_.ev with rings := [(3, ring3)] } }
def seqDev : Dev := { onTask 4 6 .decode with mem := { open_.mem with
  sems := [(10, 5), (11, 65535), (20, 1), (21, 1)], poison := [(12, 1)]
  brings := [(2, BitVec.ofNat 128 (packBits [(36, 4, 3), (40, 4, 1), (44, 4, 3), (48, 5, 2), (53, 10, 20), (63, 10, 21), (73, 1, 1)]))] } }
def heldDev : Dev := { onTask 4 6 .decode with
  frame := { (onTask 4 6 .decode).frame with streams := [(4, ⟨3, [7], some (16, 6), 0⟩)] }
  hearth := { open_.hearth with tiles := [(16, ⟨some 9, 8, false, true, []⟩)] } }

theorem wit_WindowsAndGuardBand : running open_ = true ∧ open_.frame.guard = false ∧ open_.frame.tasks = [] ∧ open_.frame.next = none ∧
    task (atOff (onTask 4 6 .decode) 9000) 7 = some (task0 4 6 .decode) ∧ (task0 4 6 .decode).closed.contains 6 = false ∧
    ((task0 4 6 .decode).plan.windows.all (fun w => w.eng != 6 || decide (w.stop ≤ 9000))) = true ∧
    (task0 4 6 .decode).completed.get 0 6 < 2 ∧ ((task0 4 6 .decode).plan.windows.any (fun w => w.eng == 6)) = true ∧
    (task0 4 6 .decode).overrun = false ∧ heldAt (onTask 4 6 .decode) (task0 4 6 .decode) 7 (some 6) = false ∧
    heldAt heldDev (task0 4 6 .decode) 7 (some 6) = true := by decide

/-- A semaphore descriptor. -/
def semD (op target v : Nat) : Desc8Op := ⟨2000, 4, BitVec.ofNat 64 (packBits [(0, 8, op), (8, 10, target), (32, 16, v)])⟩
def headHyp (d : Dev) (op : Desc8Op) : Bool :=
  decide (op.stream < 1056) && (match atHead (atOff d op.off) op.stream with
    | some (id, x) => id == 7 && x == task0 4 6 .decode && anyWindowOpen x (atOff d op.off).frame.off
    | none => false)
theorem wit_SequencerDescriptors : headHyp seqDev (semD 1 0 0) = true ∧ SemDesc.ok (semD 0x40 10 5).desc = true ∧ poisoned seqDev 0 10 = false ∧
    5 ≤ sem seqDev 0 10 ∧ SemDesc.ok (semD 0x41 10 9).desc = true ∧ sem seqDev 0 10 + 9 ≤ 65535 ∧ SemDesc.ok (semD 0x42 2 2).desc = true ∧
    (bring seqDev 0 2).enabled = true ∧ 2 ≤ (bring seqDev 0 2).count ∧ sem seqDev 0 21 + 2 ≤ 65535 ∧ (bring seqDev 0 2).empty = 21 ∧
    SemDesc.ok (semD 0x43 2 2).desc = true ∧ (bring seqDev 0 2).count + 2 ≤ (bring seqDev 0 2).slots ∧ (bring seqDev 0 2).full = 20 := by decide
theorem wit_SequencerFailures : headHyp seqDev (semD 2 0 0) = true ∧ field (semD 2 0 0).desc 0 8 ≠ 1 ∧ sem seqDev 0 10 < 6 ∧
    poisoned seqDev 0 12 = true ∧ SemDesc.ok (semD 0x40 12 1).desc = true ∧ 65535 < sem seqDev 0 11 + 1 ∧ SemDesc.ok (semD 0x41 11 1).desc = true ∧
    (∀ y ∈ seqDev.mem.te, ∀ z ∈ y.2, z.part < 8) ∧ (bring seqDev 0 2).slots < (bring seqDev 0 2).count + 3 ∧
    SemDesc.ok (semD 0x43 2 3).desc = true := by decide


/-! ## Witnesses: arrays, Ductus, Damper -/

/-- A matrix descriptor of one row, one column and one group of 128 INT8 elements that waits for semaphore 10 and signals 11. -/
def matD (mode : Nat) : BitVec 256 := BitVec.ofNat 256 (packBits [(0, 8, 0x10), (13, 2, mode), (16, 4, 8), (20, 4, 8), (24, 2, 3),
  (32, 1, 1), (33, 10, 10), (43, 1, 1), (44, 10, 11), (80, 16, 8), (150, 22, 64), (172, 20, 0xFFFFF), (192, 20, 0xFFFFF),
  (212, 20, 0xFFFFF), (232, 20, 0xFFFFF)])
def matOp0 (mode : Nat) : MatmulOp := ⟨2000, 4, matD mode, none⟩
/-- Elements 2 and 3, the first of A and of B; semaphore 10 at 5. -/
def matDev (owner : Option Nat) : Dev := { onTask 4 4 .decode with
  mem := { open_.mem with sems := [(10, 5)], well := [(4194304, 2), (4195328, 3)] }
  hearth := { open_.hearth with tiles := if owner = none then [] else [(16, { tileIdle with owner := owner, task := 7, acc := [(0, 0x3F800000)] })] } }
theorem wit_MatmulIssues :
    let d := ductEnter (atOff (matDev none) 2000) 1
    atHead (atOff (matDev none) 2000) 4 = some (7, task0 4 4 .decode) ∧ MatDesc.array (matD 0) = 0 ∧ windowOpen (task0 4 4 .decode) (engArray 1 0) 2000 = true ∧
    matOk (atOff (matDev none) 2000) 1 (matD 0) none = true ∧ MatDesc.waitEn (matD 0) = true ∧ poisoned d 0 10 = false ∧ sem d 0 10 ≠ 0 ∧
    (array d (arrayKey 1 0)).queue.length < 2 ∧ (tile d (tileKey 1 0 0)).owner = none ∧ MatDesc.mode (matD 0) = 0 ∧
    (tile (ductEnter (atOff (matDev (some 3)) 2000) 1) (tileKey 1 0 0)).owner = some 3 ∧ (stream d 4).ring = 3 ∧
    (tile (ductEnter (atOff (matDev (some 5)) 2000) 1) (tileKey 1 0 0)).owner = some 5 ∧ MatDesc.mode (matD 1) = 1 ∧
    matOk (atOff (matDev none) 2000) 1 (matD 1) none = true := by decide +kernel

def arrayOp0 : ArrayOp := ⟨2000, 1, 0⟩
def matRun (n : Nat) : MatOp :=
  { seq := 0, desc := matD 0, task := 7, stream := 4, paired := false, step := n, pass := 0, ready := false, blkA := none, blkB := none, scales := none
    last := if n = 0 then none else some (0, 0, [List.replicate 128 2], [List.replicate 128 3]) }
def runDev (n : Nat) : Dev := { matDev (if n = 0 then some 3 else none) with
  hearth := { (matDev (some 3)).hearth with
    tiles := if n = 0 then (matDev (some 3)).hearth.tiles else []
    arrays := [(2, { queue := [matRun n], held := none })] } }
/-- A step whose first terms, 2^31 each, overflow the chunk unit of two E5M2 operands. -/
def ovfDev : Dev := { runDev 0 with
  mem := { open_.mem with well := ((List.range 128).map (fun k => (4194304 + k, 0x7B))) ++ (List.range 128).map (fun k => (4195328 + k, 0x7B)) }
  hearth := { (runDev 0).hearth with arrays := [(2, { queue := [{ matRun 0 with desc := setField (setField (matD 0) 16 4 4) 20 4 4 }], held := none })] } }
def passOvf (d : Dev) (o : MatOp) : Bool := (passTerms d 1 o.desc o.step o.pass (blockA d 1 o.desc o.step []) (blockB d 1 o.desc o.step [])).2
theorem wit_TileStepPromotes : (matRun 0).paired = false ∧ (matRun 0).ready = false ∧ (matRun 0).step < MatDesc.steps (matD 0) ∧
    (array (runDev 0) (arrayKey 1 0)).queue = [matRun 0] ∧ drainAhead (runDev 0) 1 0 0 0 = false ∧ (tile (runDev 0) (tileKey 1 0 0)).owner ≠ none ∧
    passOvf (ductEnter (atOff (runDev 0) 2000) 1) (matRun 0) = false ∧
    passOvf (ductEnter (atOff ovfDev 2000) 1) { matRun 0 with desc := setField (setField (matD 0) 16 4 4) 20 4 4 } = true := by decide +kernel
theorem wit_MatmulCompletes : (array (runDev 1) (arrayKey 1 0)).queue = [matRun 1] ∧ task (runDev 1) 7 = some (task0 4 4 .decode) ∧
    MatDesc.steps (matD 0) ≤ 1 ∧ undrained (runDev 1) 7 = false ∧ sem (runDev 1) 0 11 < 65535 ∧ (matRun 0).step < MatDesc.steps (matD 0) ∧
    windowOpen (task0 4 4 .decode) (engArray 1 0) 2000 = true ∧ windowOpen (task0 4 4 .decode) (engArray 1 0) 9000 = false := by
  decide +kernel

def tracerDev : Dev := { runDev 1 with num := { open_.num with rate := some 0, records := [(0, BitVec.ofNat 128 (packBits [(10, 1, 1), (49, 7, 3)]))], limits := [] } }
def tracerOp0 : TracerOp := ⟨2000, 1, 0, 0, 0, 0⟩
theorem wit_TracerSamples : tracerDev.num.rate = some 0 ∧ (array tracerDev (arrayKey 1 0)).queue.head? = some (matRun 1) ∧ (matRun 1).last ≠ none ∧
    field (tracerDev.num.records.get 0 0) 10 1 = 1 ∧ tracerOp0.step = stepIndex tracerDev 0 (some 7) ∧
    tracerSelects (limitsOf tracerDev 0).seed 0 0 0 0 = true ∧ tracerSelects (limitsOf tracerDev 0).seed 0 0 1 16 = false ∧ stepIndex tracerDev 0 (some 7) ≠ 1 := by decide +kernel

/-- One row of 32 FP32 elements copied from 0 to 0x400 of the Well; the same from tile 0 of array 0. -/
def vopD : BitVec 512 := BitVec.ofNat 512 (packBits [(0, 8, 0x20), (8, 2, 1), (72, 16, 31), (166, 20, 0xFFFFF), (230, 20, 0xFFFFF), (256, 22, 64),
  (294, 20, 0xFFFFF), (43, 1, 1), (44, 10, 11)])
def drainD : BitVec 512 := setField vopD 0 8 0x21
/-- One that quantises to FP8 in one EXACT pass. -/
def quantD : BitVec 512 := setField (setField vopD 26 2 3) 20 4 8
def ductDev (owner : Option Nat) : Dev := { matDev owner with frame := (onTask 4 6 .decode).frame }
theorem wit_DuctusIssues : (let d := ductGo (atOff (ductDev (some 3)) 2000) 1
    pinned d 1 vopD ≠ none ∧ pinned d 1 drainD ≠ none ∧
    atHead (atOff (ductDev (some 3)) 2000) 4 = some (7, task0 4 6 .decode) ∧ windowOpen (task0 4 6 .decode) (engDuctus 1) 2000 = true ∧
    ductOk d 1 vopD = true ∧ ductOk d 1 drainD = true ∧ DuctDesc.waitEn vopD = false ∧ ductHeld d (ductus d 1) < 2 ∧
    DuctDesc.opcode vopD = 0x20 ∧ DuctDesc.opcode drainD = 0x21 ∧ (tile d (tileKey 1 0 0)).owner = some (stream d 4).ring) ∧
    (tile (ductGo (atOff (ductDev (some 5)) 2000) 1) (tileKey 1 0 0)).owner = some 5 ∧
    (tile (ductGo (atOff (ductDev none) 2000) 1) (tileKey 1 0 0)).owner = none ∧
    ductOk (ductGo (atOff (ductDev none) 2000) 1) 1 0 = false ∧
    (let d := ductGo (atOff { ductDev none with num := { open_.num with pins := [(256, { exact := false, h := 1, spread := 0, floor := 0 })] } } 2000) 1
     ductOk d 1 quantD = true ∧ pinned d 1 quantD = none) := by decide +kernel
def vopRun : DuctOp :=
  { seq := 0, desc := vopD, task := 7, stream := 4, issued := 1000, started := true, first := 1004, last := 1004, entered := false
    writes := [(1024, 9)], marks := [] }
def vopDev : Dev := { ductDev none with hearth := { open_.hearth with ductus := [(1, [vopRun, { vopRun with seq := 1, started := false }])] } }
theorem wit_DuctusCompletes : (ductus vopDev 1).head? = some vopRun ∧ vopRun.started = true ∧ task vopDev 7 = some (task0 4 6 .decode) ∧
    (∀ y ∈ vopDev.frame.tasks, ∀ z, y.2 = some z → z.plan.contribs = []) ∧ vopRun.last + latency vopD ≤ max 1000 2000 ∧
    undrained (ductGo (atOff vopDev 2000) 1) 7 = false ∧ sem vopDev 0 11 < 65535 ∧ max 1000 1010 < vopRun.last + latency vopD ∧
    windowOpen (task0 4 6 .decode) (engDuctus 1) (1004 + latency vopD) = false ∧
    windowOpen (task0 4 6 .decode) (engDuctus 1) (1800 + latency vopD) = true :=
  ⟨by decide +kernel, by decide, by decide +kernel, by simp [vopDev, ductDev, onTask, task0], by decide +kernel, by decide +kernel, by decide, by decide +kernel, by decide +kernel, by decide +kernel⟩

def evid0 (ovf dmax : Nat) : Evidence := { ovf := ovf, dmax := dmax, era := 0, cold := false, handed := true, tag := (0, 0) }
/-- Stream 5 of partition 0, adaptive, with fields as given and one closed step. -/
def dampDev (fs : List (Nat × Nat × Nat)) (ovf dmax : Nat) : Dev := { open_ with num := { open_.num with
  records := [(5, BitVec.ofNat 128 (packBits ((8, 1, 1) :: fs)))]
  steps := [(5, [evid0 ovf dmax])] } }
/-- A frozen stream; one whose newest step was planned cold; one with no step left. -/
def frozenDev : Dev := { dampDev [] 1 0 with num := { (dampDev [] 1 0).num with records := [] } }
def coldDev (l : List Evidence) : Dev := { open_ with num := { open_.num with records := [(5, BitVec.ofNat 128 256)], steps := [(5, l)] } }
theorem wit_DamperProcesses : (streamRec frozenDev 5).adapt = false ∧ (stepsOf frozenDev 5).find? (·.handed) = some (evid0 1 0) ∧
    (evid0 1 0).era = frozenDev.num.eras.get 0 5 ∧ (limitsOf frozenDev 5).hrMax ≤ 6 ∧ (streamRec (coldDev []) 5).adapt = true ∧
    stepsOf (coldDev []) 5 = [] ∧ stepsOf (coldDev [{ evid0 0 0 with cold := true }]) 5 = [] ++ [{ evid0 0 0 with cold := true }] ∧
    (streamRec (coldDev []) 5).training = false ∧ (evid0 1 0).era ≠ 1 ∧ (limitsOf (coldDev []) 5).bumpSteps < 2048 ∧
    (stepsOf (dampDev [] 0 140) 5).length = 1 ∧ (streamRec (dampDev [] 0 140) 5).adapt = true ∧
    (dampDev [] 0 140).num.eras.get 0 5 = 0 ∧ (StreamRec.spread (streamRec (dampDev [] 0 140) 5) : Int) ≤ 140 - 129 ∧
    (0 : Int) < StreamRec.spread (streamRec (dampDev [(34, 6, 9), (40, 9, 255)] 0 0) 5) ∧
    StreamRec.decay (streamRec (dampDev [(34, 6, 9), (40, 9, 255)] 0 0) 5) + 1 = (limitsOf open_ 5).decay ∧
    (0 : Nat) + 0 < (limitsOf open_ 5).hrMax ∧ (limitsOf open_ 5).hrMax ≤ 6 + 0 ∧ StreamRec.hrBase (streamRec (dampDev [(16, 3, 6)] 1 0) 5) = 6 ∧
    StreamRec.countdown (streamRec (dampDev [(19, 3, 2), (112, 11, 1)] 0 0) 5) = 1 := by decide

/-! ## Witnesses: transfers, memory, requests of other devices -/

/-- A transfer descriptor into the operand space of cluster 0 that waits for semaphore 10 and signals 11. -/
def xferD (op : Nat) (fs : List (Nat × Nat × Nat)) : BitVec 512 := BitVec.ofNat 512 (packBits ([(0, 8, op), (32, 1, 1), (33, 10, 10), (43, 1, 1),
  (44, 10, 11), (112, 48, 0x100)] ++ fs))
def copyD : BitVec 512 := xferD 0x30 [(8, 2, 1), (10, 2, 1), (160, 16, 1)]
def fillD : BitVec 512 := xferD 0x31 [(10, 2, 1), (160, 16, 1), (64, 48, 0x3F800000)]
def gatherD : BitVec 512 := xferD 0x32 [(8, 2, 1), (10, 2, 1), (20, 3, 1), (160, 16, 1), (176, 16, 1)]
def xferDev : Dev := { onTask 4 1024 .decode with mem := { open_.mem with sems := [(10, 5)] } }
theorem wit_TransfersIssue :
    let d := atOff xferDev 2000
    atHead d 4 = some (7, task0 4 1024 .decode) ∧ windowOpen (task0 4 1024 .decode) (engTe 0) 2000 = true ∧ xferOk d 0 copyD = true ∧
    xferOk d 0 fillD = true ∧ xferOk d 0 gatherD = true ∧ XferDesc.waitEn copyD = true ∧ poisoned d 0 10 = false ∧ sem d 0 10 ≠ 0 ∧
    (teQueue d 0).length < 2 ∧ XferDesc.opcode copyD = 0x30 ∧ XferDesc.opcode fillD = 0x31 ∧ XferDesc.opcode gatherD = 0x32 ∧
    xferOk d 0 0 = false ∧
    (task0 4 1024 .decode).plan.fill = none := by decide +kernel

/-- A transfer of task 7 in the engine. -/
def xfer0 (v : BitVec 512) (st : Nat) : Xfer :=
  { desc := v, task := 7, stream := 4, part := 0, cursor := 0, st := st, cause := 0, dva := 0, inSlot := false, slotBuf := [], run := []
    got := [], acked := [], waits := [], fill := none, frame := 5, head := 0, ahead := 0 }
def teDev (x : Xfer) : Dev := { xferDev with mem := { xferDev.mem with te := [(0, [x])], appOf := [(0, 1)] } }
theorem wit_FillCompletes : (teQueue (teDev (xfer0 fillD 2)) 0).head? = some (xfer0 fillD 2) ∧ XferDesc.opcode fillD = 0x31 ∧ XferDesc.n fillD = 0 ∧
    XferDesc.dstKind fillD = 1 ∧ XferDesc.fmtDst fillD = 0 ∧ task (teDev (xfer0 fillD 2)) 7 = some (task0 4 1024 .decode) ∧
    undrained (teDev (xfer0 fillD 2)) 7 = false ∧ opReset (teDev (xfer0 fillD 2)) (xferHearth 0 (XferDesc.dst fillD)) (xferOff (XferDesc.dst fillD)) = false ∧ XferDesc.sigEn fillD = true ∧ sem (teDev (xfer0 fillD 2)) 0 11 < 65535 ∧
    (xfer0 fillD 2).run = [] ∧ windowOpen (task0 4 1024 .decode) (engTe 0) 2000 = true := by decide +kernel

def memD : BitVec 512 := xferD 0x30 [(10, 2, 1), (160, 16, 1), (64, 48, 254)]
def carryDev : Dev := { xferDev with mem := { xferDev.mem with carriedX := [(0, [xfer0 fillD 8])] } }
theorem wit_TransferFaults : XferDesc.opcode memD = 0x30 ∧ XferDesc.srcKind memD = 0 ∧ 0 < XferDesc.total memD ∧ (xfer0 memD 2).cursor = 0 ∧
    (xfer0 memD 2).fill = none ∧ (task (teDev (xfer0 memD 2)) 7).any (fun k => k.status == .live && k.plan.part < 8) = true ∧
    (source (teDev (xfer0 memD 2)) (partSrc 0 8)).st = .inactive ∧ (source (teDev (xfer0 memD 2)) (partSrc 0 8)).level ≠ 0 ∧
    open_.lig.lost = [] ∧ (teQueue (teDev (xfer0 memD 4)) 0).head? = some (xfer0 memD 4) ∧ (∀ x ∈ xferDev.mem.te.get [] 0, x.st ≠ 4) ∧
    xferDev.mem.carriedX.get [] 0 = [] ∧ carryDev.mem.carriedX.get [] 0 = [xfer0 fillD 8] ∧
    windowOpen (task0 4 1024 .decode) (engTe 0) 2000 = true ∧ (xfer0 fillD 8).cause = 0 ∧ (teQueue carryDev 0).length < 2 ∧ teQueue carryDev 0 = [] ∧
    (xfer0 fillD 8).frame = carryDev.frame.no ∧ task carryDev 7 = some (task0 4 1024 .decode) := by decide +kernel

/-- Page 3 of application 0, of key slot 0, in frame 9, with the flags given; frames below 100 of group 0 are usable. -/
def pageDev (flags : Nat) (next : Table (Option (BitVec 64))) (migs : List Migration) : Dev := { open_ with
  mem := { open_.mem with
    appOf := [(0, 1)], level1 := [(0, 1)], ptes := [(3, BitVec.ofNat 64 (packBits [(0, 4, flags), (20, 22, 9)]))], pteNext := next, usable := [(0, 100)]
    frameOwner := [(9, 2)], migrations := migs, invals := [(0, 0, 10000000)], ddr := [(9 * 2097152 + 5, 7)] } }
def mig (phase dst : Nat) : Migration := ⟨0, 3, 9, dst, phase, []⟩
theorem wit_PagesMove_channels : open_.pow.stage ≠ .off ∧ ((recentErrors open_ 5).map (·.2)).sum + 1 < reg open_ 0x900D 0x01 ∧
    1 ∈ [1] ∧ groupUsed open_ 1 = 0 := by decide +kernel
theorem wit_PagesMove : pteAt (pageDev 1 [] []) 0 3 = some 3 ∧ accessesOpen (pageDev 1 [] []) 0 0 10000000 = false ∧
    (pageDev 1 [] []).mem.importing = [] ∧ (0, 0, 10000000) ∈ (pageDev 1 [] []).mem.invals ∧ appOfPart (pageDev 1 [] []) 0 = some 0 ∧
    (pageDev 1 [(pageKey 0 3, some 5)] []).mem.pteNext = [(pageKey 0 3, some 5)] ∧ 0 < (3 + 1) * frameSize ∧ 3 * frameSize < 10000000 ∧
    (pte (pageDev 1 [] []) 0 3).valid = true ∧ (pte (pageDev 1 [] []) 0 3).remote = false ∧ (pte (pageDev 1 [] []) 0 3).pfn = 9 ∧
    (pageDev 1 [] []).mem.exports.get 0 9 = 0 ∧ frameUsable (pageDev 1 [] []) 20 = true ∧
    (pageDev 9 [] [mig 0 20]).mem.migrations.find? (fun m => m.app == 0 && m.page == 3) = some (mig 0 20) ∧
    (pte (pageDev 9 [] []) 0 3).migrating = true ∧ (pte (pageDev 1 [] []) 0 3).migrating = false ∧ (mig 2 9).dst = 9 ∧
    (let d := setReg open_ 0x1101 1 1
     reg d 0x1101 1 = 1 ∧ (∃ x ∈ { d.frame with recals := [(0, 400000)] }.recals, x.1 = 0 ∧ x.2 ≤ 400500 ∧ 400500 < x.2 + 1700)) := by decide +kernel

/-- Frame 0 is exported to system application 9; two requests for granules are out. -/
def rdm (v : BitVec 512) (waits : List Nat) : Xfer := { xfer0 v 2 with waits := waits, run := if waits = [0] then [0, 0, 0, 0] else [] }
def rwait (w : Bool) : RemoteWait := ⟨6, 0, 2, 0, w, 0, 0⟩
def reqDev (w : Bool) (x : Option Xfer) : Dev := { netDev with
  frame := { (onTask 4 1024 .decode).frame with tick := .locked }
  mem := { netDev.mem with
    exports := [(0, 9)], ddr := [(1, 7)], remote := [rwait w], appOf := [(0, 1)], level1 := [(0, 1)], ptes := [(0, 7)], usable := [(0, 100)], frameOwner := [(0, 2)]
    te := match x with | none => [] | some x => [(0, [x])] } }
def reqMsg (kind arg stamp : Nat) (body : List Byte) : MsgOp :=
  ⟨2000, 3, { msg0 with kind := kind, vc := 1, dstUnit := 0, tag := 6, stamp := stamp, arg := arg, body := body }⟩
def wfillD : BitVec 512 := setField (xferD 0x31 []) 112 48 0
def respD : BitVec 512 := xferD 0x30 [(10, 2, 1), (160, 16, 1), (64, 48, 254)]
theorem wit_RemoteGranules : arrives (atOff (reqDev false none) 2000) 3 0x10 (reqMsg 0x10 1 9 []).msg ∧
    arrives (atOff (reqDev false none) 2000) 3 0x11 (reqMsg 0x11 1 9 (List.replicate 256 4)).msg ∧
    arrives (atOff (reqDev false none) 2000) 3 0x12 (reqMsg 0x12 1 9 []).msg ∧ arrives (atOff (reqDev true none) 2000) 3 0x13 (reqMsg 0x13 1 9 []).msg ∧
    arrives (atOff (reqDev true none) 2000) 3 0x14 (reqMsg 0x14 5 9 []).msg ∧
    requestCause (atOff (reqDev false none) 2000) (reqMsg 0x10 1 9 []).msg false = 0 ∧
    requestCause (atOff (reqDev false none) 2000) (reqMsg 0x11 1 9 []).msg true = 0 ∧ (reqDev false none).mem.exports.get 0 0 ≠ 8 ∧
    (port netDev 3).queue = [] ∧ (port netDev 3).credit.get 0 2 = 64 ∧ (port netDev 3).outstanding = 0 ∧
    waitOf (atOff (reqDev false none) 2000) 6 = some (rwait false) ∧ (rwait false).device = msg0.srcDevice ∧
    waiter (atOff (reqDev false none) 2000) (rwait false) = none ∧
    (let d := atOff (reqDev false (some (rdm respD [0, 1]))) 2000
     let y : Xfer := { rdm respD [1] with got := [(0, [])] }
     waiter d (rwait false) = some (rdm respD [0, 1]) ∧ 0 < XferDesc.total respD ∧ readUnit d 0 y = .pend ∧
     (srcGrans d 0 y).all (fun g => (gotGran y g).isSome || y.waits.contains g) = true) ∧
    (let d := atOff (reqDev true (some (rdm wfillD [0]))) 2000
     waiter d (rwait true) = some (rdm wfillD [0]) ∧ XferDesc.total wfillD = 1 ∧ (rdm wfillD [0]).run.length = 4 ∧
     (∀ g ∈ dvaGrans 0 4, g = 0) ∧ inWindow d 7 (engTe 0) 2000 = true ∧ (xferPte d 0 0).remote = true ∧ undrained d 7 = false ∧ sem d 0 11 < 65535) ∧
    (rwait true).sent + reg netDev 0x4017 0x00 ≤ now (atOff (reqDev true none) 2000) := by
  unfold arrives; refine ⟨?_, ?_, ?_, ?_, ?_, ?_⟩ <;> decide +kernel

/-- Buffer ring 5 of cluster 1, enabled, carried where `carry` is 1, with semaphores 20 and 21; ports 0 and 1 in Ethernet mode. -/
def slotDev (carry : Nat) : Dev := { netDev with mem := { netDev.mem with
  sems := [(1024 + 21, 2)], brings := [(64 + 5, BitVec.ofNat 128 (packBits [(20, 16, 2), (36, 4, 3), (53, 10, 20), (63, 10, 21), (73, 1, 1), (75, 1, carry)]))] } }
def slotOp (segs : Nat) : MsgOp :=
  ⟨2000, 3, { msg0 with kind := 0x20, vc := 3, stamp := 6, addr := 2 ^ 21 + 5 * 2 ^ 23 + 7, segs := segs, body := [1, 2, 3] }⟩
def udpDev : Dev :=
  let d := setReg (setReg (setReg (setReg netDev 0x4010 1 2) 0x3002 1 77) 0x3003 1 78) 0x3005 0 2
  { d with lig := { d.lig with ports := [(0, { portIdle with st := .up })] }, gen := { d.gen with reasm := [⟨4, 5, 0, 2, 0, 0, []⟩] } }
def msgLen : Nat := 80
theorem wit_SlotsAndDatagramsArrive : arrives (atOff (slotDev 1) 2000) 3 0x20 (slotOp 1).msg ∧ nameRing (slotOp 1).msg.addr = (1, 5) ∧
    (let x := bring (atOff (slotDev 1) 2000) 1 5
     x.enabled = true ∧ x.carry = true ∧ 0 < sem (slotDev 1) 1 x.empty ∧ 3 ≤ x.slotBytes ∧ x.count < x.slots ∧ sem (slotDev 1) 1 x.full < 65535 ∧
     x.empty ≠ x.full) ∧ (bring (slotDev 0) 1 5).carry = false ∧ (slotDev 1).frame.no < 6 ∧ (slotDev 1).mem.inSlots = [] ∧ (slotDev 1).pow.resets = [] ∧ (slotOp 1).msg.body.length % 16 ≠ 0 ∧ 80 ≤ msgLen ∧
    addressed udpDev 0 false 77 = true ∧ addressed udpDev 0 true 78 = true ∧ addressed udpDev 0 false 76 = false ∧
    (∀ x ∈ udpDev.gen.reasm, ¬(x.tenant = 4 ∧ x.id = 6)) ∧ (Reasm.mk 4 5 0 2 0 0 []) ∈ udpDev.gen.reasm ∧
    0 + reg udpDev 0x3005 0x00 ≤ udpDev.frame.no := by
  unfold arrives; decide +kernel

/-! ## Witnesses: slots, variants, generation -/

/-- Tenant 12 in key slot 2, generation 1; an application of partition 0, of hidden width 256, vocabulary 3, layers 0 and 1. -/
def key2 : KeySlot := { keyIdle with tenant := 12, st := 1, genCur := 1, trkCur := [7] }
def book0 : Copybook :=
  { measure := 0, baseId := 8, baseGen := 1, parts := [0], sysApp := 0, hidden := 256, vocab := 3, endOfText := 2, trainChunk := 64
    layers := [0, 1], maxLayers := 2, matrices := [], kvFormat := 0, kvHeads := 1, kvWidth := 64, kvScales := [], inkBase := 0x2000000
    inBand := false, needs := [], streams := [], namesHr := [], namesTb := [], namesFloor := [], decodeStreams := [], resident := []
    control := [], prices := [], fixedPrices := [], budgetGen := 1, budgetTrain := 1, tileStep := 1, copyRate := 1, scribeRate := 1
    streamLayers := [], steering := [], peat := (0, 0), peatRow := 0, ptes := [], weights := [], streamed := [], keepLayers := 0, keeps := [], backward := 0 }
def app0 : App := { book := book0, place := ⟨0, 1, 0, 1, 0, 0, 0⟩, placeNext := none, stopped := false, fence := false }
def rec0 (v : Nat) (wd : Withdrawal) : VarRec :=
  { hdr := BitVec.ofNat 2048 (packBits [(0, 32, v), (32, 16, 12), (48, 12, 2), (162, 1, 1), (163, 5, 1), (192, 16, 256)]), app := 0, home := 0
    patches := [], lists := [], bankA := setField bankReset 96 1 1, bankB := setField bankReset 96 1 1, ready := true, others := [], wd := wd
    release := [], next := [], flipAt := 0, flipSeen := false, check := none, pages := [] }
/-- A slot: owner, generation, state, pins, of key slot 2. -/
def slotE (owner gen state pin : Nat) : Slot := BitVec.ofNat 128 (packBits [(0, 32, owner), (32, 16, gen), (48, 2, state), (56, 12, 2), (72, 16, pin)])
def ink0 : Dev := { open_ with
  keys := [(2, key2)]
  mem := { open_.mem with appOf := [(0, 1)] }
  gen := { open_.gen with apps := [(0, some app0)] }
  ink := { open_.ink with
    slots := [(5, slotE 40 3 2 0), (6, slotE 41 4 1 1), (7, slotE 42 5 3 0)], reserve := [(2, 9)], halves := [(6, 1)]
    recs := [(40, some (rec0 40 .none)), (41, some (rec0 41 .ordered)), (42, some (rec0 42 .none)), (43, some (rec0 43 .none))]
    binds := [⟨.eval 9, 40, 2, 0, some 5, false⟩, ⟨.eval 8, 42, 2, 0, some 7, false⟩, ⟨.eval 7, 43, 2, 0, some 9, true⟩] } }
/-- The descriptor of one copy of a fill. -/
def fillCopy (x : Nat × Nat × Nat × Nat) : Nat × BitVec 512 :=
  (x.1, BitVec.ofNat 512 (packBits [(0, 8, 0x30), (10, 2, 1), (16, 4, 1), (64, 48, x.2.1), (112, 48, x.2.2.1), (160, 16, x.2.2.2 - 1)]))
def inkDev : Dev := { ink0 with ink := { ink0.ink with fillDone := [(6, (fillCopies ink0 6).map fillCopy)] } }
theorem wit_SlotTable : ownedSlot inkDev 40 = some 5 ∧ ownedSlot inkDev 50 = none ∧ (slot inkDev 5).st = 2 ∧ slotApp inkDev 9 = some 0 ∧
    heldSlots inkDev 0 2 < reserveOf inkDev 0 2 ∧ (slot inkDev 9).st = 0 ∧ (slot inkDev 9).gen = 0 ∧ reserveOf inkDev 0 3 ≤ heldSlots inkDev 0 3 ∧
    (slot inkDev 6).gen = 4 ∧ (slot inkDev 6).st = 1 ∧ (slot inkDev 6).withdrawing = false ∧ (slot inkDev 6).pin = 1 ∧ (slot inkDev 5).gen = 3 ∧
    (slot inkDev 5).pin = 0 ∧ (slot inkDev 6).owner = 41 ∧ (slot inkDev 7).st = 3 ∧ (slot inkDev 7).pin = 0 ∧ slotWriting inkDev 7 = false ∧
    slotApp inkDev 7 = some 0 := by decide
theorem wit_BindsAndFills : (∀ b ∈ inkDev.ink.binds, b.use ≠ .job 1) ∧ (∀ x ∈ inkDev.ink.bound, x.1 ≠ .job 1) ∧ variant inkDev 40 = some (rec0 40 .none) ∧
    variant inkDev 41 = some (rec0 41 .ordered) ∧ (rec0 40 .none).withdrawn = false ∧ (rec0 41 .ordered).withdrawn = true ∧ (rec0 40 .none).held = true ∧
    (slot inkDev 5).withdrawing = false ∧ (slot inkDev 5).pin < 65535 ∧ ownedSlot inkDev 42 = some 7 ∧ (slot inkDev 7).st = 3 ∧
    (inkDev.ink.binds.find? (fun b => b.use == .eval 9)) = some ⟨.eval 9, 40, 2, 0, some 5, false⟩ ∧
    (inkDev.ink.binds.find? (fun b => b.use == .eval 8)) = some ⟨.eval 8, 42, 2, 0, some 7, false⟩ ∧
    (inkDev.ink.binds.find? (fun b => b.use == .eval 7)) = some ⟨.eval 7, 43, 2, 0, some 9, true⟩ ∧ ownedSlot inkDev 43 = none ∧
    slotApp inkDev 9 = some 0 ∧ heldSlots inkDev 0 2 < reserveOf inkDev 0 2 ∧ (slot inkDev 9).st = 0 ∧
    (fillCopies inkDev 6).length = 4 ∧ fillWhole inkDev 6 = true ∧ inkDev.ink.halves.get 0 6 ≠ 0 ∧
    (∀ f ∈ inkDev.ink.fills, f.slot ≠ 6) ∧ (source inkDev (partSrc 0 16)).st = .inactive ∧ (source inkDev (partSrc 0 16)).level ≠ 0 := by
  decide +kernel

/-- An envelope of tenant 12 of a kind, REQUEST_ID 77, in time, sealed under the tenant's key; a device that has it whole on L00. -/
def env0 (kind : Nat) (body : List Byte) : Env :=
  let h := header kind 12 1 (b2n (kind == 2)) 77 6 body.length 0 0
  { source := 0, reply := 3, origin := 0, addr := 0, hdr := h
    box := { bytes := body ++ List.replicate 16 9, key := [7], nonce := nonceOf 77 (b2n (kind == 2)), aad := leBytes 64 h.toNat, plain := body } }
def hasEnv (d : Dev) (e : Env) : Dev := { d with gen := { d.gen with ready := [(e.source, e.reply, envBytes e)] } }
def hdr0 (v : Nat) : BitVec 2048 := BitVec.ofNat 2048 (packBits ([(0, 32, v), (32, 16, 12), (48, 12, 2), (163, 5, 1), (192, 16, 256)] ++
  (List.range 15).map (fun i => (264 + 8 * i, 8, 255))))
def regOp0 (kind v app : Nat) (whole : Bool) : RegOp :=
  { off := 2000, env := env0 kind [], app := app, header := hdr0 v, masters := List.replicate 256 0, patches := [], lists := [], whole := whole
    others := [], home := 0, check := none, pages := [] }
theorem wit_VariantAccepted : accepted (atOff (hasEnv inkDev (env0 3 [])) 2000) (atOff inkDev 2000) (env0 3 []) 3 2 ∧
    accepted (atOff (hasEnv inkDev (env0 4 [])) 2000) (atOff inkDev 2000) (env0 4 []) 4 2 ∧
    accepted (atOff (hasEnv inkDev (env0 5 [43])) 2000) (atOff inkDev 2000) (env0 5 [43]) 5 2 := by
  unfold accepted opened; decide +kernel
theorem wit_VariantRecords : servedHere (atOff inkDev 2000) 0 ∧ servedHere (atOff inkDev 2000) 1 ∧ holdsRegs (atOff inkDev 2000) 0 = false ∧
    appAt inkDev 1 = none ∧ recsHeld inkDev < 262144 ∧ (env0 5 [43]).box.plain = [43] ∧
    variant inkDev 60 = none ∧ appAt inkDev 0 = some app0 ∧ recordOk (atOff inkDev 2000) app0 12 2 (regOp0 3 60 0 true) true = true ∧
    recordOk (atOff inkDev 2000) app0 12 2 (regOp0 3 60 0 false) true = false ∧ (rec0 43 .none).key = 2 ∧ (rec0 43 .none).withdrawn = false ∧
    hasJob inkDev 43 = false ∧ recordOk (atOff inkDev 2000) app0 12 2 (regOp0 4 43 0 true) false = true ∧ ownedSlot inkDev 43 = none ∧
    goesOn (atOff inkDev 2000) (appFor (atOff inkDev 2000) 2 43) = false ∧ leNat (([43] : List Byte).take 4) = 43 ∧ (rec0 43 .none).wd = .none ∧
    ((rec0 43 .none).bank (!(rec0 43 .none).liveB)).valid = true ∧ ownedSlot inkDev 40 = some 5 ∧ (slot inkDev 5).st ≠ 3 := by
  unfold servedHere; decide +kernel

/-- A sequence of key slot 2, request 77, of no variant, with two prompt rows. -/
def req0 (stage : ReqStage) : GenReq :=
  { slot := 2, tenant := 12, id := 77, keyGen := 1, app := 0, source := 0, reply := 3, origin := 0, handle := 0, holder := ownDevice open_, variant := 0
    maxNew := 2, prompt := [1, 2], temp := 0x3F800000, topK := 0, topP := 0x3F800000, stops := [2], seed := 0, streamFrames := 0, bad := 0, sk := 0
    arrived := 0, onRing := false, waited := 999, stage := stage, phase := 0, order := 0, reserved := 0, tableAt := none, blocks := [], rows := 1
    out := [], reported := 0, asked := [], waiting := [4, 5], parked := 99999, cancel := false, cancelSeen := false, first := 0, planned := 1
    sampled := false, lps := [], rollout := none }
def genDev (cut : Bool) (l : List GenReq) (f : List Replay) : Dev := { inkDev with
  frame := { inkDev.frame with
    cut := cut
    tasks := [(7, some { task0 4 6 .decode with status := .done, plan := { (task0 4 6 .decode).plan with seqs := [seqKey (req0 .active)] } })] }
  gen := { inkDev.gen with reqs := l, filters := [(2, f)] } }
def gen0 : Dev := genDev true [] [⟨78, 9, false, false⟩]
def gen77 : Dev := genDev true [] [⟨77, 9, false, false⟩]
theorem wit_GenerateAccepted : accepted (atOff (hasEnv gen0 (env0 1 [])) 2000) (atOff gen0 2000) (env0 1 []) 1 2 ∧
    opened (atOff (hasEnv gen77 (env0 1 [])) 2000) (atOff gen77 2000) (env0 1 []) 1 2 ∧
    opened (atOff (hasEnv gen0 (env0 2 [])) 2000) (atOff gen0 2000) (env0 2 []) 2 2 := by
  unfold accepted opened; decide +kernel
theorem wit_GenerateDropped :
    fetch (atOff (hasEnv gen0 (env0 1 [])) 2000) (env0 1 []) = some (atOff gen0 2000, true) ∧ headerOk (env0 1 []) 1 = true ∧
    (keyOfGen { key2 with trkCur := [8] } (env0 1 []).keyGen).any (opensUnder (env0 1 [])) = false ∧
    (keyOfGen key2 (env0 1 []).keyGen).any (opensUnder (env0 1 [])) = true ∧ (env0 1 []).notAfter < 7 := by decide +kernel
/-- An entry that another device forwards: of kind `k`, for tenant 12. -/
def fwd0 (k : Nat) : BitVec 1024 := BitVec.ofNat 1024 (packBits [(0, 8, k), (16, 16, 12), (64, 64, 77), (320, 64, 6), (384, 32, 1)])
theorem wit_GenerateAndCancel : goesOn (atOff gen0 2000) (appFor (atOff gen0 2000) 2 0) = false ∧ goesOn (atOff gen0 2000) none = false ∧
    gen0.frame.cut = true ∧ (∃ r ∈ filterOf (atOff gen77 2000) 2, r.id = 77) ∧ (∀ r ∈ filterOf (atOff gen0 2000) 2, r.id ≠ 77) ∧
    gen0.pow.svc = .none ∧ keyRing (atOff gen0 2000) 2 = none ∧ (∀ r ∈ filterOf (atOff gen0 2000) 2, r.id = 77 → r.cancelled = false) ∧
    findReq gen0 2 77 = none ∧ findReq (genDev true [req0 .active] []) 2 77 = some (req0 .active) ∧ (req0 .active).isHolder gen0 = true ∧
    findReq (genDev true [req0 (.queued 0)] []) 2 77 = some (req0 (.queued 0)) ∧ (req0 .active).onRing = false ∧ (req0 .active).out = [] ∧
    slotOfTenant (atOff gen0 2000) (envOf (fwd0 1) []).tenant = some 2 ∧ (envOf (fwd0 1) []).kind = 1 ∧ (envOf (fwd0 6) []).kind = 6 := by
  decide +kernel

/-- A response made in frame 3, due. -/
def resp0 (id : Nat) : Resp :=
  { kind := 0x81, slot := 2, tenant := 12, id := id, seq := 0, keyGen := 1, status := 0, final := true, firstT := 0, ref := 0, toks := []
    report := [], source := 0, reply := 3, origin := 0, made := 3, waits := false, sealed := none }
def respDev : Dev := { inkDev with gen := { inkDev.gen with resps := [resp0 9, { resp0 8 with made := 5 }, { resp0 7 with origin := 4 }] } }
def genLive (st : ReqStage) : Dev := genDev true [req0 st] []
theorem wit_SequencesRun : findReq (genLive (.queued 0x15)) 2 77 = some (req0 (.queued 0x15)) ∧ reg inkDev 0x3006 0x00 ≤ 999 ∧
    inkDev.ink.parkLimit ≤ 99999 ∧ 0 < { inkDev.ink with parkLimit := 100000 }.parkLimit ∧ (req0 .active).holder = ownDevice inkDev ∧
    appAt gen0 0 = some app0 ∧ app0.place.len = 1 ∧ app0.place.stage = 0 ∧ (req0 .active).planned ≠ 0 ∧ app0.book.vocab = 3 ∧
    unitDone (genLive .active) (req0 .active) = true ∧ (req0 .active).prompt.length ≤ 1 + 1 ∧
    isFinite 0x7F800000 = false ∧ isFinite 0x3F800000 = true ∧
    (∀ r ∈ respDev.gen.resps, r.waits = false ∧ (r.origin = ownDevice respDev → r.source ≠ 2 ∧ portRing respDev r.slot = none)) := by
  decide +kernel

/-! ## Witnesses: training -/

def trainP (ok : Bool) : BitVec 1024 := BitVec.ofNat 1024 (packBits [(0, 32, 9), (32, 32, 40), (96, 1, 1), (112, 16, 2), (128, 16, if ok then 1 else 0),
  (160, 32, 0x3F000000), (224, 32, 0x3F800000), (288, 32, 1), (512, 32, 0x3F800000), (640, 32, 0x3F800000), (704, 32, 0x3F800000)])
def u4 (l : List Nat) : List Byte := l.flatMap (leBytes 4)
def rollout0 (reward : Option Word) : Rollout := { prompt := [1], toks := [2], status := some 2, reward := reward, adv := 0 }
def group0 (rw : Option Word) : Group := { g := 3, rollouts := [rollout0 rw, rollout0 rw], dropped := false, offline := false, ended := some 1 }
def step0 (phase : StepPhase) (rw : Option Word) : StepS :=
  { s := 0, ledgerAt := 0, groupAt := 0, groups := [group0 rw], first := 0, phase := phase, seqs := [], scores := [], cold := false, lateAge := 0
    grace := 0, close := none, reduced := [], scribed := [], loss := 0, norm := 0, factor := 0x3F800000 }
def job0 (phase : StepPhase) (rw : Option Word) : Job :=
  { key := jobKey 2 9, tenant := 12, app := 0, variant := 40, reward := 0, par := trainP true, answer := resp0 77, ledger := []
    cursor := 0, groupCursor := 0, next := 1, live := 0, started := true, asked := [], paused := false, pausedNext := none, ends := none
    steps := [step0 phase rw], offline := [], committed := none, done := 0, last := none, secured := 0 }
def trainDev (j : List Job) : Dev :=
  let d := setReg inkDev 0x600A 0 2
  { d with train := { d.train with
      jobs := j, evals := [{ slot := 2, id := 77, app := 0, variant := 40, answer := resp0 77, probes := 1, seqs := [], since := 0, asked := [] }] } }
def evalBody : List Byte := u4 [40, 1, 1, 1, 5, 6]
def trainBody : List Byte := leBytes 128 (trainP true).toNat
def sees (kind : Nat) (body : List Byte) : Prop :=
  accepted (atOff (hasEnv (trainDev []) (env0 kind body)) 2000) (atOff (trainDev []) 2000) (env0 kind body) kind 2
theorem wit_TrainingAccepted : sees 6 trainBody ∧ sees 7 (u4 [9, 1, 1, 7]) ∧ sees 8 (u4 [9, 0, 3, 0, 0x3F800000, 0x40000000]) ∧
    sees 9 (u4 [9, 1, 1, 1, 0, 7]) ∧ sees 10 (u4 [9, 0]) ∧ sees 11 evalBody := by
  refine ⟨?_, ?_, ?_, ?_, ?_, ?_⟩ <;> (unfold sees accepted opened; decide +kernel)
theorem wit_TrainingEnvelopes : trainBody.length = 128 ∧ leNat trainBody = (trainP true).toNat ∧ elsewhere (trainDev []) 40 = false ∧
    jobElsewhere (trainDev []) = false ∧ (trainDev []).train.jobs.length < 1024 ∧
    findJob (trainDev []) (jobKey 2 9) = none ∧ jobVariantsOk (trainDev []) 2 (trainP true) = true ∧ JobPar.ok (trainP true) = true ∧
    JobPar.reward (trainP true) = 0 ∧ JobPar.ok (trainP false) = false ∧
    findJob (trainDev [job0 .rollout none]) (jobKey 2 9) = some (job0 .rollout none) ∧ readPrompts 1 (u4 [1, 7]) = some [[7]] ∧
    0 + 1 ≤ reg (trainDev []) 0x600B 0x00 ∧ reg (setReg (trainDev []) 0x600B 0 0) 0x600B 0x00 < 0 + 1 ∧
    (u4 [9, 0, 3, 0, 0x3F800000, 0x40000000]).length = 16 + 4 * JobPar.groupSize (trainP true) ∧
    (job0 .rollout none).group? 3 = some (group0 none) ∧ (job0 .rollout none).reward = 0 ∧ JobPar.template (trainP true) = 1 ∧
    (readOffline 1 (u4 [1, 1, 0, 7])).isSome = true ∧ leNat ((evalBody.drop 4).take 4) = 1 ∧ leNat (evalBody.take 4) = 40 ∧
    (readProbes evalBody.length (evalBody.drop 8)).isSome = true ∧ variant (trainDev []) 40 = some (rec0 40 .none) ∧ (rec0 40 .none).held = true ∧
    (∀ x ∈ (trainDev []).ink.refused, x.1 ≠ evalUse 2 77) ∧ variant (trainDev []) 99 = none ∧ elsewhere (trainDev []) 99 = false := by
  decide +kernel
theorem wit_TrainingStep : (job0 .rollout none).group? 3 = some (group0 none) ∧ (∃ r ∈ (group0 none).rollouts, r.reward = none) ∧
    1 + reg (trainDev []) 0x600A 0x00 ≤ (trainDev []).frame.no ∧ (trainDev []).frame.no < 1 + reg open_ 0x600A 0x00 ∧
    (job0 .rollout (some 0)).step? 0 = some (step0 .rollout (some 0)) ∧ (step0 .rollout (some 0)).scored = true ∧
    (step0 .rollout (some 0)).trained ≠ [] ∧ (step0 .rollout (some 0)).close = none ∧ (∀ y ∈ (step0 .rollout (some 0)).groups, ∀ r ∈ y.rollouts, ∀ w, r.reward = some w → isNan w = false) ∧
    4 ∉ (step0 .training none).reduced ∧ ((trainDev []).train.evals.find? (fun v => v.slot == 2 && v.id == 77)).isSome = true ∧
    0 + reg (setReg (trainDev []) 0x600C 0 5) 0x600C 0x00 ≤ 5 ∧ 5 < 0 + reg (trainDev []) 0x600C 0x00 := by
  refine ⟨by decide +kernel, by decide, by decide, by decide, by decide +kernel, by decide, by decide, by decide, ?_, by decide, by decide +kernel, by decide, by decide⟩
  intro y hy r hr w h
  simp [step0, group0, rollout0] at hy
  subst hy
  simp at hr
  subst hr
  simp at h
  subst h
  decide

def notice0 : CommitNotice := { slot := 2, job := 9, variant := 40, step := 6, u := 1, opt := 0, seed := 0, factors := [0x3F800000] }
def scribeDev (j : List Job) : Dev :=
  { trainDev j with train := { (trainDev j).train with
      scribe := [{ notice := notice0, planned := true, running := true, heldCounted := false, limitCounted := false }] } }
theorem wit_ScribesWrite : variant (scribeDev []) 40 = some (rec0 40 .none) ∧
    BankHdr.held ((rec0 40 .none).bank (!(rec0 40 .none).liveB)) = false ∧
    ((scribeDev []).train.scribe.find? (fun t => t.running && t.notice.variant == 40)).map (·.notice) = some notice0 ∧
    bookOf (scribeDev []) (rec0 40 .none) = some book0 ∧ (rec0 40 .none).id = 40 ∧ findJob (scribeDev []) (jobKey 2 9) = none ∧
    findJob (trainDev [job0 .committed none]) (jobKey 2 9) = some (job0 .committed none) ∧
    (job0 .committed none).step? 0 = some (step0 .committed none) ∧ 4 ∉ (step0 .committed none).scribed := by decide +kernel
/-- A step whose one group is dropped has none left; one with another group has. -/
theorem wit_TrainingStep_empty :
    (let j := (job0 .rollout none).onGroup 3 (fun y => { y with dropped := true })
     ∃ x, j.steps = [x] ∧ x.phase = .rollout ∧ x.trained = []) ∧
    (let j : Job := { job0 .rollout none with steps := [{ step0 .rollout none with groups := [group0 none, { group0 none with g := 4 }] }] }
     j.group? 3 = some (group0 none) ∧ ∀ x ∈ (j.onGroup 3 (fun y => { y with dropped := true })).steps, x.trained ≠ []) := by
  refine ⟨⟨_, rfl, by decide, by decide⟩, by decide, by decide⟩

/-! ## Witnesses: snapshots, restores, base replacement -/

def image0 (n edge : Nat) : Image :=
  { number := n, edge := edge, vars := [], jobs := [], late := [], records := [], retained := [], trace := [], baseId := 8, baseGen := 1, measure := 0 }
/-- Application 0 with a snapshot as given; the device is manager where `m`. -/
def snapDev (m : Bool) (x : Snap) (stopped : Bool) : Dev :=
  let d := setReg (setReg inkDev 0x6020 0 2) 0x6020 7 3
  let d := if m then setReg d 0x4000 1 1 else d
  { d with snap := { d.snap with apps := [(0, x)] }, gen := { d.gen with apps := [(0, some { app0 with stopped := stopped })] } }
def snapRun : Snap := { snapIdle with number := 4, state := 2, current := some (image0 4 2), toSend := [40, 4294967296] }
def snapLate : Snap := { snapIdle with number := 4, state := 1, current := some (image0 4 5), toSend := [40] }
def obj0 (n : Nat) : SnapObj := { device := 3, app := 0, snapshot := n, part := 40, version := 0, len := 0, sha := [], names := [] }
theorem wit_SnapshotsProceed : isManager (snapDev true snapIdle false) = true ∧ reg (snapDev true snapIdle false) 0x6020 0x00 = 2 ∧
    snapIdle.last + snapInterval (setReg (snapDev true snapIdle false) 0x6020 1 16) 0 ≤ 5 + 16 ∧ (appAt (snapDev true snapIdle false) 0).isSome = true ∧
    snapIdle.order = none ∧ snapIdle.current = none ∧ isManager (snapDev false snapIdle false) = false ∧ snapOf (snapDev true snapRun false) 0 = snapRun ∧
    2 + reg (snapDev true snapRun false) 0x6020 0x07 ≤ 5 ∧ 5 < 5 + reg (snapDev true snapLate false) 0x6020 0x07 ∧
    (∀ y ∈ inkDev.snap.store, ¬(y.device = 3 ∧ y.app = 0 ∧ y.part = 40 ∧ y.snapshot = 4)) ∧ 40 ∈ snapRun.toSend ∧ (image0 4 2).vars = [] ∧
    snapRun.toSend.filter (· != 40) ≠ [] ∧ 9 ∉ snapRun.recorded ∧ setSizeOf (snapDev true snapRun false) 0 ≤ [9].length ∧
    snapRun.recorded.length < setSizeOf (snapDev true snapRun false) 0 := by decide +kernel
def snapStop : Snap := { snapIdle with stopAt := some 5 }
theorem wit_RestoresProceed : isManager (snapDev true snapIdle false) = true ∧ snapIdle.stopAt = none ∧ isManager (snapDev false snapIdle false) = false ∧
    appAt (snapDev true snapStop true) 0 = some { app0 with stopped := true } ∧ snapOf (snapDev true snapStop true) 0 = snapStop ∧ 9 ∉ snapStop.restored ∧
    9 ≠ ownDevice (snapDev true snapStop true) ∧ setSize { app0 with stopped := true } ≤ ([] : List Nat).length + 1 ∧ snapStop.complete = none := by decide +kernel

def entry0 (v state : Nat) : JEntry :=
  { word := BitVec.ofNat 128 (packBits [(0, 32, v), (32, 4, state)]), lp := 0, expLp := 0, hit := 0, expHit := 0, mappedAt := 0, told := false }
/-- A base replacement of application 0 in a phase; variant 40 with a flip pending is not quiet. -/
def baseDev (phase : Nat) (l : List JEntry) : Dev :=
  let d := setReg (snapDev true snapIdle false) 0x2105 1 2
  let d := setReg d 0x2105 3 2
  { d with base := [(0, { baseIdle with phase := phase, opId := 6, journal := l, package := if l = [] then none else some ⟨book0, []⟩ })]
           ink := { d.ink with recs := [(40, some ((rec0 40 .none).setHdr 173 1 1)), (42, some (rec0 42 .none))] } }
theorem wit_BaseReplacement : (baseOf (baseDev 1 []) 0).phase = 1 ∧ setSize app0 = 1 ∧ isManager (baseDev 1 []) = true ∧
    (baseOf (baseDev 1 []) 0).verified = [] ∧ sameShape app0.book (Package.mk book0 []).book = true ∧ (baseOf (baseDev 1 []) 0).package = none ∧
    (∀ h ∈ (baseDev 1 []).ink.heldRegs, h.1.app ≠ 0) ∧ entryOf (baseDev 2 [entry0 40 0]) 0 40 = some (entry0 40 0) ∧ (entry0 40 0).st = 0 ∧
    quietVariant (baseDev 2 [entry0 40 0]) 40 = false ∧ 0 + reg (baseDev 2 []) 0x2105 0x01 ≤ 5 ∧ 5 < 0 + reg open_ 0x2105 0x01 ∧
    entryOf (baseDev 2 [entry0 42 1]) 0 42 = some (entry0 42 1) ∧ (entry0 42 1).st = 1 ∧
    variant (baseDev 2 [entry0 42 1]) 42 = some (rec0 42 .none) ∧ (rec0 42 .none).id = 42 ∧
    (baseOf (baseDev 2 [entry0 42 1]) 0).package = some ⟨book0, []⟩ ∧ (entry0 42 2).st = 2 ∧ (entry0 42 3).st = 3 ∧
    0 + reg (baseDev 2 []) 0x2105 0x03 ≤ 5 := by decide +kernel

/-! ## Witnesses: Ligature -/

/-- Port 3 of device 7 as given; its cable goes to port 5 of device 2, of identity 4. -/
def linkDev (x : PortS) : Dev := { setReg netDev 0x4010 4 1 with
  lig := { netDev.lig with ports := [(3, x)], tables := some { tables0 with cables := [(3, 2, 5, 4)] } } }
def up0 : PortS := { portIdle with st := .up, saved := true, rxSeq := 9, naks := 3, replay := [(20, 2, msg0), (22, 1, msg0)] }
def train0 : PortS := { portIdle with st := .training, fails := 1 }
def hello0 : Hello := { identity := 4, device := some 2, port := 5, epoch := 3, credits := [64, 64, 64, 64] }
def flitHdr (seq ack : Nat) : Nat := packBits [(4, 12, seq), (16, 12, ack), (28, 2, 1), (30, 10, 10)]
def flit0 (seq ack : Nat) (ok : Bool) : FlitOp :=
  { off := 2000, port := 3, header := BitVec.ofNat 64 (flitHdr seq ack + (if ok then crc24 (leBytes 5 (flitHdr seq ack)) else 0) * 2 ^ 40),
    data := [], corrected := 2, uncorrected := 1, done := [(0, 2), (1, 3)] }
theorem wit_LinkLayer : (port (linkDev up0) 3) = up0 ∧ up0.queue = [] ∧ (flit0 9 21 true).seq = up0.rxSeq ∧ (flit0 8 21 true).seq ≠ up0.rxSeq ∧
    (flit0 9 21 true).crcOk = true ∧ (flit0 9 21 false).crcOk = false ∧ (flit0 9 21 true).ack = 21 ∧
    ackReplay 21 up0.replay = [(22, 1, msg0)] ∧ ackReplay 19 up0.replay = up0.replay ∧ isManager (linkDev up0) = false ∧
    up0.naks < 16 ∧ 16 ≤ ({ up0 with naks := 16 } : PortS).naks ∧ upstream (linkDev up0) 3 = true ∧
    upstream { linkDev up0 with lig := { (linkDev up0).lig with tables := none } } 3 = false := by decide +kernel

theorem wit_PortStates : isManager (linkDev train0) = false ∧ (port (linkDev portIdle) 3).st = .disabled ∧
    (port (linkDev { portIdle with st := .down }) 3).st = .down ∧ (source open_ (portSrc 3 0)).st = .inactive ∧
    (source open_ (portSrc 3 0)).level ≠ 0 ∧ (source open_ (portSrc 3 2)).st = .inactive ∧ (source open_ (portSrc 3 2)).level ≠ 0 ∧
    0 + reg (setReg open_ 0x4016 0x01 5) 0x4016 0x01 ≤ 5 ∧ reg open_ 0x4016 0x02 ≤ 1000000 ∧ up0.fec < reg open_ 0x4016 0x02 ∧
    train0.fails + 1 < reg open_ 0x4016 0x00 ∧ reg (setReg open_ 0x4016 0x00 2) 0x4016 0x00 ≤ train0.fails + 1 ∧
    portMode (linkDev train0) 3 = 1 ∧ (port (linkDev { train0 with hello := some (hello0, true) }) 3).hello = some (hello0, true) ∧
    helloFits (linkDev train0) 3 hello0 = true ∧ helloFits (linkDev train0) 3 { hello0 with port := 6 } = false ∧
    train0.phy = false ∧ ({ train0 with phy := true } : PortS).phy = true := by decide +kernel

/-- The manager, number 7, knows device 2, out of reach since frame 2; the standby of device 2 is device 7. -/
def mgrNet : Dev := { setReg netDev 0x4000 1 1 with lig := { netDev.lig with joined := [(7, 1), (2, 3)], unreach := [(2, 2)] } }
def sbyDev : Dev := setReg (setReg netDev 0x4002 1 7) 0x4002 2 5
def hand0 : SentSlot := { addr := 77, stamp := 6, task := (task0 4 1024 .decode).plan, chunk := none, tries := 0, keep := 6 }
theorem wit_ManagerAndDevices : isManager sbyDev = false ∧ reg sbyDev 0x4002 0x01 = ownDevice sbyDev ∧ ownDevice sbyDev ≠ 0xFFFFFFFF ∧
    sbyDev.lig.lastTick + reg sbyDev 0x4002 0x02 ≤ 5 ∧ isManager mgrNet = true ∧ mgrNet.lig.unreach.get 0 2 ≠ 0 ∧
    mgrNet.lig.unreach.get 0 2 + reg (setReg open_ 0x6040 0x02 3) 0x6040 0x02 ≤ 5 + 1 ∧ 2 ∉ mgrNet.lig.lost ∧ 2 ≠ ownDevice mgrNet ∧
    (2, 3) ∈ mgrNet.lig.joined ∧ mgrNet.lig.sets = [] ∧ mgrNet.pow.stage ≠ .gasp ∧ mgrNet.lig.unreach.get 0 9 = 0 ∧
    hand0.tries + 1 ≤ reg netDev 0x4017 0x01 ∧ hand0.task.cls = .decode := by decide +kernel
theorem wit_ManagerAndDevices_messages : arrives (atOff mgrNet 2000) 3 0x03 { msg0 with kind := 3 } ∧
    arrives (atOff netDev 2000) 3 0x04 { msg0 with kind := 4 } ∧ arrives (atOff netDev 2000) 3 0x02 { msg0 with kind := 2 } := by
  unfold arrives; decide +kernel
/-- The check value that CRC-24 of RFC 4880 is published with: that of the digits 1 to 9. -/
theorem test_crc24 : crc24 [0x31#8, 0x32#8, 0x33#8, 0x34#8, 0x35#8, 0x36#8, 0x37#8, 0x38#8, 0x39#8] = 0x21CF02 := by decide +kernel

/-! ## Witnesses: security -/

/-- A device with its identity: tenant 12 in key slot 2, tenant 13 enrolled with code 5, tenant 14 keyed elsewhere. -/
def secDev (m : Bool) (x : KeySlot) : Dev :=
  { setReg inkDev 0x4000 1 (b2n m) with keys := [(2, x)], sec := { open_.sec with
      idOk := true, tenants := [⟨12, 0, true, false⟩, ⟨13, 5, false, false⟩, ⟨14, 5, true, false⟩] } }
def keyOp (t code : Nat) (proof : List Byte) : KeyOp := { off := 2000, tenant := t, code := code, trk := [9], proof := proof, transcript := [1] }
/-- The PROOF of tenant 12's key for a command. -/
def proven (name : List Byte) : List Byte := (Config.hmac512 [7] (name ++ [1])).take 32
def rotated2 : KeySlot := { key2 with st := 2, genPrev := some 0, rotated := 2 }
/-- A device whose identity did not unwrap. -/
def noId : Dev := { open_ with sec := { open_.sec with idOk := false } }
theorem wit_KeyCommands : (secDev true key2).sec.idOk = true ∧ bit (reg (secDev true key2) 0x8100 0x00) 8 = false ∧
    isManager (secDev true key2) = true ∧ isManager (secDev false key2) = false ∧ noId.sec.idOk = false ∧
    bit (reg (setReg (secDev true key2) 0x8100 0x00 256) 0x8100 0x00) 8 = true ∧
    tenantRec (secDev true key2) 11 = none ∧ tenantRec (secDev true key2) 13 = some ⟨13, 5, false, false⟩ ∧
    tenantRec (secDev true key2) 14 = some ⟨14, 5, true, false⟩ ∧ (keyOp 13 6 []).code ≠ 5 ∧ (keyOp 13 5 []).code = 5 ∧
    tenantSlot (secDev true key2) 13 = none ∧ (keySlot (secDev true key2) 0).st = 0 ∧ slotOfTenant (secDev true key2) 13 = none ∧
    slotOfTenant (secDev true key2) 12 = some 2 ∧ tenantSlot (secDev true key2) 12 = some 2 ∧ keySlot (secDev true key2) 2 = key2 ∧
    key2.genPrev = none ∧ rotated2.genPrev ≠ none ∧ slotOfTenant (secDev true rotated2) 12 = some 2 ∧
    2 + reg (setReg (secDev true rotated2) 0x8003 0x00 3) 0x8003 0x00 ≤ 5 ∧ 5 < 2 + reg (secDev true rotated2) 0x8003 0x00 := by decide +kernel
theorem wit_KeyCommands_proof : proofOk key2 (asciiOf "KEY_ROTATE") (keyOp 12 0 (proven (asciiOf "KEY_ROTATE"))) = true ∧
    proofOk rotated2 (asciiOf "KEY_ROTATE") (keyOp 12 0 (proven (asciiOf "KEY_ROTATE"))) = true ∧
    proofOk rotated2 (asciiOf "KEY_RETIRE") (keyOp 12 0 (proven (asciiOf "KEY_RETIRE"))) = true ∧
    proofOk key2 (asciiOf "KEY_REVOKE") (keyOp 12 0 (proven (asciiOf "KEY_REVOKE"))) = true ∧
    proofOk key2 (asciiOf "ROSTER") (keyOp 12 0 (proven (asciiOf "ROSTER"))) = true ∧
    (∀ name, proofOk key2 name (keyOp 12 0 (List.replicate 33 0)) = false) := by
  refine ⟨by simp [proofOk, proven, keyOp, key2], by simp [proofOk, proven, keyOp, key2, rotated2],
    by simp [proofOk, proven, keyOp, key2, rotated2], by simp [proofOk, proven, keyOp, key2],
    by simp [proofOk, proven, keyOp, key2], fun name => ?_⟩
  simp only [proofOk, beq_eq_false_iff_ne, ne_eq]
  intro h
  have := congrArg List.length h
  simp [List.length_take, keyOp] at this
  omega

def vfDev (st : Nat) : Dev := { setReg open_ 0x8010 3 st with sec := { open_.sec with spdm := [⟨4, 0, false⟩, ⟨6, 1, false⟩] } }
theorem wit_DeviceInterfaces : tdi (vfDev 0) 3 = 0 ∧ tdi (vfDev 1) 3 = 1 ∧ tdi (vfDev 2) 3 = 2 ∧ (source open_ 1186).st = .inactive ∧
    (source open_ 1186).level ≠ 0 ∧ (∃ x ∈ (vfDev 0).sec.spdm, x.id = 4 ∧ x.transport = 0) ∧
    (∀ x ∈ (vfDev 0).sec.spdm, ¬(x.id = 6 ∧ x.transport = 0)) := by decide +kernel

def ddrDev : Dev := { inkDev with mem := { inkDev.mem with usable := [(0, 100)], ddr := [(18874373, 7), (20971521, 8)] } }
theorem wit_AttestationAndScrub : (secDev true key2).sec.idOk = true ∧ noId.sec.idOk = false ∧
    (measurement State.reset.nv (secDev true key2) 0x40 = none) ∧ measurement State.reset.nv (secDev true key2) 0x01 = some State.reset.nv.rom ∧
    ddrDev.mem.frameOwner.get 0 9 = 0 ∧ treeFailed ddrDev 9 = false ∧ frameUsable ddrDev 9 = true ∧
    ({ ddrDev with mem := { ddrDev.mem with frameOwner := [(9, 4)] } }).mem.frameOwner.get 0 9 ≠ 0 ∧ (source open_ 5).st = .inactive ∧
    (source open_ 5).level ≠ 0 := by decide +kernel

/-! ## Witnesses: sessions and requests -/

def ses0 (r : Role) (t : Transport) : Session :=
  { id := 5, role := r, transport := t, label := false, openFrame := 1, lastFrame := 4, seqIn := 3, seqOut := 0, keyIn := [1], keyOut := [2], subscribed := false
    staged := none, latch := none }
/-- A manager with session 5 of a role open, and an opening of the operator. -/
def sesDev (r : Role) (t : Transport) : Dev :=
  { mgr with epell := { mgr.epell with sessions := [ses0 r t], openings := [⟨.segA, .operator, true, 70, [71], [3], [4]⟩], nextId := 6 } }
def req5 : Req := { ses := 5, seq := 4, key := [1], tag := 9, held := 0 }
def opening0 : Opening := ⟨.segA, .operator, true, 70, [71], [3], [4]⟩
def proof0 (mac : List Byte) : ProofOp := { transport := .segA, nonce := 70, key := [3], body := .password mac }
def nvPw : Nv := { State.reset.nv with operatorPw := some [1] }
/-- The HMAC of the opening's transcript under the operator's verifier, and under another that differs in no known way. -/
theorem wit_proof : proofHolds nvPw opening0 (.password (Config.hmac512 ([1].drop 32) (asciiOf "EPELL-PW" ++ [71]))) = true ∧
    proofHolds nvPw opening0 (.key 0 [1] [] none) = false := by
  refine ⟨?_, rfl⟩
  show (true && (some [1]).any (fun c => Config.hmac512 ([1].drop 32) (asciiOf "EPELL-PW" ++ [71]) == Config.hmac512 (c.drop 32) (asciiOf "EPELL-PW" ++ [71]))) = true
  simp
def lock0 (f u : Nat) : Dev :=
  let d := sesDev .installer .segA
  { d with epell := { d.epell with locks := [(roleCode .operator, { lockIdle with failures := f, until_ := if u = 0 then none else some u })] } }
theorem wit_SessionsOpenAndClose : dictUp (sesDev .installer .segA) = true ∧ transportOn (sesDev .installer .segA) .segA = true ∧
    (sesDev .installer .segA).epell.openings.find? (fun o => o.transport == .segA && o.nonceC == 70) = some ⟨.segA, .operator, true, 70, [71], [3], [4]⟩ ∧
    (sesDev .installer .segA).epell.openings.find? (fun o => o.transport == .segA && o.nonceC == 72) = none ∧
    ¬reg (sesDev .installer .segA) 0x8201 0x00 ≤ (sesDev .installer .segA).epell.sessions.length ∧
    reg (setReg (sesDev .installer .segA) 0x8201 0x00 1) 0x8201 0x00 ≤ 1 ∧ locked (lock0 5 9) .operator = true ∧
    locked (lock0 4 0) .operator = false ∧ (proof0 []).key = opening0.keyIn ∧ reg (lock0 4 0) 0x8204 0x00 ≤ 4 + 1 ∧
    (lockOf (lock0 4 0) .operator).ended = false ∧ (lockOf (lock0 4 0) .operator).until_ = none ∧
    (lockOf (lock0 5 5) .operator).until_ ≠ none ∧ locked (lock0 5 5) .operator = false ∧ 3 + 1 < reg (lock0 3 0) 0x8204 0x00 ∧
    (lockOf (lock0 5 9) .operator).until_ = some 9 ∧ (lockOf (lock0 5 5) .operator).until_ = some 5 ∧
    4 + reg (setReg open_ 0x8201 0x01 1) 0x8201 0x01 ≤ 5 ∧ 5 < 4 + reg open_ 0x8201 0x01 ∧ open_.pow.stage ≠ .gasp := by decide +kernel

def readI : Item := { numItem 0x1010 0x00 0 with length := 4, data := [] }
def idleI (v : Nat) : Item := numItem 0x8201 0x01 v
theorem wit_RequestsServed :
    letIn (sesDev .installer .segA) req5 (ses0 .installer .segA) ∧ letIn (sesDev .operator .pcie) req5 (ses0 .operator .pcie) := by
  unfold letIn; decide +kernel
theorem wit_RequestsServed_items :
    let s := st (sesDev .installer .segA)
    let x := ses0 .installer .segA
    let d := heard s.dev req5 x
    let y := noted s.dev req5 x
    (∃ e, entryRow 0x1010 0x00 = some e ∧ accessStatus d y e 0 false = stOk ∧ readI.typ = typeCode e.typ ∧
      (entryValue s.nv d e 0).1 ≤ 2 ^ 20) ∧ readI.offset = 0 ∧
    itemStatus s.nv d y [idleI 1999] (idleI 1999) = stValueRefused ∧ itemStatus s.nv d y [idleI 2000] (idleI 2000) = stOk ∧
    itemStatus s.nv d y [idleI 1999, idleI 20000000] (idleI 1999) = stValueRefused ∧
    itemStatus s.nv d y [idleI 1999, idleI 20000000] (idleI 20000000) = stOk ∧
    (∀ i ∈ [idleI 2000, numItem 0x8204 0x00 3], itemStatus s.nv d y [idleI 2000, numItem 0x8204 0x00 3] i = stOk) := by
  refine ⟨?_, by decide +kernel⟩
  cases h : entryRow 0x1010 0x00 with
  | none => exact absurd h (by decide +kernel)
  | some e =>
    have : (entryRow 0x1010 0x00).any (fun e => decide (
      let d := heard (sesDev .installer .segA) req5 (ses0 .installer .segA)
      let y := noted (sesDev .installer .segA) req5 (ses0 .installer .segA)
      accessStatus d y e 0 false = stOk ∧ readI.typ = typeCode e.typ ∧ (entryValue State.reset.nv d e 0).1 ≤ 2 ^ 20)) = true := by decide +kernel
    rw [h] at this
    exact ⟨e, rfl, of_decide_eq_true this⟩
theorem wit_RequestsServed_carried : let d := sesDev .installer .segA
    carried d req5 (.read [readI]) = true ∧ carried d req5 (.write [idleI 1999, idleI 20000000]) = true ∧
    carried d req5 (.staged (idleI 2000) true) = true ∧ carried d req5 (.write [{ idleI 1 with data := List.replicate 1190 0 }]) = false ∧
    (sessionOf d req5.ses).isSome = true := by decide +kernel

/-! ## Witnesses: the dictionary -/

/-- A READY manager with a session of a role: application 0 loaded, base operation 6 in a phase, tenants 12 (key slot 2) and 13. -/
def ordDev (r : Role) (phase : Nat) : Dev :=
  let d := setReg { sesDev r .segA with
    gen := inkDev.gen, ink := inkDev.ink, mem := inkDev.mem, keys := inkDev.keys
    sec := { open_.sec with tenants := [⟨13, 5, false, false⟩] }
    base := [(0, { baseIdle with phase := phase, opId := 6 })] } 0x8100 0x00 0x1F
  { d with lig := { d.lig with ports := [(3, { portIdle with st := .up })] } }
def powDev (r : Role) : Dev :=
  { sesDev r .segA with pow := { open_.pow with floor := 650, calib := [1500, 2500, 3000] } }
def adm (d : Dev) (r : Role) (i : Item) : Prop := admits (st d) req5 (ses0 r .segA) i

theorem wit_CounterClears : ∀ k ∈ [0x104F, 0x204F, 0x205F, 0x211F, 0x303F, 0x313F, 0x402F, 0x504F, 0x601F, 0x604F, 0x605F, 0x700F, 0x816F,
    0x822F, 0x900F], adm (sesDev .operator .segA) .operator (numItem k 0x00 0x80000001) := by
  unfold adm admits letIn; decide +kernel
theorem wit_CounterClears_ash : adm (sesDev .installer .segA) .installer (numItem 0xA006 0x00 5) ∧
    adm (sesDev .installer .segA) .installer (numItem 0xA006 0x00 6) := by
  unfold adm admits letIn; decide +kernel

theorem wit_SettingsTakeEffect : (∀ i ∈ [numItem 0x1010 0x00 500, numItem 0x1011 0x01 450, numItem 0x1011 0x02 450, numItem 0x1011 0x03 60,
    numItem 0x1011 0x04 40, numItem 0x9001 0x00 1600, numItem 0x9001 0x00 3800, numItem 0x8214 0x00 0, numItem 0x8210 0x01 0],
      adm (powDev .installer) .installer i) ∧
    (∀ i ∈ [numItem 0x8100 0x00 7, numItem 0x3103 0x00 1, elemItem 0x7001 0x00 4 4 [0x1C]], adm (powDev .operator) .operator i) := by
  unfold adm admits letIn; decide +kernel
theorem wit_SettingsTakeEffect_values : floorOf (powDev .installer).pow.calib 1600 < (powDev .installer).pow.floor ∧
    (powDev .installer).pow.floor ≤ floorOf (powDev .installer).pow.calib 3800 ∧ (sourceWrite (powDev .operator) 4 0x1C).isSome = true := by
  decide +kernel

theorem wit_ApplicationsOrdered : (∀ i ∈ [elemItem 0x3020 2 2 2 [9], elemItem 0x3021 2 2 4 [9], elemItem 0x3022 2 2 4 [9],
    elemItem 0x3120 2 2 2 [1], elemItem 0x6008 2 2 2 [9], numItem 0x3111 0x00 40, numItem 0x3112 0x00 12, numItem 0x3112 0x00 14,
    numItem 0x6025 0x00 1, numItem 0x6025 0x01 1, numItem 0x8100 0x01 0, numItem 0x8100 0x02 8, numItem 0x8100 0x03 0, numItem 0x8002 0x01 13,
    byteItem 0x2100 0x00 (leBytes 128 8) ⟨true, 0⟩ .raw,
    byteItem 0x8002 0x00 (leBytes 2 14 ++ leBytes 4 77) ⟨true, 0⟩ .raw], adm (ordDev .operator 0) .operator i) ∧
    adm (ordDev .operator 2) .operator (numItem 0x2100 0x01 6) ∧ adm (ordDev .operator 5) .operator (numItem 0x2100 0x02 6) := by
  unfold adm admits letIn; decide +kernel
theorem wit_ApplicationsOrdered_view : adm (ordDev .operator 0) .operator
      (byteItem 0x8110 0x00 (List.replicate 16 0) ⟨true, 0⟩ (.view (.ddr 9 5))) ∧ (viewResult (ordDev .operator 0) (.ddr 9 5)).isSome = true := by
  refine ⟨?_, rfl⟩
  unfold adm admits letIn; decide +kernel
/-- A manager of a set of two devices. -/
def setDev : Dev := { mgr with lig := { mgr.lig with sets := [⟨9, [⟨ownDevice mgr, 0, 0, 0⟩, ⟨4, 0, 1, 0⟩]⟩] } }
theorem wit_ApplicationsOrdered_told : isManager setDev = true ∧ isManager open_ = false ∧
    (setDev.lig.sets.find? (fun s => s.members.any (fun m => m.device == ownDevice setDev && m.app + 1 == 1))).isSome = true ∧
    (tellShares setDev (elemItem 0x3020 1 2 2 [9]) 2).out.length = 1 := by decide +kernel
theorem wit_ApplicationsOrdered_values : tenantSlot (ordDev .operator 0) 12 = some 2 ∧ tenantSlot (ordDev .operator 0) 14 = none ∧
    appOfOp (ordDev .operator 2) 6 = some 0 ∧ (8 : Nat) = 0 + 8 * 1 := by decide +kernel

/-- A map of this device alone, of identity 0. -/
def map0 : WireMap := { devices := [(0, 0, 0)], cables := [] }
theorem wit_DeviceOrders : (∀ i ∈ [numItem 0x9009 0x00 (8 + 64 + 256 * 8), numItem 0x9009 0x00 (8 + 64 + 1), numItem 0x9009 0x00 (8 + 2),
    numItem 0x9009 0x00 3, numItem 0x9009 0x00 7, numItem 0x4015 4 1, numItem 0x4015 4 2, numItem 0x4015 4 3, numItem 0x4010 4 1,
    numItem 0x900D 0x00 4, numItem 0x8205 0x00 5, byteItem 0x4003 0x00 [1, 2] ⟨true, 0⟩ (.map map0)], adm (ordDev .installer 0) .installer i) ∧
    adm (ordDev .operator 0) .operator (numItem 0x5018 0x00 1) ∧
    (∀ i ∈ [numItem 0xF003 0x00 State.reset.nv.serialSum, numItem 0xF004 0x00 1, byteItem 0xF001 0x00 [3] ⟨true, 1⟩ .raw,
      byteItem 0xF002 0x00 [3] ⟨true, 1⟩ .raw], adm (ordDev .maker 0) .maker i) ∧
    (powDev .installer).pow.resets = [] ∧ covers .warm (.hearth 53) = true ∧ covers .cold .warm = true ∧
    groupUsed (ordDev .installer 0) 1 ≤ freeElsewhere (ordDev .installer 0) 1 := by
  unfold adm admits letIn; decide +kernel
theorem wit_DeviceOrders_keys : adm (ordDev .maker 0) .maker (byteItem 0xF000 0x00 (List.replicate 16384 0) ⟨true, 1⟩ .raw) := by
  unfold adm admits letIn; decide +kernel

/-! ## Witnesses: power, kindling, units -/

def powAt (f : PowS → PowS) : Dev := { open_ with pow := f open_.pow }
def inOff (rst : Bool) : Dev := powAt fun p => { p with stage := .off, inputSwitch := true, coldRst := rst }
theorem wit_PowerComesAndGoes : (inOff false).pow.inputSwitch = true ∧ (inOff false).pow.powerGood = false ∧ (inOff false).pow.stage = .off ∧
    (inOff true).pow.coldRst = true ∧ open_.pow.stage ≠ .off ∧ open_.pow.stage ≠ .gasp ∧
    (powAt fun p => { p with stage := .gasp }).pow.stage = .gasp ∧ (powAt fun p => { p with stage := .gasp }).pow.powerGood = false ∧
    (powAt fun p => { p with stage := .gasp, powerGood := true, inputSwitch := true }).pow.coldRst = false ∧
    (powAt fun p => { p with stage := .off, inputSwitch := true, coldRst := true, powerGood := true }).pow.powerGood = true := by decide +kernel

def img (v : Bool) (svn : Nat) : FwImage := { version := 3, svn := svn, verifies := v, digest := [] }
def k0Op : K0Op := { us := 40, root := true, list := true, listVersion := 2, identity := true, record := true, calib := [] }
def nvK (a : FwImage) (c : Option FwImage) (n : Nat) : Nv := { State.reset.nv with active := a, candidate := c, candidateFails := n, counter0 := 2, counter1 := 2 }
def chanT (c : Nat) : ChannelTrain := { channel := c, kind := .mrdimm, ecc := true, gib := 64, rate := 8800, spd := 5, saved := false, full := true }
def k3Dev : Dev := powAt fun p => { p with stage := .k3, svn := 5, candidate := true, up := (List.range 8).map (9 * 2 + ·) ++ [0] }
theorem wit_KindlingRuns : k0Op.root = true ∧ k0Op.list = true ∧ (nvK (img true 2) none 0).counter1 ≤ k0Op.listVersion ∧
    ¬(nvK (img true 2) none 0).counter1 ≤ ({ k0Op with listVersion := 1 } : K0Op).listVersion ∧ isManager open_ = false ∧
    (nvK (img true 2) none 0).counter0 ≤ (img true 2).svn ∧ (img true 1).svn < (nvK (img true 1) none 0).counter0 ∧
    (powAt fun p => { p with stage := .k0, sysclk := true }).pow.sysclk = true ∧ (nvK (img true 2) (some (img true 4)) 2).candidateFails < 3 ∧
    3 ≤ (nvK (img true 2) (some (img true 4)) 3).candidateFails ∧ (img true 1).svn < (nvK (img true 2) (some (img true 1)) 0).counter0 ∧ ([4, 31] : List Nat).all (· < 32) = true ∧ fits (chanT 4) = true ∧
    channelTrained (nvK (img true 2) none 0) open_ (chanT 4) = true ∧
    channelTrained { nvK (img true 2) none 0 with savedChannels := [(4, 5)] } open_ (chanT 4) = false ∧ channelState open_ 4 ≠ 2 ∧ (powAt fun p => { p with stage := .k1 }).pow.warm = false ∧
    proofOpOk ⟨50, [⟨false, 19, 4⟩], [19], [3], [2], [7], true⟩ = true ∧ proofOpOk ⟨50, [], [], [], [], [], false⟩ = true ∧
    bankHearths (withBanks open_.pow.banks [⟨false, 19, 4⟩]) = bankHearths open_.pow.banks ∧
    bankClusters (withBanks open_.pow.banks [⟨true, 3, 4⟩]) = [] ∧ running open_ = true ∧
    k3Dev.gen.apps = [] ∧ isDegraded k3Dev 2 = false ∧ 8 ≤ (passing k3Dev 2).length ∧ (passing k3Dev 0).length < 8 ∧
    book0.parts ≠ [] ∧ bookFits open_ book0 0 = true ∧ bookFits open_ { book0 with parts := [8] } 8 = false := by decide +kernel

/-- Logical Hearths 8 and up of cluster 1 on physical 9 and up, physical 17 spare or not; a reset of a scope in a phase. -/
def hearthDev (spare : Bool) : Dev := powAt fun p => { p with
  map := [(8, some 9), (9, some 10)], up := [9, 10] ++ if spare then [17] else [] }
def resetDev (sc : Scope) (ph : ResetPhase) : Dev := { hearthDev true with
  pow := { (hearthDev true).pow with resets := [⟨sc, ph, false⟩], stage := .ready }, mem := { open_.mem with well := [(8 * wellSize, 7)] } }
theorem wit_UnitsFailAndReturn : running (hearthDev true) = true ∧ (hearthDev true).frame.tasks = [] ∧
    (hearthDev true).pow.outHearths.contains 8 = false ∧ isDegraded (hearthDev true) (clusterOf 8) = false ∧
    physical (hearthDev true) 8 = some 9 ∧ (hearthDev true).pow.resets = [] ∧ spareOf (hearthDev true) (clusterOf 8) = some 17 ∧
    spareOf (hearthDev false) (clusterOf 8) = none ∧
    ([⟨8, 17, true, false, false⟩] : List SpareUse).any (fun x => x.logical == 8 && x.proofPlanned && !x.reloaded) = true ∧
    isDegraded open_ 7 = false ∧ scopeOk (.cluster 7) = true ∧ scopeOk (.partition 7) = true ∧ scopeOk (.hearth 9) = true ∧
    scopeOk .warm = true ∧ scopeOk .cold = true ∧ covers .warm (.cluster 7) = true ∧
    (resetDev .warm .draining).pow.resets.any (fun r => r.scope == .warm && r.phase == .draining) = true ∧
    (resetDev .warm .under).pow.resets.any (fun r => r.scope == .warm && r.phase == .draining) = false ∧
    logicalOf (resetDev (.hearth 9) .draining) 9 = some 8 ∧
    (resetDev (.cluster 7) .under).pow.resets.any (fun r => r.scope == .cluster 7 && r.phase == .under) = true ∧
    (resetDev (.hearth 9) .under).pow.bad.contains 9 = false := by decide +kernel
/-- Two failed banks of a Well fail its Hearth, three of an Inkstone its cluster (R444). -/
theorem test_banks : bankHearths (withBanks [] [⟨false, 19, 4⟩, ⟨false, 19, 5⟩]) = [19] ∧
    bankHearths (withBanks [] [⟨false, 19, 4⟩, ⟨false, 19, 4⟩]) = [] ∧
    bankClusters (withBanks [] [⟨true, 7, 4⟩, ⟨true, 7, 5⟩, ⟨true, 7, 65⟩]) = [7] := by decide +kernel

/-- Group 1 has 100 frames, of which `n` are used; group 2 has 3. -/
def chanDev (n : Nat) : Dev := { open_ with mem := { open_.mem with
  usable := [(1, 100), (2, 3)], frameOwner := (List.range n).map (fun k => (524288 + k, 1)), corrWindow := [(5, [(5, 4)])], pageVersion := [(524290, 9)] } }
def retrainDev : Dev := { chanDev 0 with pow := { open_.pow with retraining := [1] } }
theorem wit_ChannelsInService : (source open_ 1157).st = .inactive ∧ (source open_ 1157).level ≠ 0 ∧
    4 + 1 < reg open_ 0x900D 0x01 ∧ reg (setReg open_ 0x900D 0x01 5) 0x900D 0x01 ≤ 4 + 1 ∧ groupUsed (chanDev 3) 1 ≤ freeElsewhere (chanDev 3) 1 ∧
    freeElsewhere (chanDev 4) 1 < groupUsed (chanDev 4) 1 ∧ 5 ∉ (chanDev 4).pow.retrainWaits ∧ ((recentErrors (chanDev 0) 5).map (·.2)).sum = 4 ∧ open_.pow.retraining = [] ∧ 1 ∈ retrainDev.pow.retraining ∧
    groupUsed retrainDev 1 = 0 ∧ version retrainDev 524290 = 9 ∧ 524290 / 524288 = 1 ∧
    (powAt fun p => { p with stage := .off }).pow.stage = .off := by decide +kernel

def flueDev : Dev := powAt fun p => { p with coolRaise := 64, coolResume := 64, mhz := 700, hold := true }
def drainDev (n : Nat) : Dev := setReg (powAt fun p => { p with svc := .draining, svcStart := n }) 0x900C 0x01 3
theorem wit_FlueAndService : 64 ≤ flueDev.pow.coolRaise ∧ flueDev.pow.mhz < 850 ∧ flueDev.pow.mhzNext = none ∧ flueDev.pow.mhzLate = none ∧ 64 ≤ flueDev.pow.coolResume ∧
    flueDev.pow.hold = true ∧ open_.pow.coolRaise < 64 ∧ open_.pow.coolResume < 64 ∧ (source open_ 9).st = .inactive ∧
    (source open_ 9).level ≠ 0 ∧ open_.ash.perFrame < reg open_ 0xA003 0x00 ∧ toSigned 32 (reg open_ 0x9006 0x01) ≤ 200000 ∧
    (0 : Int) < toSigned 32 (reg open_ 0x9006 0x01) ∧ open_.pow.dev = .ready ∧ running (inOff false) = false ∧
    (source open_ 10).st = .inactive ∧ (source open_ 0).st = .inactive ∧ (source open_ 10).level ≠ 0 ∧ open_.train.jobs = [] ∧
    (drainDev 2).pow.svcStart + reg (drainDev 2) 0x900C 0x01 ≤ 5 ∧ ¬(drainDev 3).pow.svcStart + reg (drainDev 3) 0x900C 0x01 ≤ 5 := by
  decide +kernel

/-! ## Witnesses: the machine as a whole -/

def queued : State := { s0 with pending := [.pePerstRelease, .lossOfInput] }
theorem wit_StepRunsTheFront : queued.pending = [.pePerstRelease, .lossOfInput] ∧ s0.pending = [] := ⟨rfl, rfl⟩
theorem wit_CommandsRun : Instr.wf .lossOfInput = true ∧ Instr.wf (.pin ⟨0, 4096, 0⟩) = false := by decide
theorem wit_CountersNeverFall : countersAtLeast 0 0 0 queued ∧ runsOn queued :=
  ⟨⟨Nat.zero_le _, Nat.zero_le _, Nat.zero_le _⟩, _, rfl⟩
theorem test_step_takes_front : (match step queued with | .next t => t.pending | _ => []) = [.lossOfInput] := rfl
theorem test_idle : step s0 = .next s0 := rfl

end Sys2Proof.Tests
end

section
/-!
SUPPORT. What kindling is built from: one step for each element of a list, tables written key by key, the scalar entries that an
operation leaves alone, the power domains, and degraded clusters.
-/
namespace Sys2Proof.Machine
open Sys2Proof

/-! ## One step for each element of a list -/

theorem forEach_append {α β : Type} (l m : List α) (d : β) (f : β → α → β) : forEach (l ++ m) d f = forEach m (forEach l d f) f :=
  List.foldl_append

/-- What the step at each element brings about, and every step keeps, holds of all elements at the end. -/
theorem forEach_brings {α β : Type} (p : α → β → Prop) (l : List α) (d : β) (f : β → α → β) (hat : ∀ e, ∀ x ∈ l, p x (f e x))
    (hkeep : ∀ e, ∀ x ∈ l, ∀ y ∈ l, p x e → p x (f e y)) : ∀ x ∈ l, p x (forEach l d f) := by
  intro x hx
  obtain ⟨s, t, rfl⟩ := List.append_of_mem hx
  rw [forEach_append]
  exact forEach_keeps (p x) t _ f (hat _ x hx) (fun e y hy he => hkeep e x hx y (by simp [hy]) he)

/-- What one element's step brings about from what holds before it, and no other element's step undoes, holds at the end. -/
theorem forEach_at {α β : Type} (before after : β → Prop) (l : List α) (d : β) (f : β → α → β) (x : α) (hx : x ∈ l) (hl : l.Nodup)
    (hd : before d) (hb : ∀ e, ∀ y ∈ l, y ≠ x → before e → before (f e y)) (hat : ∀ e, before e → after (f e x))
    (ha : ∀ e, ∀ y ∈ l, y ≠ x → after e → after (f e y)) : after (forEach l d f) := by
  obtain ⟨s, t, rfl⟩ := List.append_of_mem hx
  obtain ⟨-, hxt, hs⟩ := List.nodup_append.1 hl
  have hs' : ∀ y ∈ s, y ≠ x := fun y hy => hs y hy x (by simp)
  have ht' : ∀ y ∈ t, y ≠ x := fun y hy h => (List.nodup_cons.1 hxt).1 (h ▸ hy)
  rw [forEach_append]
  have h1 : before (forEach s d f) := forEach_keeps before s d f hd (fun e y hy he => hb e y (by simp [hy]) (hs' y hy) he)
  exact forEach_keeps after t _ f (hat _ h1) (fun e y hy he => ha e y (by simp [hy]) (ht' y hy) he)

/-! ## Tables written key by key -/

theorem get_foldl_set_of_notMem {α β : Type} [DecidableEq α] (dflt : α) (l : List β) (key : β → Nat) (v : β → α) (t : Table α) (j : Nat)
    (h : ∀ y ∈ l, key y ≠ j) : (l.foldl (fun (u : Table α) y => u.set dflt (key y) (v y)) t).get dflt j = t.get dflt j :=
  List.foldlRecOn (motive := fun u : Table α => u.get dflt j = t.get dflt j) l _ rfl
    (fun u hu y hy => (Table.get_set_ne u dflt dflt _ j _ (fun e => h y hy e.symm)).trans hu)

theorem get_foldl_set_of_mem {α : Type} [DecidableEq α] (dflt : α) (l : List Nat) (v : α) (t : Table α) (j : Nat) (h : j ∈ l) :
    (l.foldl (fun (u : Table α) y => u.set dflt y v) t).get dflt j = v :=
  forEach_brings (fun j (u : Table α) => u.get dflt j = v) l t (fun u y => u.set dflt y v) (fun u y _ => Table.get_set_self dflt u y v)
    (fun u x _ y _ hu => by
      rw [Table.get_set]
      split
      · rfl
      · exact hu) j h

/-- Consecutive keys written with the elements of a list. -/
theorem get_foldl_set_zipIdx {α : Type} [DecidableEq α] (l : List α) (base n k : Nat) (t : Table (Option α)) (hk : k < l.length) :
    ((l.zipIdx n).foldl (fun (u : Table (Option α)) x => u.set none (base + x.2) (some x.1)) t).get none (base + (n + k)) = l[k]? := by
  induction l generalizing n k t with
  | nil => simp at hk
  | cons a r ih =>
    rw [List.zipIdx_cons, List.foldl_cons]
    cases k with
    | zero =>
      rw [get_foldl_set_of_notMem none _ (fun x : α × Nat => base + x.2) (fun x => some x.1)]
      · exact Table.get_set_self none t _ _
      · intro y hy
        have := List.le_snd_of_mem_zipIdx hy
        omega
    | succ k =>
      have := ih (n + 1) k (t.set none (base + n) (some a)) (by simpa using hk)
      rwa [show n + 1 + k = n + (k + 1) by omega] at this

/-! ## Scalar entries -/

/-- Every scalar entry but those of some indices reads as it did. -/
def regsKept (l : List Nat) (d e : Dev) : Prop := ∀ i j, j < 256 → i ∉ l → reg e i j = reg d i j

theorem regsKept_refl (l : List Nat) (d : Dev) : regsKept l d d := fun _ _ _ _ => rfl

theorem regsKept_of_regs {l : List Nat} {d e : Dev} (h : e.regs = d.regs) : regsKept l d e := fun _ _ _ _ => by unfold reg; rw [h]

theorem regsKept.trans {l : List Nat} {a b c : Dev} (h : regsKept l a b) (h' : regsKept l b c) : regsKept l a c :=
  fun i j hj hi => (h' i j hj hi).trans (h i j hj hi)

theorem regsKept.mono {l m : List Nat} {a b : Dev} (h : regsKept l a b) (hlm : ∀ i ∈ l, i ∈ m) : regsKept m a b :=
  fun i j hj hi => h i j hj (fun hl => hi (hlm i hl))

theorem entry_ne_of_index {i j i' j' : Nat} (hj : j < 256) (hj' : j' < 256) (h : i' ≠ i) : entry i' j' ≠ entry i j := by
  unfold entry; omega

theorem regsKept_setReg (d : Dev) (i j v : Nat) (hj : j < 256) : regsKept [i] d (setReg d i j v) :=
  fun _ _ hj' hi' => reg_setReg_ne _ _ _ _ _ _ (entry_ne_of_index hj hj' (by simpa using hi'))

theorem regsKept.setReg {l : List Nat} {d e : Dev} (h : regsKept l d e) {i j : Nat} (v : Nat) (hj : j < 256) (hi : i ∈ l) :
    regsKept l d (setReg e i j v) :=
  h.trans ((regsKept_setReg e i j v hj).mono (by simpa using hi))

theorem regsKept_forEach {α : Type} (l : List Nat) (xs : List α) (d : Dev) (f : Dev → α → Dev)
    (hf : ∀ e, ∀ x ∈ xs, regsKept l e (f e x)) : regsKept l d (forEach xs d f) :=
  forEach_keeps (regsKept l d) xs d f (regsKept_refl l d) (fun e x hx he => he.trans (hf e x hx))

theorem regsKept.isManager {l : List Nat} {d e : Dev} (h : regsKept l d e) (hl : 0x4000 ∉ l) : isManager e = isManager d := by
  unfold Machine.isManager; rw [h 0x4000 0x01 (by decide) hl]

theorem coalesce_regsKept (d : Dev) (n code arg : Nat) : regsKept [0x7004] d (coalesce d n code arg) :=
  regsKept_setReg d 0x7004 0x01 (reg d 0x7004 0x01 + 1) (by decide)

/-- A firing of any source but FATAL changes the firing counters alone of the scalar entries. -/
theorem raise_regsKept (d : Dev) (n code arg : Nat) (h : n ≠ 0) : regsKept [0x7004] d (raise d n code arg) := by
  have hb : regsKept [0x7004] d (bump d 0x7004 0x00 1) := regsKept_setReg _ _ _ _ (by decide)
  simp only [raise, if_neg h]
  split
  · exact regsKept_refl _ d
  · split
    · exact hb
    · split
      · exact hb
      · exact hb.trans (coalesce_regsKept _ n code arg)

theorem field_lt {n : Nat} (v : BitVec n) (lo len : Nat) : field v lo len < 2 ^ len := Nat.mod_lt _ (Nat.two_pow_pos len)

/-! ## What kindling keeps of a start -/

/-- What K0 sets for the rest of kindling, with security and the memories. -/
def kindlingView (d : Dev) : Stage × Bool × Nat × List Nat × List Nat × SecS × MemS :=
  (d.pow.stage, d.pow.candidate, d.pow.svn, d.pow.kindle, d.pow.calib, d.sec, d.mem)

theorem kindlingView_setReg (d : Dev) (i j v : Nat) : kindlingView (setReg d i j v) = kindlingView d := rfl

theorem kindlingView_raise (d : Dev) (n code arg : Nat) (h : n ≠ 0) : kindlingView (raise d n code arg) = kindlingView d := by
  have := congrArg kindlingView (raise_only d n code arg h); exact this

/-! ## Power domains -/

theorem kindlingView_setDomains (d : Dev) (st : Nat) (l : List Nat) : kindlingView (setDomains d st l) = kindlingView d :=
  forEach_same kindlingView l d _ (fun _ _ _ => rfl)

theorem setDomains_regsKept (d : Dev) (st : Nat) (l : List Nat) (hl : ∀ k ∈ l, k < 96) : regsKept [0x9002] d (setDomains d st l) :=
  regsKept_forEach _ l d _ (fun e k hk => (regsKept_setReg (setPow e _) 0x9002 (k + 1) st (by have := hl k hk; omega)))

theorem mem_dieDomains_lt : ∀ k ∈ dieDomains, k < 96 := by decide
theorem mem_portDomains_lt : ∀ k ∈ portDomains, k < 96 := by decide
theorem mem_allClusterDomains_lt : ∀ k ∈ allClusterDomains, k < 96 := by decide

/-! ## Degraded clusters -/

theorem kindlingView_degrade (d : Dev) (c : Nat) : kindlingView (degrade d c) = kindlingView d := by
  unfold degrade; split <;> rfl

theorem degrade_regsKept (d : Dev) (c : Nat) : regsKept [0x900A] d (degrade d c) := by
  unfold degrade
  split
  · exact regsKept_refl _ d
  · exact regsKept_setReg _ _ _ _ (by decide)

theorem degrade_pow (d : Dev) (c : Nat) :
    (degrade d c).pow = { d.pow with degraded := if isDegraded d c then d.pow.degraded else d.pow.degraded ++ [c] } := by
  unfold degrade; split <;> rfl

theorem isDegraded_iff (d : Dev) (c : Nat) : isDegraded d c = true ↔ c ∈ d.pow.degraded := by simp [isDegraded]

theorem isDegraded_degrade (d : Dev) (c k : Nat) : isDegraded (degrade d c) k = true ↔ k = c ∨ isDegraded d k = true := by
  rw [isDegraded_iff, isDegraded_iff, degrade_pow]
  dsimp only
  split
  · rename_i h
    rw [isDegraded_iff] at h
    constructor
    · exact Or.inr
    · rintro (rfl | hk)
      · exact h
      · exact hk
  · simp [or_comm]

theorem forEach_degrade_pow (d : Dev) (l : List Nat) : ∃ t, (forEach l d degrade).pow = { d.pow with degraded := t } :=
  forEach_keeps (fun e => ∃ t, e.pow = { d.pow with degraded := t }) l d _ ⟨_, rfl⟩
    (fun e c _ ⟨_, h⟩ => ⟨_, by rw [degrade_pow, h]⟩)

theorem mem_forEach_degrade (d : Dev) (l : List Nat) : ∀ c ∈ l, isDegraded (forEach l d degrade) c = true :=
  forEach_brings (fun c e => isDegraded e c = true) l d degrade (fun e c _ => (isDegraded_degrade e c c).2 (.inl rfl))
    (fun e c _ k _ h => (isDegraded_degrade e k c).2 (.inr h))

end Sys2Proof.Machine
end

section
/-!
SUPPORT. K0 and recovery (R344 to R349): the checks, the image that runs, what it finds, and the image that the recovery loader takes.
-/
namespace Sys2Proof.Machine
open Sys2Proof

/-! ## The clock floor (R437) -/

theorem kindlingView_setClock (d : Dev) (f : Nat) : kindlingView (setClock d f) = kindlingView d := by
  simp only [setClock, setPow, kindlingView]; split <;> rfl

theorem kindlingView_setFloor (d : Dev) (limit : Nat) : kindlingView (setFloor d limit) = kindlingView d := by
  unfold setFloor
  extract_lets f d1 d2 d3
  have h2 : kindlingView d2 = kindlingView d := rfl
  clear_value d2
  have h3 : kindlingView d3 = kindlingView d2 := by
    simp only [d3]
    split
    · exact kindlingView_setClock d2 f
    · rfl
  rw [kindlingView_setReg, kindlingView_setReg, kindlingView_setReg, h3, h2]

theorem setFloor_regsKept (d : Dev) (limit : Nat) : regsKept [0x9001, 0x0100, 0x0101] d (setFloor d limit) := by
  have h := (regsKept_refl [0x9001, 0x0100, 0x0101] d).setReg (i := 0x9001) (j := 0x00) limit (by decide) (by decide)
  unfold setFloor
  refine regsKept.setReg (regsKept.setReg (regsKept.setReg ?_ _ (by decide) (by decide)) _ (by decide) (by decide)) _ (by decide) (by decide)
  split <;> exact h

/-! ## Defect lists (R446) -/

theorem kindlingView_takeDefects (n : Nv) (record : Bool) (d : Dev) : kindlingView (takeDefects n record d) = kindlingView d := by
  have hs : ∀ (l : List Nat) (e : Dev), kindlingView (forEach l e (fun d c => setChannel d 2 c)) = kindlingView e :=
    fun l e => forEach_same kindlingView l e _ (fun _ _ _ => rfl)
  have hd : ∀ (l : List Nat) (e : Dev), kindlingView (forEach l e degrade) = kindlingView e :=
    fun l e => forEach_same kindlingView l e _ (fun e c _ => kindlingView_degrade e c)
  exact (hs _ _).trans (hd _ _)

theorem takeDefects_regsKept (n : Nv) (record : Bool) (d : Dev) : regsKept [0x900A, 0x1101] d (takeDefects n record d) := by
  have hd : ∀ (l : List Nat) (e : Dev), regsKept [0x900A, 0x1101] e (forEach l e degrade) :=
    fun l e => regsKept_forEach _ l e _ (fun e c _ => (degrade_regsKept e c).mono (by decide))
  have hs : ∀ (l : List Nat) (e : Dev), (∀ c ∈ l, c < 32) → regsKept [0x900A, 0x1101] e (forEach l e (fun d c => setChannel d 2 c)) :=
    fun l e hl => regsKept_forEach _ l e _ (fun e c hc => (regsKept_setReg e 0x1101 (c + 1) 2 (by have := hl c hc; omega)).mono (by decide))
  refine (hd _ (setPow d _)).trans (hs _ _ ?_)
  intro c hc
  obtain ⟨e, -, rfl⟩ := List.mem_map.1 hc
  have h1 := field_lt e 4 3
  have h2 := field_lt e 20 2
  omega

/-! ## Ports at the end of K0 (R295, R442) -/

theorem setPortState_spec (d : Dev) (p : Nat) (st : PortState) (hp : p < 16) (hm : isManager d = false) :
    kindlingView (setPortState d p st) = kindlingView d ∧ regsKept [0x4011, 0x4012, 0x7004] d (setPortState d p st) := by
  have hn : portSrc p 0 ≠ 0 := by unfold portSrc; omega
  have hset : regsKept [0x4011, 0x4012, 0x7004] d (setReg (setPort d p { port d p with st := st }) 0x4011 (p + 1) st.code) :=
    (regsKept_setReg (setPort d p { port d p with st := st }) 0x4011 (p + 1) st.code (by omega)).mono (by decide)
  have hr := hset.trans ((raise_regsKept _ (portSrc p 0) st.code p hn).mono (by decide))
  unfold setPortState
  dsimp only
  split
  · exact ⟨rfl, regsKept_refl _ d⟩
  · rw [hr.isManager (by decide), hm]
    exact ⟨kindlingView_raise _ _ _ _ hn, hr⟩

theorem wakePorts_spec (d : Dev) (hm : isManager d = false) :
    kindlingView (wakePorts d) = kindlingView d ∧ regsKept [0x4011, 0x4012, 0x7004, 0x9002] d (wakePorts d) := by
  have hdom := setDomains_regsKept d 2 portDomains mem_portDomains_lt
  have hm' : isManager (setDomains d 2 portDomains) = false := (hdom.isManager (by decide)).trans hm
  suffices h : kindlingView (wakePorts d) = kindlingView (setDomains d 2 portDomains) ∧
      regsKept [0x4011, 0x4012, 0x7004] (setDomains d 2 portDomains) (wakePorts d) from
    ⟨h.1.trans (kindlingView_setDomains d 2 portDomains), (hdom.mono (by decide)).trans (h.2.mono (by decide))⟩
  refine forEach_keeps (fun e => kindlingView e = kindlingView (setDomains d 2 portDomains) ∧
    regsKept [0x4011, 0x4012, 0x7004] (setDomains d 2 portDomains) e) (List.range 16) _ _ ⟨rfl, regsKept_refl _ _⟩ ?_
  rintro e p hp ⟨hv, hk⟩
  have hp : p < 16 := List.mem_range.1 hp
  dsimp only
  generalize hf : (if p ∈ e.pow.prs then setReg e 0x4012 (p + 1) 3 else e) = f
  have hf' : kindlingView f = kindlingView e ∧ regsKept [0x4011, 0x4012, 0x7004] e f := by
    subst hf
    split
    · exact ⟨rfl, (regsKept_setReg e 0x4012 (p + 1) 3 (by omega)).mono (by decide)⟩
    · exact ⟨rfl, regsKept_refl _ e⟩
  have hkf := hk.trans hf'.2
  have hmf : isManager f = false := (hkf.isManager (by decide)).trans hm'
  have state : ∀ st, kindlingView (setPortState f p st) = kindlingView (setDomains d 2 portDomains) ∧
      regsKept [0x4011, 0x4012, 0x7004] (setDomains d 2 portDomains) (setPortState f p st) := fun st =>
    ⟨(setPortState_spec f p st hp hmf).1.trans (hf'.1.trans hv), hkf.trans (setPortState_spec f p st hp hmf).2⟩
  split
  · exact state _
  · split
    · exact state _
    · exact ⟨hf'.1.trans hv, hkf.setReg _ (by omega) (by decide)⟩

/-! ## K0 (R344 to R349) -/

/-- The checks of R346 that come before the image. -/
def k0Checks (op : K0Op) (n : Nv) : Prop := op.root = true ∧ op.list = true ∧ n.counter1 ≤ op.listVersion

/-- The device that stops in recovery. -/
def recoverDev (op : K0Op) (d : Dev) : Dev := setPow d (fun p => { p with stage := .recovery, kindle := [op.us] })

/-- The device before the ports of a started image wake. -/
def startRegs (op : K0Op) (n : Nv) (img : FwImage) (cand : Bool) (d : Dev) : Dev :=
  let d := setPow d (fun p => { p with stage := .k1, kindle := [op.us], candidate := cand, svn := img.svn })
  let d := setFloor (setPow d (fun p => { p with calib := op.calib })) (reg d 0x9001 0x00)
  let d := takeDefects n op.record { d with sec := { d.sec with idOk := op.identity && op.record } }
  setReg (setReg (setReg d 0x0004 0x00 img.version) 0x8004 0x01 img.svn) 0x8004 0x00 n.counter0

/-- The device that an image has started. -/
def startImage (op : K0Op) (n : Nv) (img : FwImage) (cand : Bool) (d : Dev) : Dev :=
  wakePorts (setDomains (startRegs op n img cand d) 2 dieDomains)

section
variable {op : K0Op} {n : Nv} {d : Dev} (hstage : d.pow.stage = .k0) (hclk : d.pow.sysclk = true)
include hstage hclk

theorem k0Done_of_not_checks (h : ¬k0Checks op n) : k0Done op n d = (n, recoverDev op d) := by
  have hbad : op.root = false ∨ op.list = false ∨ op.listVersion < n.counter1 := by
    refine Decidable.byContradiction fun hc => ?_
    obtain ⟨hr, hl, hv⟩ : ¬op.root = false ∧ ¬op.list = false ∧ ¬op.listVersion < n.counter1 := by simpa only [not_or] using hc
    exact h ⟨eq_true_of_ne_false hr, eq_true_of_ne_false hl, Nat.not_lt.1 hv⟩
  unfold k0Done recoverDev
  rw [if_neg (by simp [hstage, hclk]), if_pos (by simpa using hbad)]

theorem k0Done_of_no_image {m : Nv} (h : k0Checks op n) (hp : pickImage n = (m, none)) : k0Done op n d = (m, recoverDev op d) := by
  obtain ⟨hr, hl, hv⟩ := h
  unfold k0Done
  rw [if_neg (by simp [hstage, hclk]), if_neg (by simp [hr, hl, hv])]
  simp only [hp, recoverDev]

theorem k0Done_of_image {m : Nv} {i : FwImage} {cand : Bool} (h : k0Checks op n) (hp : pickImage n = (m, some (i, cand))) :
    k0Done op n d = (m, startImage op m i cand d) := by
  obtain ⟨hr, hl, hv⟩ := h
  unfold k0Done
  rw [if_neg (by simp [hstage, hclk]), if_neg (by simp [hr, hl, hv])]
  simp only [hp, startImage, startRegs]
end

/-- An image that the checks of R346 and R348 let run. -/
def imageOk (n : Nv) (i : FwImage) : Bool := i.verifies && decide (n.counter0 ≤ i.svn)

theorem imageOk_iff (n : Nv) (i : FwImage) : imageOk n i = true ↔ i.verifies = true ∧ n.counter0 ≤ i.svn := by simp [imageOk]
theorem imageOk_eq_false_iff (n : Nv) (i : FwImage) : imageOk n i = false ↔ i.verifies = false ∨ i.svn < n.counter0 := by
  rw [imageOk, Bool.and_eq_false_iff, decide_eq_false_iff_not, Nat.not_le]

/-- What is left where no candidate runs. -/
def pickActive (n : Nv) : Option (FwImage × Bool) := if imageOk n n.active then some (n.active, false) else none

theorem pickImage_none (n : Nv) (h : n.candidate = none) : pickImage n = (n, pickActive n) := by
  simp [pickImage, h, pickActive, imageOk]
theorem pickImage_failed (n : Nv) (c : FwImage) (h : n.candidate = some c) (hf : 3 ≤ n.candidateFails) :
    pickImage n = ({ n with candidate := none, candidateFails := 0 }, pickActive n) := by
  simp [pickImage, h, hf, pickActive, imageOk]
theorem pickImage_candidate (n : Nv) (c : FwImage) (h : n.candidate = some c) (hf : n.candidateFails < 3) (hc : imageOk n c = true) :
    pickImage n = ({ n with candidateFails := n.candidateFails + 1 }, some (c, true)) := by
  rw [imageOk_iff] at hc
  simp [pickImage, h, Nat.not_le.2 hf, hc]
theorem pickImage_badCandidate (n : Nv) (c : FwImage) (h : n.candidate = some c) (hf : n.candidateFails < 3) (hc : imageOk n c = false) :
    pickImage n = (n, pickActive n) := by
  simp only [imageOk] at hc
  simp [pickImage, h, Nat.not_le.2 hf, hc, pickActive, imageOk]

theorem kindlingView_startRegs (op : K0Op) (n : Nv) (img : FwImage) (cand : Bool) (d : Dev) :
    kindlingView (startRegs op n img cand d) =
      (.k1, cand, img.svn, [op.us], op.calib, { d.sec with idOk := op.identity && op.record }, d.mem) := by
  unfold startRegs
  extract_lets d1 d2 d3
  have h : kindlingView d2 = kindlingView (setPow d1 (fun p => { p with calib := op.calib })) := kindlingView_setFloor _ _
  simp only [kindlingView_setReg]
  refine (kindlingView_takeDefects n op.record _).trans ?_
  clear_value d2
  simp only [kindlingView, Prod.mk.injEq, setPow, d1] at h ⊢
  obtain ⟨h1, h2, h3, hk, hc, hsec, hmem⟩ := h
  rw [show d3 = d.sec from hsec]
  exact ⟨h1, h2, h3, hk, hc, rfl, hmem⟩

theorem isManager_startRegs (op : K0Op) (n : Nv) (img : FwImage) (cand : Bool) (d : Dev) :
    isManager (startRegs op n img cand d) = isManager d := by
  unfold startRegs
  extract_lets d1 d2 d3
  have hp : regsKept [0x9001, 0x0100, 0x0101, 0x900A, 0x1101, 0x0004, 0x8004] d (setPow d1 (fun p => { p with calib := op.calib })) :=
    regsKept_of_regs rfl
  have hf := hp.trans ((setFloor_regsKept (setPow d1 (fun p => { p with calib := op.calib })) (reg d1 0x9001 0x00)).mono (by decide))
  have hi : regsKept [0x9001, 0x0100, 0x0101, 0x900A, 0x1101, 0x0004, 0x8004] d2
    { d2 with sec := { d3 with idOk := op.identity && op.record } } := regsKept_of_regs rfl
  have ht := hi.trans ((takeDefects_regsKept n op.record _).mono (by decide))
  have hs := (((hf.trans ht).setReg (i := 0x0004) (j := 0x00) img.version (by decide) (by decide)).setReg (i := 0x8004) (j := 0x01) img.svn
    (by decide) (by decide)).setReg (i := 0x8004) (j := 0x00) n.counter0 (by decide) (by decide)
  exact hs.isManager (by decide)

theorem reg_startRegs (op : K0Op) (n : Nv) (img : FwImage) (cand : Bool) (d : Dev) :
    reg (startRegs op n img cand d) 0x0004 0x00 = img.version ∧ reg (startRegs op n img cand d) 0x8004 0x01 = img.svn := by
  unfold startRegs
  extract_lets d1 d2 d3
  constructor
  · rw [reg_setReg_ne _ _ _ _ _ _ (by decide), reg_setReg_ne _ _ _ _ _ _ (by decide), reg_setReg_self]
  · rw [reg_setReg_ne _ _ _ _ _ _ (by decide), reg_setReg_self]

/-- What an image that starts finds: the stage, its versions and the identity, and the memories untouched. -/
theorem startImage_spec (op : K0Op) (n : Nv) (img : FwImage) (cand : Bool) (d : Dev) (hm : isManager d = false) :
    kindlingView (startImage op n img cand d) =
      (.k1, cand, img.svn, [op.us], op.calib, { d.sec with idOk := op.identity && op.record }, d.mem) ∧
    reg (startImage op n img cand d) 0x0004 0x00 = img.version ∧ reg (startImage op n img cand d) 0x8004 0x01 = img.svn := by
  have hdie := setDomains_regsKept (startRegs op n img cand d) 2 dieDomains mem_dieDomains_lt
  have hm' := (hdie.isManager (by decide)).trans ((isManager_startRegs op n img cand d).trans hm)
  obtain ⟨hv, hk⟩ := wakePorts_spec _ hm'
  have hk := (hdie.mono (by decide)).trans hk
  obtain ⟨h4, h8⟩ := reg_startRegs op n img cand d
  exact ⟨hv.trans ((kindlingView_setDomains _ _ _).trans (kindlingView_startRegs op n img cand d)),
    (hk _ _ (by decide) (by decide)).trans h4, (hk _ _ (by decide) (by decide)).trans h8⟩

/-- K0 ends with an image: the device reads that image's versions and stands in K1. -/
def runsImage (op : K0Op) (s : State) (n : Nv) (i : FwImage) (cand : Bool) : Prop :=
  ∃ t, exec (.k0Complete op) s = .next t ∧ t.nv = n ∧ t.dev.pow.stage = .k1 ∧ t.dev.pow.candidate = cand ∧ t.dev.pow.svn = i.svn ∧
    t.dev.pow.kindle = [op.us] ∧ t.dev.sec.idOk = (op.identity && op.record) ∧ t.dev.pow.calib = op.calib ∧
    reg t.dev 0x0004 0x00 = i.version ∧ reg t.dev 0x8004 0x01 = i.svn ∧ t.dev.mem = s.dev.mem

theorem exec_k0Complete (op : K0Op) (s : State) :
    exec (.k0Complete op) s = .next { s with nv := (k0Done op s.nv s.dev).1, dev := (k0Done op s.nv s.dev).2 } := rfl

section
variable {op : K0Op} {s : State} (hstage : s.dev.pow.stage = .k0) (hclk : s.dev.pow.sysclk = true)
include hstage hclk

theorem k0Complete_not_checks (h : ¬k0Checks op s.nv) : exec (.k0Complete op) s = .next { s with dev := recoverDev op s.dev } := by
  rw [exec_k0Complete, k0Done_of_not_checks hstage hclk h]

theorem k0Complete_no_image (h : k0Checks op s.nv) (hp : pickImage s.nv = (s.nv, none)) :
    exec (.k0Complete op) s = .next { s with dev := recoverDev op s.dev } := by
  rw [exec_k0Complete, k0Done_of_no_image hstage hclk h hp]

theorem k0Complete_image (h : k0Checks op s.nv) {n : Nv} {i : FwImage} {cand : Bool} (hp : pickImage s.nv = (n, some (i, cand)))
    (hm : isManager s.dev = false) : runsImage op s n i cand := by
  obtain ⟨hv, h4, h8⟩ := startImage_spec op n i cand s.dev hm
  simp only [kindlingView, Prod.mk.injEq] at hv
  obtain ⟨h1, h2, h3, hk, hc, hsec, hmem⟩ := hv
  refine ⟨_, exec_k0Complete op s, ?_⟩
  rw [k0Done_of_image hstage hclk h hp]
  dsimp only
  exact ⟨rfl, h1, h2, h3, hk, by rw [show _ = _ from hsec], hc, h4, h8, hmem⟩
end

theorem pickActive_ok {n : Nv} (hv : n.active.verifies = true) (hs : n.counter0 ≤ n.active.svn) : pickActive n = some (n.active, false) :=
  if_pos ((imageOk_iff _ _).2 ⟨hv, hs⟩)
theorem pickActive_bad {n : Nv} (h : n.active.verifies = false ∨ n.active.svn < n.counter0) : pickActive n = none :=
  if_neg (by rw [(imageOk_eq_false_iff _ _).2 h]; decide)

/-! ## Recovery (R349) -/

theorem setDomains_stage (d : Dev) (st : Nat) (l : List Nat) : (setDomains d st l).pow.stage = d.pow.stage :=
  congrArg Prod.fst (kindlingView_setDomains d st l)
theorem setFloor_stage (d : Dev) (limit : Nat) : (setFloor d limit).pow.stage = d.pow.stage :=
  congrArg Prod.fst (kindlingView_setFloor d limit)

theorem startDev_stage (d : Dev) : (startDev d false).pow.stage = .k0 := by
  unfold startDev
  rw [if_neg Bool.false_ne_true]
  exact (setDomains_stage _ _ _).trans (setFloor_stage _ _)

/-- R349's recovery loader by what it does with the image: taken, or the state as it was. -/
theorem recoveryImage_eq (op : ImageOp) (s : State) : exec (.recoveryImage op) s = onBoth s fun n d =>
    if d.pow.stage = .recovery ∧ op.image.verifies = true ∧ n.counter0 ≤ op.image.svn then
      ({ n with candidate := some op.image, candidateFails := 0 }, startDev d false)
    else (n, d) := rfl

theorem onBoth_of_eq {s : State} {f : Nv → Dev → Nv × Dev} {n : Nv} {d : Dev} (h : f s.nv s.dev = (n, d)) :
    onBoth s f = .next { s with nv := n, dev := d } := (onBoth_next s _ f).2 (by rw [h])

theorem recoveryImage_taken (op : ImageOp) (s : State) (hs : s.dev.pow.stage = .recovery) (hv : op.image.verifies = true)
    (hsvn : s.nv.counter0 ≤ op.image.svn) : ∃ t, exec (.recoveryImage op) s = .next t ∧
      t.nv = { s.nv with candidate := some op.image, candidateFails := 0 } ∧ t.dev.pow.stage = .k0 :=
  ⟨_, (recoveryImage_eq op s).trans (onBoth_of_eq (if_pos ⟨hs, hv, hsvn⟩)), rfl, startDev_stage s.dev⟩

theorem recoveryImage_refused (op : ImageOp) (s : State) (h : op.image.verifies = false ∨ op.image.svn < s.nv.counter0) :
    exec (.recoveryImage op) s = .next s := by
  refine (recoveryImage_eq op s).trans (onBoth_of_eq (if_neg ?_))
  rintro ⟨-, hv, hsvn⟩
  rcases h with h | h
  · rw [h] at hv; exact absurd hv (by decide)
  · exact absurd hsvn (Nat.not_le.2 h)

/-! ## K2 (R443) -/

theorem hearthWave_next (op : StageOp) (s : State) (w : Nat) (hs : s.dev.pow.stage = .k2 w) (hw : w < 7) :
    exec (.hearthWave op) s = .next { s with dev := { s.dev with
      pow := { s.dev.pow with up := s.dev.pow.up ++ (waveHearths w).filter (fun q => !s.dev.pow.bad.contains q), stage := .k2 (w + 1) } } } := by
  show Host.Outcome.next { s with dev := waveDone op s.dev } = _
  unfold waveDone setPow
  simp only [hs, hw, if_true]

theorem hearthWave_last (op : StageOp) (s : State) (w : Nat) (hs : s.dev.pow.stage = .k2 w) (hw : 7 ≤ w) :
    exec (.hearthWave op) s = .next { s with dev := { s.dev with
      pow := { s.dev.pow with up := s.dev.pow.up ++ (waveHearths w).filter (fun q => !s.dev.pow.bad.contains q), stage := .proof
                              kindle := s.dev.pow.kindle ++ [op.us] } } } := by
  show Host.Outcome.next { s with dev := waveDone op s.dev } = _
  unfold waveDone setPow
  simp only [hs, Nat.not_lt.2 hw, if_false]

end Sys2Proof.Machine
end

section
/-!
SUPPORT. Memory training and the proof stroke (R121, R122, R441 to R444, R447).
-/
namespace Sys2Proof.Machine
open Sys2Proof

/-! ## Memory channels (R121) -/

theorem channelState_setChannel (d : Dev) (st c k : Nat) : channelState (setChannel d st c) k = if k = c then st else channelState d k := by
  have h : entry 0x1101 (k + 1) = entry 0x1101 (c + 1) ↔ k = c := by unfold entry; omega
  simp only [channelState, setChannel, reg_setReg, h]

theorem channelState_setMem (d : Dev) (m : MemS) (k : Nat) : channelState { d with mem := m } k = channelState d k := rfl

theorem channelState_publishUsable (d : Dev) (k : Nat) (hk : k < 32) : channelState (publishUsable d) k = channelState d k :=
  reg_setReg_ne _ _ _ _ _ _ (entry_ne_of_index (by decide) (by omega) (by decide))

theorem regsKept.channelState {l : List Nat} {d e : Dev} (h : regsKept l d e) (hl : 0x1101 ∉ l) {k : Nat} (hk : k < 32) :
    channelState e k = channelState d k := h 0x1101 (k + 1) (by omega) hl

/-- The die group of a channel that fails: its channels that are present and have not failed read DISABLED. -/
def disableGroup (d : Dev) (g : Nat) : Dev :=
  forEach (groupChannels g) d (fun d k => if channelState d k = 2 ∨ channelState d k = 0 then d else setChannel d 4 k)

theorem disableGroup_pow_mem (d : Dev) (g : Nat) : (disableGroup d g).pow = d.pow ∧ (disableGroup d g).mem = d.mem :=
  forEach_keeps (fun e : Dev => e.pow = d.pow ∧ e.mem = d.mem) _ d _ ⟨rfl, rfl⟩ (fun e k _ he => by split <;> exact he)

theorem channelState_disableGroup (d : Dev) (g k : Nat) (h : channelState d k = 2) : channelState (disableGroup d g) k = 2 := by
  refine forEach_keeps (fun e => channelState e k = 2) _ d _ h (fun e j _ he => ?_)
  split
  · exact he
  · rename_i hj
    rw [channelState_setChannel, if_neg]
    · exact he
    · rintro rfl; exact hj (.inl he)

theorem failChannel_eq (d : Dev) (c : Nat) : failChannel d c =
    (let e := setChannel (disableGroup d (c / 4)) 2 c
     publishUsable { e with mem := { e.mem with
       usable := e.mem.usable.set 0 (c / 4) 0, exports := e.mem.exports.filter (fun x => x.1 / 524288 != c / 4) } }) := by
  simp only [failChannel, disableGroup]

@[simp] theorem publishUsable_pow (d : Dev) : (publishUsable d).pow = d.pow := by
  rw [publishUsable, setReg_pow]
@[simp] theorem publishUsable_mem (d : Dev) : (publishUsable d).mem = d.mem := by
  rw [publishUsable, setReg_mem]

theorem failChannel_pow (d : Dev) (c : Nat) : (failChannel d c).pow = d.pow := by
  simp only [failChannel_eq, publishUsable_pow, setChannel_pow, disableGroup_pow_mem]

theorem failChannel_usable (d : Dev) (c : Nat) : (failChannel d c).mem.usable = d.mem.usable.set 0 (c / 4) 0 := by
  simp only [failChannel_eq, publishUsable_mem, setChannel_mem, disableGroup_pow_mem]

/-- The channel that fails reads FAILED, and so does every one that failed before. -/
theorem channelState_failChannel (d : Dev) (c k : Nat) (hk : k < 32) (h : k = c ∨ channelState d k = 2) :
    channelState (failChannel d c) k = 2 := by
  rw [failChannel_eq, channelState_publishUsable _ k hk, channelState_setMem, channelState_setChannel]
  split
  · rfl
  · exact channelState_disableGroup d _ k (h.resolve_left ‹_›)

theorem failChannel_usable_zero (d : Dev) (c g : Nat) (h : g = c / 4 ∨ d.mem.usable.get 0 g = 0) : (failChannel d c).mem.usable.get 0 g = 0 := by
  rw [failChannel_usable, Table.get_set]
  split
  · rfl
  · exact h.resolve_left ‹_›

/-- Channels that fail read FAILED, their die groups disabled, and nothing of the power state changes. -/
theorem forEach_failChannel (l : List Nat) (d : Dev) (hl : ∀ c ∈ l, c < 32) :
    (∀ c ∈ l, channelState (forEach l d failChannel) c = 2 ∧ (forEach l d failChannel).mem.usable.get 0 (c / 4) = 0) ∧
      (forEach l d failChannel).pow = d.pow :=
  ⟨forEach_brings (fun c e => channelState e c = 2 ∧ e.mem.usable.get 0 (c / 4) = 0) l d failChannel
      (fun e c hc => ⟨channelState_failChannel e c c (hl c hc) (.inl rfl), failChannel_usable_zero e c _ (.inl rfl)⟩)
      (fun e c hc k _ ⟨h2, h0⟩ => ⟨channelState_failChannel e k c (hl c hc) (.inr h2), failChannel_usable_zero e k _ (.inr h0)⟩),
    forEach_same Dev.pow l d failChannel (fun e c _ => failChannel_pow e c)⟩

theorem memoryTrainingDeadline_spec (op : ChannelsOp) (s : State) (hs : s.dev.pow.stage = .k1) (hc : op.channels.all (· < 32) = true) :
    exec (.memoryTrainingDeadline op) s = .next { s with dev := forEach op.channels s.dev failChannel } := by
  refine (onDevIf_true _ s _ hc).trans ?_
  rw [if_pos hs]

/-! ## K1 (R121, R122, R441) -/

/-- A channel holds a module that fits and has trained, and did not fail before. -/
def channelOk (n : Nv) (d : Dev) (l : List ChannelTrain) (k : Nat) : Bool :=
  channelState d k != 2 && (l.filter (fun c => c.channel < 32 && fits c)).any (fun c => c.channel == k && channelTrained n d c)

theorem channelOk_iff (n : Nv) (d : Dev) (l : List ChannelTrain) (k : Nat) (hk : k < 32) : channelOk n d l k = true ↔
    channelState d k ≠ 2 ∧ ∃ x ∈ l, x.channel = k ∧ fits x = true ∧ channelTrained n d x = true := by
  simp only [channelOk, Bool.and_eq_true, bne_iff_ne, List.any_filter, List.any_eq_true, decide_eq_true_eq, beq_iff_eq]
  refine and_congr_right fun _ => exists_congr fun x => and_congr_right fun _ => ?_
  constructor
  · rintro ⟨⟨-, hf⟩, hx, ht⟩; exact ⟨hx, hf, ht⟩
  · rintro ⟨hx, hf, ht⟩; exact ⟨⟨hx ▸ hk, hf⟩, hx, ht⟩

/-- Die groups that training disables. -/
def groupsOff (n : Nv) (d : Dev) (l : List ChannelTrain) : List Nat :=
  (List.range 8).filter (fun g => !(groupChannels g).all (channelOk n d l))

theorem mem_groupsOff (n : Nv) (d : Dev) (l : List ChannelTrain) (g : Nat) (hg : g < 8) :
    g ∈ groupsOff n d l ↔ ∃ k < 4, channelOk n d l (4 * g + k) = false := by
  simp [groupsOff, groupChannels, hg]

/-- CHANNEL_STATE after training. -/
def trainedState (n : Nv) (d : Dev) (l : List ChannelTrain) (k : Nat) : Nat :=
  if channelOk n d l k then (if (groupsOff n d l).contains (k / 4) then 4 else 1)
  else if channelState d k = 2 ∨ l.any (fun c => c.channel == k) then 2 else 0

/-- Memory after training, its channels' states not yet published. -/
def trainedMemory (n : Nv) (d : Dev) (l : List ChannelTrain) : Dev :=
  let good := l.filter (fun c => c.channel < 32 && fits c)
  let d' := { d with mem := { d.mem with
    dimm := l.foldl (fun (t : Table Nat) c => t.set 0 c.channel c.gib) []
    recal := []
    usable := ((List.range 8).filter (fun g => !(groupsOff n d l).contains g)).foldl
      (fun (t : Table Nat) g => t.set 0 g (groupFrames ((good.map (·.gib)).foldl min 256))) [] } }
  setReg d' 0x1100 0x00 ((good.map (·.rate)).foldl min 12800)

theorem trainMemory_eq (n : Nv) (d : Dev) (l : List ChannelTrain) : trainMemory n d l =
    publishUsable (forEach (List.range 32) (trainedMemory n d l) (fun x k => setChannel x (trainedState n d l k) k)) := rfl

theorem trainMemory_pow_mem (n : Nv) (d : Dev) (l : List ChannelTrain) :
    (trainMemory n d l).pow = d.pow ∧ (trainMemory n d l).mem = (trainedMemory n d l).mem := by
  rw [trainMemory_eq, publishUsable_pow, publishUsable_mem]
  exact forEach_keeps (fun e : Dev => e.pow = d.pow ∧ e.mem = (trainedMemory n d l).mem) _ _ _ ⟨rfl, rfl⟩ (fun _ _ _ he => he)

theorem trainMemory_usable (n : Nv) (d : Dev) (l : List ChannelTrain) (g : Nat) (hg : g ∈ groupsOff n d l) :
    (trainMemory n d l).mem.usable.get 0 g = 0 := by
  rw [(trainMemory_pow_mem n d l).2]
  refine get_foldl_set_of_notMem 0 _ (fun g : Nat => g) (fun _ => groupFrames _) [] g ?_
  rintro y hy rfl
  exact absurd hg (by simpa using (List.mem_filter.1 hy).2)

theorem channelState_trainMemory (n : Nv) (d : Dev) (l : List ChannelTrain) (k : Nat) (hk : k < 32) :
    channelState (trainMemory n d l) k = trainedState n d l k := by
  rw [trainMemory_eq, channelState_publishUsable _ k hk]
  refine forEach_at (fun _ => True) (fun e => channelState e k = trainedState n d l k) (List.range 32) _ _ k (List.mem_range.2 hk)
    List.nodup_range trivial (fun _ _ _ _ _ => trivial) ?_ ?_
  · intro e _; rw [channelState_setChannel, if_pos rfl]
  · intro e j _ hj he; rw [channelState_setChannel, if_neg (Ne.symm hj)]; exact he

/-- UCIe modules without a lane are counted, and the operator hears of each. -/
def reduceLinks (d : Dev) (l : List Nat) : Dev :=
  forEach l { d with lig := { d.lig with modules := l.foldl (fun (t : Table Nat) k => t.set 0 k (min 4 (t.get 0 k + 1))) d.lig.modules } }
    (fun d k => emit d (.linkReduced k))

theorem reduceLinks_same (d : Dev) (l : List Nat) :
    (reduceLinks d l).pow = d.pow ∧ (reduceLinks d l).mem = d.mem ∧ (reduceLinks d l).regs = d.regs :=
  forEach_keeps (fun e : Dev => e.pow = d.pow ∧ e.mem = d.mem ∧ e.regs = d.regs) l _ _ ⟨rfl, rfl, rfl⟩ (fun _ _ _ he => he)

/-- Memory is ready: links, the cluster domains, and the first wave of K2 to come. -/
def enterK2 (op : K1Op) (d : Dev) : Dev :=
  setDomains (setPow (reduceLinks d op.links) (fun p => { p with stage := .k2 0, kindle := p.kindle ++ [op.us] })) 2 allClusterDomains

theorem enterK2_spec (op : K1Op) (d : Dev) : (enterK2 op d).pow.stage = .k2 0 ∧ (enterK2 op d).pow.kindle = d.pow.kindle ++ [op.us] ∧
    (enterK2 op d).mem = d.mem ∧ regsKept [0x9002] d (enterK2 op d) := by
  obtain ⟨hp, hm, hr⟩ := reduceLinks_same d op.links
  have hv := kindlingView_setDomains (setPow (reduceLinks d op.links) (fun p => { p with
    stage := .k2 0, kindle := p.kindle ++ [op.us] })) 2 allClusterDomains
  simp only [kindlingView, Prod.mk.injEq] at hv
  obtain ⟨hst, -, -, hk, -, -, hmem⟩ := hv
  refine ⟨hst, hk.trans (congrArg (fun p : PowS => p.kindle ++ [op.us]) hp), hmem.trans hm, ?_⟩
  have h := regsKept_of_regs (l := [0x9002]) (d := d)
    (e := setPow (reduceLinks d op.links) (fun p => { p with stage := .k2 0, kindle := p.kindle ++ [op.us] })) (by rw [setPow_regs, hr])
  exact h.trans (setDomains_regsKept _ 2 _ mem_allClusterDomains_lt)

/-- K1 of a cold start trains memory; of what outlives a start, it changes the saved channel values alone. -/
theorem k1Done_cold (op : K1Op) (n : Nv) (d : Dev) (hs : d.pow.stage = .k1) (hw : d.pow.warm = false) :
    (k1Done op n d).2 = enterK2 op (trainMemory n d op.channels) ∧
    (k1Done op n d).1 = { n with savedChannels := (k1Done op n d).1.savedChannels } := by
  unfold k1Done enterK2 reduceLinks
  rw [if_neg (not_not_intro hs), hw, if_neg Bool.false_ne_true]
  exact ⟨rfl, rfl⟩

theorem k1Complete_spec (op : K1Op) (s : State) (hs : s.dev.pow.stage = .k1) (hw : s.dev.pow.warm = false) :
    ∃ t, exec (.k1Complete op) s = .next t ∧ t.dev.pow.stage = .k2 0 ∧ t.dev.pow.kindle = s.dev.pow.kindle ++ [op.us] ∧
      t.dev.mem = (trainMemory s.nv s.dev op.channels).mem ∧
      (∀ c < 32, channelState t.dev c = trainedState s.nv s.dev op.channels c) ∧
      t.nv = { s.nv with savedChannels := t.nv.savedChannels } := by
  obtain ⟨hd, hn⟩ := k1Done_cold op s.nv s.dev hs hw
  obtain ⟨hst, hk, hmem, hreg⟩ := enterK2_spec op (trainMemory s.nv s.dev op.channels)
  rw [(trainMemory_pow_mem _ _ _).1] at hk
  rw [← hd] at hst hk hmem hreg
  refine ⟨{ s with nv := (k1Done op s.nv s.dev).1, dev := (k1Done op s.nv s.dev).2 }, rfl, hst, hk, hmem, fun c hc => ?_, hn⟩
  exact (hreg.channelState (by decide) hc).trans (channelState_trainMemory s.nv s.dev op.channels c hc)

/-- CHANNEL_STATE of a channel that did not train: FAILED where it holds a module or had failed, ABSENT where it has none. -/
theorem trainedState_of_not_ok (n : Nv) (d : Dev) (l : List ChannelTrain) (c : Nat) (h : channelOk n d l c = false) :
    ((channelState d c = 2 ∨ ∃ x ∈ l, x.channel = c) → trainedState n d l c = 2) ∧
    (channelState d c ≠ 2 → (∀ x ∈ l, x.channel ≠ c) → trainedState n d l c = 0) := by
  have hstate : trainedState n d l c = if channelState d c = 2 ∨ l.any (fun x => x.channel == c) then 2 else 0 := by
    unfold trainedState; rw [h, if_neg Bool.false_ne_true]
  have hany : l.any (fun x => x.channel == c) = true ↔ ∃ x ∈ l, x.channel = c := by simp
  rw [hstate]
  refine ⟨fun hf => if_pos (hf.imp_right hany.2), fun hs hx => if_neg ?_⟩
  rintro (h2 | hp)
  · exact hs h2
  · obtain ⟨x, hm, he⟩ := hany.1 hp
    exact hx x hm he

/-- A die group whose four channels trained is ACTIVE. -/
theorem trainedState_of_group_ok (n : Nv) (d : Dev) (l : List ChannelTrain) (g : Nat) (hg : g < 8)
    (h : ∀ k < 4, channelOk n d l (4 * g + k) = true) (k : Nat) (hk : k < 4) : trainedState n d l (4 * g + k) = 1 := by
  have hoff : (groupsOff n d l).contains ((4 * g + k) / 4) = false := by
    rw [show (4 * g + k) / 4 = g by omega, List.contains_eq_mem, decide_eq_false_iff_not, mem_groupsOff n d l g hg]
    rintro ⟨j, hj, hf⟩
    exact absurd hf (by rw [h j hj]; decide)
  unfold trainedState
  rw [if_pos (h k hk), hoff, if_neg Bool.false_ne_true]

/-! ## The proof stroke (R443, R444, R447) -/

theorem ashMain_pow_mem (d : Dev) (e : BitVec 512) : (ashMain d e).pow = d.pow ∧ (ashMain d e).mem = d.mem := by
  unfold ashMain; split <;> exact ⟨rfl, rfl⟩

theorem ashFault_pow_mem (d : Dev) (src code unit addr status : Nat) :
    (ashFault d src code unit addr status).pow = d.pow ∧ (ashFault d src code unit addr status).mem = d.mem := by
  unfold ashFault
  dsimp only
  split <;> exact ashMain_pow_mem d _

theorem ashLimited_pow_mem (d : Dev) (e : BitVec 512) : (ashLimited d e).pow = d.pow ∧ (ashLimited d e).mem = d.mem := by
  unfold ashLimited
  split
  · exact ashMain_pow_mem _ e
  · exact ⟨rfl, rfl⟩

/-- FATAL stops the device and leaves its memories alone. -/
theorem fatal_pow_mem (d : Dev) (code : Nat) : (fatal d code).pow = { d.pow with fatal := true } ∧ (fatal d code).mem = d.mem := by
  unfold fatal
  extract_lets e _ _ f _ s r g h k
  have hf : f.pow = { d.pow with fatal := true } ∧ f.mem = d.mem := by
    obtain ⟨hp, hm⟩ := ashFault_pow_mem (bump d 0x7004 0x00 1) 0 code 0 0 0
    exact ⟨congrArg (fun p : PowS => { p with fatal := true }) hp, hm⟩
  clear_value f
  split
  · exact hf
  · have hg : g.pow = { d.pow with fatal := true } ∧ g.mem = d.mem := hf
    clear_value g
    have hh : h.pow = { d.pow with fatal := true } ∧ h.mem = d.mem := by
      simp only [h]
      split
      · rw [(ashLimited_pow_mem g _).1, (ashLimited_pow_mem g _).2]; exact hg
      · exact hg
    clear_value h
    have hk : k.pow = { d.pow with fatal := true } ∧ k.mem = d.mem := by
      simp only [k]
      split
      · split
        · exact hh
        · rw [ringPush_pow, ringPush_mem]; exact hh
      · exact hh
    exact hk

theorem mem_bankHearths (l : List (BitVec 64)) (h : Nat) :
    h ∈ bankHearths l ↔ h < 288 ∧ 2 ≤ (l.filter (fun e => defKind e == 1 && defHearth e == h)).length := by
  simp [bankHearths]

theorem mem_bankClusters (l : List (BitVec 64)) (c : Nat) :
    c ∈ bankClusters l ↔ c < 32 ∧ 3 ≤ (l.filter (fun e => defKind e == 2 && defCluster e == c)).length := by
  simp [bankClusters]

theorem proofOpOk_channels {op : ProofStrokeOp} (h : proofOpOk op = true) : ∀ c ∈ op.channels, c < 32 := by
  simp only [proofOpOk, Bool.and_eq_true, List.all_eq_true, decide_eq_true_eq] at h
  exact h.2

theorem exec_proofStrokeComplete (op : ProofStrokeOp) (s : State) (h : proofOpOk op = true) : exec (.proofStrokeComplete op) s =
    .next { s with nv := (proofDone op s.nv s.dev).1, dev := (proofDone op s.nv s.dev).2 } :=
  if_pos h

/-- A failed security engine kills the device (R443). -/
theorem proofDone_dead (op : ProofStrokeOp) (n : Nv) (d : Dev) (hsec : op.security = false) (h : d.pow.stage = .proof ∨ running d = true) :
    proofDone op n d = (n, setPow (fatal d 1) (fun p => { p with stage := .dead })) := by
  unfold proofDone
  rw [hsec, if_pos (by decide), if_pos h]

/-- The stroke at kindling takes failed units out, failed banks among them, before K3. -/
def strokeDev (op : ProofStrokeOp) (d : Dev) : Dev :=
  let banks := withBanks d.pow.banks op.banks
  setPow d (fun p => { p with
    bad := p.bad ++ (op.hearths ++ bankHearths banks).eraseDups.filter (fun q => !p.bad.contains q), banks := banks
    lostParts := op.scribes, stage := .k3, kindle := p.kindle ++ [op.us] })

theorem proofDone_k3 (op : ProofStrokeOp) (n : Nv) (d : Dev) (hsec : op.security = true) (h : d.pow.stage = .proof) :
    proofDone op n d = (n, forEach op.channels
      (forEach (op.clusters ++ bankClusters (withBanks d.pow.banks op.banks)) (strokeDev op d) degrade) failChannel) := by
  unfold proofDone strokeDev
  rw [hsec, if_neg (by decide), if_pos h]

/-- Banks that take no further Hearth and no further cluster with them are listed alone (R444). -/
theorem loseBanks_spared (n : Nv) (d : Dev) (l : List Bank) (hh : bankHearths (withBanks d.pow.banks l) = bankHearths d.pow.banks)
    (hc : ∀ c ∈ bankClusters (withBanks d.pow.banks l), isDegraded d c = true) :
    loseBanks n d l = (addDefects n (l.map bankEntry), setPow d (fun p => { p with banks := withBanks p.banks l })) := by
  have h1 : (bankHearths (withBanks d.pow.banks l)).filter (fun q => !(bankHearths d.pow.banks).contains q) = [] := by
    rw [hh, List.filter_eq_nil_iff]; intro q hq; simp [hq]
  have h2 : (bankClusters (withBanks d.pow.banks l)).filter (fun c => !isDegraded d c) = [] := by
    rw [List.filter_eq_nil_iff]; intro c hm; rw [hc c hm]; decide
  have h3 : isDegraded (setPow d (fun p => { p with banks := withBanks d.pow.banks l })) = isDegraded d := rfl
  unfold loseBanks
  simp only [h1, List.foldl_nil, h3, h2]
  rfl

/-- A stroke of a running device that finds failed banks and channels alone. -/
theorem proofDone_running (op : ProofStrokeOp) (n : Nv) (d : Dev) (hsec : op.security = true) (hr : running d = true)
    (hhs : op.hearths = []) (hcs : op.clusters = []) (hss : op.scribes = [])
    (hh : bankHearths (withBanks d.pow.banks op.banks) = bankHearths d.pow.banks)
    (hc : ∀ c ∈ bankClusters (withBanks d.pow.banks op.banks), isDegraded d c = true) :
    proofDone op n d = (addDefects (addDefects n (op.banks.map bankEntry)) (op.channels.map channelDefect),
      forEach op.channels (setPow d (fun p => { p with banks := withBanks p.banks op.banks })) failChannel) := by
  have hstage : d.pow.stage ≠ .proof := by
    intro h; simp [running, h] at hr
  unfold proofDone
  rw [hsec, if_neg (by decide), if_neg hstage, if_pos hr, loseBanks_spared n d op.banks hh hc, hhs, hcs, hss]
  rfl

end Sys2Proof.Machine
end

section
/-!
SUPPORT. READY and the load of a copybook (R3, R348, R429, R440, R447).
-/
namespace Sys2Proof.Machine
open Sys2Proof

/-! ## The map of the logical Hearths (R447) -/

/-- One cluster's part of the map. -/
def mapCluster (d : Dev) (c : Nat) : Dev :=
  if isDegraded d c then d
  else if (passing d c).length < 8 then degrade d c
  else setPow d (fun p => { p with map :=
    ((passing d c).take 8).zipIdx.foldl (fun (t : Table (Option Nat)) x => t.set none (8 * c + x.2) (some x.1)) p.map })

theorem mapHearths_eq (d : Dev) : mapHearths d = forEach (List.range 32) d mapCluster := rfl

theorem mapCluster_same (d : Dev) (c : Nat) : (mapCluster d c).frame = d.frame ∧ (mapCluster d c).ash = d.ash ∧ (mapCluster d c).gen = d.gen ∧
    ∃ t m, (mapCluster d c).pow = { d.pow with degraded := t, map := m } := by
  unfold mapCluster
  split
  · exact ⟨rfl, rfl, rfl, _, _, rfl⟩
  · split
    · unfold degrade
      split <;> exact ⟨rfl, rfl, rfl, _, _, rfl⟩
    · exact ⟨rfl, rfl, rfl, _, _, rfl⟩

theorem mapHearths_same (d : Dev) : (mapHearths d).frame = d.frame ∧ (mapHearths d).ash = d.ash ∧ (mapHearths d).gen = d.gen ∧
    ∃ t m, (mapHearths d).pow = { d.pow with degraded := t, map := m } := by
  rw [mapHearths_eq]
  refine forEach_keeps
    (fun e : Dev => e.frame = d.frame ∧ e.ash = d.ash ∧ e.gen = d.gen ∧ ∃ t m, e.pow = { d.pow with degraded := t, map := m })
    _ d _ ⟨rfl, rfl, rfl, _, _, rfl⟩ ?_
  rintro e c - ⟨hf, ha, hg, t, m, hp⟩
  obtain ⟨hf', ha', hg', t', m', hp'⟩ := mapCluster_same e c
  exact ⟨hf'.trans hf, ha'.trans ha, hg'.trans hg, t', m', by rw [hp', hp]⟩

theorem passing_mapCluster (d : Dev) (c k : Nat) : passing (mapCluster d c) k = passing d k := by
  obtain ⟨-, -, -, t, m, hp⟩ := mapCluster_same d c
  unfold passing; rw [hp]

theorem isDegraded_mapCluster_ne (d : Dev) (c k : Nat) (h : k ≠ c) : isDegraded (mapCluster d c) k = isDegraded d k := by
  unfold mapCluster
  split
  · rfl
  · split
    · rw [Bool.eq_iff_iff, isDegraded_degrade, or_iff_right h]
    · rfl

/-- Another cluster's part of the map leaves a cluster's Hearths where they are. -/
theorem physical_mapCluster_ne (d : Dev) (c k h : Nat) (hk : k ≠ c) (hh : h < 8) :
    physical (mapCluster d c) (8 * k + h) = physical d (8 * k + h) := by
  unfold mapCluster
  split
  · rfl
  · split
    · unfold degrade; split <;> rfl
    · refine get_foldl_set_of_notMem none _ (fun x : Nat × Nat => 8 * c + x.2) (fun x => some x.1) d.pow.map (8 * k + h) (fun x hx => ?_)
      have := List.snd_lt_of_mem_zipIdx hx
      simp only [List.length_take] at this
      omega

/-- A cluster of eight passing Hearths or more maps them in ascending order. -/
theorem physical_mapCluster (d : Dev) (c h : Nat) (hd : isDegraded d c = false) (hl : 8 ≤ (passing d c).length) (hh : h < 8) :
    physical (mapCluster d c) (8 * c + h) = (passing d c)[h]? := by
  unfold mapCluster
  rw [if_neg (by rw [hd]; decide), if_neg (by omega)]
  have := get_foldl_set_zipIdx ((passing d c).take 8) (8 * c) 0 h d.pow.map (by simp; omega)
  rw [Nat.zero_add, List.getElem?_take_of_lt hh] at this
  exact this

theorem isDegraded_mapCluster_few (d : Dev) (c : Nat) (hl : (passing d c).length < 8) : isDegraded (mapCluster d c) c = true := by
  unfold mapCluster
  split
  · assumption
  · exact (isDegraded_degrade d c c).2 (.inl rfl)

/-- What READY makes of a cluster that was not DEGRADED. -/
theorem mapHearths_cluster (d : Dev) (c : Nat) (hc : c < 32) (hd : isDegraded d c = false) :
    (8 ≤ (passing d c).length → ∀ h < 8, physical (mapHearths d) (8 * c + h) = (passing d c)[h]?) ∧
    ((passing d c).length < 8 → isDegraded (mapHearths d) c = true) := by
  rw [mapHearths_eq]
  refine forEach_at (fun e => isDegraded e c = false ∧ passing e c = passing d c) (fun e =>
    (8 ≤ (passing d c).length → ∀ h < 8, physical e (8 * c + h) = (passing d c)[h]?) ∧ ((passing d c).length < 8 → isDegraded e c = true))
    (List.range 32) d mapCluster c (List.mem_range.2 hc) List.nodup_range ⟨hd, rfl⟩ ?_ ?_ ?_
  · rintro e y - hy ⟨h1, h2⟩
    exact ⟨(isDegraded_mapCluster_ne e y c hy.symm).trans h1, (passing_mapCluster e y c).trans h2⟩
  · rintro e ⟨h1, h2⟩
    rw [← h2]
    exact ⟨fun hl h hh => physical_mapCluster e c h h1 hl hh, isDegraded_mapCluster_few e c⟩
  · rintro e y - hy ⟨h1, h2⟩
    exact ⟨fun hl h hh => (physical_mapCluster_ne e y c h hy.symm hh).trans (h1 hl h hh),
      fun hl => (isDegraded_mapCluster_ne e y c hy.symm).trans (h2 hl)⟩

/-! ## READY (R440, R348, R429) -/

/-- What the steps between the map and the START entry leave alone. -/
def readyView (d : Dev) : PowS × FrameS × AshS × GenS := (d.pow, d.frame, d.ash, d.gen)

theorem readyView_emit (d : Dev) (x : Out) : readyView (emit d x) = readyView d := rfl

theorem readyView_takeRole (d : Dev) : readyView (takeRole d) = readyView d := by
  unfold takeRole; dsimp only; split <;> rfl

theorem readyView_journalResume (d : Dev) : readyView (journalResume d) = readyView d :=
  forEach_same readyView d.base d _ (fun e x _ => by dsimp only; split <;> rfl)

theorem readyView_putTable (d : Dev) (index : Nat) (t : List (Nat × Nat)) : readyView (putTable d index t) = readyView d :=
  forEach_same readyView t d _ (fun _ _ _ => rfl)

theorem readyView_publishOwn (d : Dev) : readyView (publishOwn d) = readyView d := by
  unfold publishOwn
  generalize ownTable d = t
  dsimp only
  split
  · rfl
  · split
    · exact readyView_putTable d 0x0101 t
    · rw [readyView_emit, readyView_putTable, readyView_putTable]

theorem readyView_publishSystem (d : Dev) : readyView (publishSystem d) = readyView d := by
  unfold publishSystem
  split <;> exact readyView_putTable _ _ _

theorem readyView_raise (d : Dev) (n code arg : Nat) (h : n ≠ 0) : readyView (raise d n code arg) = readyView d := by
  have := congrArg readyView (raise_only d n code arg h); exact this

theorem writeStart_spec (d : Dev) (h : d.pow.stage ≠ .gasp) : (writeStart d).pow = d.pow ∧ (writeStart d).frame = d.frame ∧
    (writeStart d).ash.next = d.ash.next + 1 ∧ (writeStart d).ash.stopCause = 0 := by
  unfold writeStart
  extract_lets e m
  have hm : m.pow = d.pow ∧ m.frame = d.frame ∧ m.ash.next = d.ash.next + 1 := by
    simp only [m]; unfold ashMain; rw [if_neg h]; exact ⟨rfl, rfl, rfl⟩
  clear_value m
  obtain ⟨hp, hf, hn⟩ := hm
  exact ⟨hp, hf, hn, rfl⟩

/-- What outlives a start after READY: a candidate that ran is the active image, and counter 0 has the image's SVN at least (R348). -/
def readyNv (n : Nv) (d : Dev) : Nv :=
  let n := match n.candidate with
    | some c => if d.pow.candidate then { n with active := c, candidate := none, candidateFails := 0 } else n
    | none => n
  { n with counter0 := max n.counter0 d.pow.svn }

theorem readyNv_counter0 (n : Nv) (d : Dev) : (readyNv n d).counter0 = max n.counter0 d.pow.svn := by
  unfold readyNv
  split
  · split <;> rfl
  · rfl

theorem readyNv_candidate (n : Nv) (d : Dev) (c : FwImage) (h : n.candidate = some c) (hc : d.pow.candidate = true) :
    (readyNv n d).active = c ∧ (readyNv n d).candidate = none := by
  unfold readyNv
  rw [h, hc]
  exact ⟨rfl, rfl⟩

/-- READY numbers frame 0, writes the START entry and leaves the map as it is. -/
theorem readyNow_spec (op : StageOp) (n : Nv) (d : Dev) (hs : d.pow.stage = .k3) (ha : d.gen.apps = []) :
    (readyNow op n d).1 = readyNv n d ∧
    (readyNow op n d).2.pow = { (mapHearths d).pow with
      stage := .ready, dev := if d.sec.idOk then .ready else .identityFailed, kindle := (mapHearths d).pow.kindle ++ [op.us] } ∧
    (readyNow op n d).2.frame = { d.frame with no := 0, off := 0, timer := true } ∧
    (readyNow op n d).2.ash.next = d.ash.next + 1 ∧ (readyNow op n d).2.ash.stopCause = 0 := by
  obtain ⟨hf, hash, hg, -⟩ := mapHearths_same d
  unfold readyNow
  rw [if_neg (not_not_intro hs)]
  generalize mapHearths d = m at *
  extract_lets n1 n2 d1 d2 fr d3 d4 d5 d6 d7 d8 d9
  have h3 : readyView d3 = ({ m.pow with
      stage := .ready, dev := if d.sec.idOk then .ready else .identityFailed, kindle := m.pow.kindle ++ [op.us] },
      { d.frame with no := 0, off := 0, timer := true }, d.ash, d.gen) := by
    rw [← hf, ← hash, ← hg]; rfl
  clear_value d3
  have h5 : readyView d5 = readyView d3 := readyView_takeRole d3
  clear_value d5
  have h6 : d6 = d5 := by
    have happs : d5.gen.apps = [] := by rw [h3] at h5; exact (congrArg (fun v => v.2.2.2.apps) h5).trans ha
    simp only [d6, happs]; rfl
  clear_value d6
  have h7 : readyView d7 = readyView d6 := by
    simp only [d7]; split
    · exact readyView_journalResume d6
    · rfl
  clear_value d7
  have h8 : readyView d8 = readyView d7 := (readyView_publishSystem _).trans (readyView_publishOwn d7)
  clear_value d8
  rw [h7, h6, h5, h3] at h8
  simp only [readyView, Prod.mk.injEq] at h8
  obtain ⟨hp8, hf8, ha8, -⟩ := h8
  obtain ⟨hp9, hf9, hn9, hc9⟩ : d9.pow = d8.pow ∧ d9.frame = d8.frame ∧ d9.ash.next = d8.ash.next + 1 ∧ d9.ash.stopCause = 0 :=
    writeStart_spec d8 (by rw [hp8]; simp)
  clear_value d9
  have he : readyView (if d9.sec.idOk then d9 else raise d9 6 0 0) = readyView d9 := by
    split
    · rfl
    · exact readyView_raise _ 6 0 0 (by decide)
  simp only [readyView, Prod.mk.injEq] at he
  obtain ⟨hep, hef, hea, -⟩ := he
  refine ⟨rfl, hep.trans (hp9.trans hp8), hef.trans (hf9.trans hf8), ?_, ?_⟩
  · dsimp only; rw [hea, hn9, ha8]
  · dsimp only; rw [hea, hc9]

/-! ## Loading a copybook (R3) -/

/-- What the load of a copybook gives an application of, beside its place in the tables. -/
def loadView (d : Dev) : List Out × Table Nat × Table (Option App) × Table (Table Word) := (d.out, d.mem.appOf, d.gen.apps, d.hearth.vregs)

theorem loadView_setReg (d : Dev) (i j v : Nat) : loadView (setReg d i j v) = loadView d := rfl
theorem loadView_setLevel1 (d : Dev) (t : Table (BitVec 64)) : loadView { d with mem := { d.mem with level1 := t } } = loadView d := rfl
theorem loadView_setNum (d : Dev) (x : NumS) : loadView { d with num := x } = loadView d := rfl
theorem loadView_setStreamRec (d : Dev) (k : Nat) (r : StreamRec) : loadView (setStreamRec d k r) = loadView d := rfl
theorem loadView_raiseEra (d : Dev) (k : Nat) : loadView (raiseEra d k) = loadView d := rfl
theorem loadView_loadWeights (d : Dev) (b : Copybook) : loadView (loadWeights d b) = loadView d := rfl
theorem loadView_pokeDva (d : Dev) (app a : Nat) (l : List Byte) : loadView (pokeDva d app a l) = loadView d := rfl
theorem loadView_cancelFill (d : Dev) (s : Nat) : loadView (cancelFill d s) = loadView d := rfl
theorem loadView_setSlot (d : Dev) (s : Nat) (e : Slot) : loadView (setSlot d s e) = loadView d := rfl

theorem loadView_drainSlot (d : Dev) (s : Nat) : loadView (drainSlot d s) = loadView d := by
  unfold drainSlot
  dsimp only
  split
  · rw [loadView_cancelFill, loadView_setSlot]
  · rfl

theorem loadView_emptySlots (d : Dev) (parts : List Nat) : loadView (emptySlots d parts) = loadView d :=
  (forEach_same loadView _ _ drainSlot (fun e s _ => loadView_drainSlot e s)).trans (forEach_same loadView _ d releaseUse (fun _ _ _ => rfl))

theorem loadView_openTable (d : Dev) (app page : Nat) : loadView (openTable d app page) = loadView d := by
  unfold openTable
  split
  · rfl
  · exact loadView_setLevel1 d _

theorem loadView_putPte (d : Dev) (app page : Nat) (e : Pte) : loadView (putPte d app page e) = loadView d := by
  have h : loadView (if e = 0 then d else openTable d app page) = loadView d := by
    split
    · rfl
    · exact loadView_openTable d app page
  unfold putPte
  generalize (if e = 0 then d else openTable d app page) = f at h
  rw [← h]
  dsimp only
  cases pteAt f app page <;> rfl

theorem loadView_writePte (d : Dev) (app page : Nat) (e : Pte) : loadView (writePte d app page e) = loadView d := by
  unfold writePte
  split
  · rfl
  · exact loadView_putPte d app page e

theorem loadView_stagePages (d : Dev) (a : Nat) (c : Copybook) : loadView (stagePages d a c) = loadView d := by
  unfold stagePages
  extract_lets d1 d2
  have h1 : loadView d1 = loadView d := forEach_same loadView c.ptes d _ (fun e x _ => loadView_writePte e a x.1 x.2)
  have h2 : loadView d2 = loadView d1 := forEach_same loadView c.ptes d1 _ (fun e x _ => by split <;> rfl)
  exact (forEach_same loadView c.streamed d2 _ (fun e x _ => loadView_pokeDva e a x.1 [x.2])).trans (h2.trans h1)

theorem loadView_retainRecord (d : Dev) (k : Nat) : loadView (retainRecord d k) = loadView d := by
  unfold retainRecord; split <;> rfl

theorem loadView_initStreams (d : Dev) (b : Copybook) : loadView (initStreams d b) = loadView d := by
  unfold initStreams
  extract_lets lim d1
  have h1 : loadView d1 = loadView d := forEach_same loadView b.parts d _ (fun _ _ _ => rfl)
  exact (forEach_same loadView b.streams d1 _ (fun e x _ => by
    dsimp only; rw [loadView_retainRecord, loadView_setNum, loadView_raiseEra, loadView_setStreamRec])).trans h1

theorem loadView_setLive (d : Dev) (a : Nat) (b : Copybook) : loadView (setLive d a b) = loadView d := loadView_setReg d _ _ _

theorem loadView_loadApp (d : Dev) (a : Nat) (b : Copybook) : loadView (loadApp d a b) = loadView d := by
  unfold loadApp
  extract_lets d1 d2 d3
  have h1 : loadView d1 = loadView d :=
    (loadView_setLive _ a b).trans ((loadView_initStreams _ b).trans (loadView_loadWeights d b))
  have h2 : loadView d2 = loadView d1 :=
    (loadView_setReg _ _ _ _).trans ((loadView_setReg _ _ _ _).trans (loadView_setReg d1 _ _ _))
  have h3 : loadView d3 = loadView d2 := forEach_same loadView b.parts d2 _ (fun e p _ => loadView_setReg e _ _ _)
  exact h3.trans (h2.trans h1)

theorem exec_copybookLoad (op : LoadOp) (s : State) :
    exec (.copybookLoad op) s = .next { s with dev := loadBook (atOff s.dev op.off) op } := rfl

/-- The view of an application's load, taken apart: what it sends, the partitions it takes, the application, the vector registers. -/
theorem loadView_eq_iff (d e : Dev) : loadView e = loadView d ↔
    e.out = d.out ∧ e.mem.appOf = d.mem.appOf ∧ e.gen.apps = d.gen.apps ∧ e.hearth.vregs = d.hearth.vregs := by
  simp only [loadView, Prod.mk.injEq]

theorem forEach_contextSwitch (d : Dev) (l : List Nat) :
    ((forEach l d contextSwitch).out = d.out ∧ (forEach l d contextSwitch).mem.appOf = d.mem.appOf ∧
      (forEach l d contextSwitch).gen.apps = d.gen.apps) ∧
    ∀ p ∈ l, ∀ x ∈ (forEach l d contextSwitch).hearth.vregs, partOfHearth (x.1 / 32) ≠ p := by
  refine ⟨forEach_keeps (fun e : Dev => e.out = d.out ∧ e.mem.appOf = d.mem.appOf ∧ e.gen.apps = d.gen.apps) l d contextSwitch
    ⟨rfl, rfl, rfl⟩ (fun _ _ _ he => he), ?_⟩
  refine forEach_brings (fun p e => ∀ x ∈ e.hearth.vregs, partOfHearth (x.1 / 32) ≠ p) l d contextSwitch ?_ ?_
  · intro e p _ x hx
    simpa using (List.mem_filter.1 hx).2
  · intro e p _ q _ he x hx
    exact he x (List.mem_filter.1 hx).1

theorem loadBook_fits (d : Dev) (op : LoadOp) (hr : running d = true) (hp : op.book.parts ≠ []) (hs : op.set = [])
    (hf : bookFits d op.book ((op.book.parts.head?).getD 0) = true) :
    (loadBook d op).out = .loaded ((op.book.parts.head?).getD 0) true :: d.out ∧
    (∃ x, appAt (loadBook d op) ((op.book.parts.head?).getD 0) = some x ∧ x.place = soloPlacement op.book ∧ x.book = op.book ∧
      x.stopped = false) ∧
    (∀ p ∈ op.book.parts, appOfPart (loadBook d op) p = some ((op.book.parts.head?).getD 0)) ∧
    (∀ x ∈ (loadBook d op).hearth.vregs, partOfHearth (x.1 / 32) ∉ op.book.parts) := by
  unfold loadBook
  rw [hs]
  extract_lets b a set place old d1 m1 d3 d4 g4 d6 d7 d8 d9 l9 d10
  have hb : b.parts ≠ [] := hp
  have hfit : bookFits d b a = true := hf
  rw [if_neg (by simp [hr]), if_neg (by simp [hb, hfit])]
  have h1 : loadView d1 = loadView d := loadView_emptySlots d _
  have h3 : d3.out = d.out ∧ ∀ p ∈ b.parts, d3.mem.appOf.get 0 p = a + 1 :=
    ⟨((loadView_eq_iff d d1).1 h1).1, fun p hpb => get_foldl_set_of_mem 0 b.parts (a + 1) _ p hpb⟩
  clear_value d3
  have h4 : loadView d4 = loadView d3 := loadView_stagePages d3 a b
  clear_value d4
  have h7 : d7.out = d4.out ∧ d7.mem.appOf = d4.mem.appOf ∧
      appAt d7 a = some { book := b, place := soloPlacement b, placeNext := none, stopped := false, fence := false } :=
    ⟨rfl, rfl, (appAt_setApp d6 a a _).trans (if_pos rfl)⟩
  clear_value d7
  obtain ⟨⟨h8o, h8a, h8g⟩, h8v⟩ := forEach_contextSwitch d7 b.parts
  have h9 : loadView d9 = loadView d8 := loadView_loadApp (bookRegions d8) a b
  have h10 : d10 = d9 := if_neg (by simp)
  clear_value d10 d9
  subst h10
  obtain ⟨h4o, h4a, -, -⟩ := (loadView_eq_iff _ _).1 h4
  obtain ⟨h9o, h9a, h9g, h9v⟩ := (loadView_eq_iff _ _).1 h9
  obtain ⟨h7o, h7a, h7g⟩ := h7
  have hout : d10.out = d.out := h9o.trans (h8o.trans (h7o.trans (h4o.trans h3.1)))
  have happ : d10.mem.appOf = d3.mem.appOf := h9a.trans (h8a.trans (h7a.trans h4a))
  have hgen : d10.gen.apps = d7.gen.apps := h9g.trans h8g
  refine ⟨congrArg (Out.loaded a true :: ·) hout,
    ⟨{ book := b, place := soloPlacement b, placeNext := none, stopped := false, fence := false }, ?_, rfl, rfl, rfl⟩,
    fun p hpb => ?_, fun x hx hpb => ?_⟩
  · unfold appAt at h7g ⊢
    rw [emit_gen, hgen]; exact h7g
  · unfold appOfPart
    rw [emit_mem, happ, h3.2 p hpb]
  · rw [emit_hearth, h9v] at hx
    exact h8v _ hpb x hx rfl

theorem loadBook_refused (d : Dev) (op : LoadOp) (hr : running d = true)
    (hf : bookFits d op.book ((op.book.parts.head?).getD 0) = false) :
    loadBook d op = emit d (.loaded ((op.book.parts.head?).getD 0) false) := by
  unfold loadBook
  rw [if_neg (by simp [hr]), if_pos (.inl (by simp [hf]))]

end Sys2Proof.Machine
end

section
/-!
The statement about kindling (R121, R122, R346 to R349, R440 to R448).
-/
namespace Sys2Proof.Machine
open Sys2Proof

/-- A stroke without a failed security engine brings a kindling device to K3. -/
theorem proofStrokeComplete_k3 (op : ProofStrokeOp) (s : State) (hop : proofOpOk op = true) (hsec : op.security = true)
    (h : s.dev.pow.stage = .proof) : ∃ t, exec (.proofStrokeComplete op) s = .next t ∧ t.nv = s.nv ∧
      (∃ l, t.dev.pow = { (strokeDev op s.dev).pow with degraded := l }) ∧
      (∀ c ∈ op.clusters ++ bankClusters (withBanks s.dev.pow.banks op.banks), c ∈ t.dev.pow.degraded) ∧
      ∀ c ∈ op.channels, channelState t.dev c = 2 := by
  refine ⟨_, exec_proofStrokeComplete op s hop, ?_⟩
  rw [proofDone_k3 op s.nv s.dev hsec h]
  dsimp only
  generalize strokeDev op s.dev = d
  generalize op.clusters ++ bankClusters (withBanks s.dev.pow.banks op.banks) = l
  obtain ⟨hch, hp⟩ := forEach_failChannel op.channels (forEach l d degrade) (proofOpOk_channels hop)
  rw [hp]
  exact ⟨rfl, forEach_degrade_pow d l, fun c hc => (isDegraded_iff _ c).1 (mem_forEach_degrade d l c hc), fun c hc => (hch c hc).1⟩

theorem proofStrokeComplete_dead (op : ProofStrokeOp) (s : State) (hop : proofOpOk op = true) (hsec : op.security = false)
    (h : s.dev.pow.stage = .proof ∨ running s.dev = true) : ∃ t, exec (.proofStrokeComplete op) s = .next t ∧ t.dev.pow.stage = .dead ∧
      t.dev.pow.fatal = true ∧ t.dev.mem = s.dev.mem ∧ t.nv = s.nv := by
  refine ⟨_, exec_proofStrokeComplete op s hop, ?_⟩
  rw [proofDone_dead op s.nv s.dev hsec h]
  obtain ⟨hp, hm⟩ := fatal_pow_mem s.dev 1
  generalize fatal s.dev 1 = e at hp hm
  exact ⟨rfl, congrArg PowS.fatal hp, hm, rfl⟩

/-- Settles O53, stage by stage: what each operation of kindling and the load of a copybook do, put together. -/
theorem kindlingRuns : Obligations.KindlingRuns := by
  unfold Obligations.KindlingRuns
  refine ⟨?k0, ?recovery, ?deadline, ?k1, ?wave, ?proof, ?banks, ?ready, ?load⟩
  case k0 =>
    intro op s hs hc
    refine ⟨fun hf => k0Complete_not_checks hs hc hf, fun hf hm hn hv hsvn => ?_, fun hf hn hbad => ?_, fun c hf hm hn h3 hv hsvn => ?_,
      fun c hf hm hn h3 hv hsvn => ?_, fun c hf hn h3 hbad => ⟨fun hm hv hsvn => ?_, fun hact => ?_⟩⟩
    · exact k0Complete_image hs hc hf ((pickImage_none _ hn).trans (by rw [pickActive_ok hv hsvn])) hm
    · exact k0Complete_no_image hs hc hf ((pickImage_none _ hn).trans (by rw [pickActive_bad hbad]))
    · exact k0Complete_image hs hc hf (pickImage_candidate _ c hn h3 ((imageOk_iff _ _).2 ⟨hv, hsvn⟩)) hm
    · exact k0Complete_image hs hc hf ((pickImage_failed _ c hn h3).trans (by rw [pickActive_ok hv hsvn])) hm
    · exact k0Complete_image hs hc hf
        ((pickImage_badCandidate _ c hn h3 ((imageOk_eq_false_iff _ _).2 hbad)).trans (by rw [pickActive_ok hv hsvn])) hm
    · exact k0Complete_no_image hs hc hf
        ((pickImage_badCandidate _ c hn h3 ((imageOk_eq_false_iff _ _).2 hbad)).trans (by rw [pickActive_bad hact]))
  case recovery =>
    exact fun op s hs => ⟨recoveryImage_taken op s hs, recoveryImage_refused op s⟩
  case deadline =>
    intro op s hs hc
    obtain ⟨hch, hp⟩ := forEach_failChannel op.channels s.dev (by simpa using hc)
    exact ⟨_, memoryTrainingDeadline_spec op s hs hc, hch, hp, rfl⟩
  case k1 =>
    intro op s hs hw
    obtain ⟨t, ht, hst, hk, hmem, hch, hnv⟩ := k1Complete_spec op s hs hw
    refine ⟨t, ht, hst, hk, fun c hc hbad => ?_, fun g hg hgood k hk4 => ?_, hnv⟩
    · have hno : channelOk s.nv s.dev op.channels c = false := by
        rw [← Bool.not_eq_true, channelOk_iff _ _ _ c hc]; exact hbad
      obtain ⟨h2, h0⟩ := trainedState_of_not_ok s.nv s.dev op.channels c hno
      rw [hmem, hch c hc]
      refine ⟨trainMemory_usable _ _ _ _ ((mem_groupsOff _ _ _ _ (by omega)).2 ⟨c % 4, by omega, ?_⟩), h2, h0⟩
      rw [show 4 * (c / 4) + c % 4 = c by omega]; exact hno
    · rw [hch _ (by omega)]
      exact trainedState_of_group_ok _ _ _ g hg (fun j hj => (channelOk_iff _ _ _ _ (by omega)).2 (hgood j hj)) k hk4
  case wave =>
    exact fun op s w hs => ⟨hearthWave_next op s w hs, hearthWave_last op s w hs⟩
  case proof =>
    intro op s hop
    refine ⟨fun hsec h => ?_, fun hsec h => ?_, fun hsec hr hh hc hs hb hcl => ?_⟩
    · exact proofStrokeComplete_dead op s hop hsec h
    · obtain ⟨t, ht, hnv, ⟨l, hp⟩, hdeg, hch⟩ := proofStrokeComplete_k3 op s hop hsec h
      rw [List.forall_mem_append] at hdeg
      have hbanks : t.dev.pow.banks = withBanks s.dev.pow.banks op.banks := by rw [hp]; rfl
      rw [← hbanks] at hdeg
      exact ⟨t, ht, by rw [hp]; rfl, hbanks, by rw [hbanks, hp]; rfl, hdeg.2, by rw [hp]; rfl, by rw [hp]; rfl, hdeg.1, hch, hnv⟩
    · rw [exec_proofStrokeComplete op s hop, proofDone_running op s.nv s.dev hsec hr hh hc hs hb hcl]
      rfl
  case banks =>
    exact fun l h c => ⟨mem_bankHearths l h, mem_bankClusters l c⟩
  case ready =>
    intro op s hs ha
    obtain ⟨hn, hp, hf, hnext, hstop⟩ := readyNow_spec op s.nv s.dev hs ha
    obtain ⟨-, -, -, dg, mp, hmap⟩ := mapHearths_same s.dev
    refine ⟨{ s with nv := (readyNow op s.nv s.dev).1, dev := (readyNow op s.nv s.dev).2 }, rfl, ?_, ?_, hf, hnext, hstop, ?_, ?_, ?_, ?_⟩
    · exact congrArg PowS.stage hp
    · exact congrArg PowS.dev hp
    · rw [congrArg PowS.kindle hp, hmap]
    · rw [hn]; exact readyNv_counter0 s.nv s.dev
    · intro c hc hcand
      rw [hn]; exact readyNv_candidate s.nv s.dev c hc hcand
    · intro c hc hd
      have h := mapHearths_cluster s.dev c hc hd
      have hm : (readyNow op s.nv s.dev).2.pow.map = (mapHearths s.dev).pow.map := by rw [hp]
      have hg : (readyNow op s.nv s.dev).2.pow.degraded = (mapHearths s.dev).pow.degraded := by rw [hp]
      unfold physical isDegraded at *
      rw [hm, hg]
      exact h
  case load =>
    intro op s hr hp hset
    have he := exec_copybookLoad op s
    refine ⟨fun hfit => ?_, fun hfit => ?_⟩
    · obtain ⟨hout, ⟨x, hx, hplace, hbook, hstop⟩, hparts, hvregs⟩ := loadBook_fits (atOff s.dev op.off) op hr hp hset hfit
      exact ⟨_, x, he, hx, hplace, hbook, hstop, hparts, hvregs, hout, rfl⟩
    · rw [he, loadBook_refused (atOff s.dev op.off) op hr hfit]
      rfl

end Sys2Proof.Machine
end

section
/-!
SUPPORT. Openings and closes (R389 to R393): audit entries, role locks, what a PROOF is judged by, and the device after a refused and
after an accepted one.
-/
namespace Sys2Proof.Machine
open Sys2Proof

/-! ## Audit entries (R406, R427, R428) -/

theorem ashMain_of_not_gasp (d : Dev) (e : BitVec 512) (h : d.pow.stage ≠ .gasp) :
    ashMain d e = { d with ash := { d.ash with main := d.ash.main.set 0 (d.ash.next % 516096) e, next := d.ash.next + 1 } } := if_neg h

section
variable (d : Dev) (kind : Nat) (r : Role) (t : Transport) (st ses : Nat)

@[simp] theorem auditSession_epell : (auditSession d kind r t st ses).epell = d.epell := by
  unfold auditSession ashMain; split <;> rfl
@[simp] theorem auditSession_out : (auditSession d kind r t st ses).out = d.out := by
  unfold auditSession ashMain; split <;> rfl
@[simp] theorem auditSession_mem : (auditSession d kind r t st ses).mem = d.mem := by
  unfold auditSession ashMain; split <;> rfl
@[simp] theorem auditSession_regs : (auditSession d kind r t st ses).regs = d.regs := by
  unfold auditSession ashMain; split <;> rfl
@[simp] theorem reg_auditSession (i j : Nat) : reg (auditSession d kind r t st ses) i j = reg d i j := by simp [reg]
@[simp] theorem lockOf_auditSession (r' : Role) : lockOf (auditSession d kind r t st ses) r' = lockOf d r' := by simp [lockOf]

theorem auditSession_next (h : d.pow.stage ≠ .gasp) : (auditSession d kind r t st ses).ash.next = d.ash.next + 1 := by
  rw [auditSession, ashMain_of_not_gasp d _ h]

end

/-- Fields from bit `n` on leave the bits below alone. -/
theorem packBits_mod_two_pow (n : Nat) (l : List (Nat × Nat × Nat)) (h : ∀ x ∈ l, n ≤ x.1) : packBits l % 2 ^ n = 0 := by
  induction l with
  | nil => exact Nat.zero_mod _
  | cons x r ih =>
    obtain ⟨hx, hr⟩ := List.forall_mem_cons.1 h
    have hdvd : 2 ^ n ∣ (x.2.2 % 2 ^ x.2.1) <<< x.1 := by
      rw [Nat.shiftLeft_eq]; exact Nat.dvd_mul_left_of_dvd (Nat.pow_dvd_pow 2 hx) _
    exact Nat.mod_eq_zero_of_dvd (Nat.dvd_add hdvd (Nat.dvd_of_mod_eq_zero (ih hr)))

/-- The low bits of a word are those of the number it holds. -/
theorem field_ofNat_zero (w x len : Nat) (h : len ≤ w) : field (BitVec.ofNat w x) 0 len = x % 2 ^ len := by
  rw [field, BitVec.toNat_ofNat, Nat.shiftRight_zero, Nat.mod_mod_of_dvd x (Nat.pow_dvd_pow 2 h)]

/-- The KIND of an ash entry reads back, whatever fields follow its header byte. -/
theorem ashEntry_kind (d : Dev) (kind : Nat) (rest : List (Nat × Nat × Nat)) (h : ∀ x ∈ rest, 8 ≤ x.1) :
    field (ashEntry d kind rest) 0 8 = kind % 2 ^ 8 := by
  have hrest : packBits ((64, 64, d.frame.no) :: rest) % 2 ^ 8 = 0 :=
    packBits_mod_two_pow 8 _ (List.forall_mem_cons.2 ⟨show 8 ≤ 64 by decide, h⟩)
  rw [ashEntry, field_ofNat_zero _ _ _ (by decide), packBits, Nat.shiftLeft_zero, Nat.add_mod, hrest, Nat.add_zero, Nat.mod_mod,
    Nat.mod_mod]

/-- A close is audited as KIND 0x13, and takes the session, its notices and their losses with it. -/
theorem closeSession_of_not_gasp (d : Dev) (x : Session) (h : d.pow.stage ≠ .gasp) : ∃ e, closeSession d x = { d with
    ash := { d.ash with main := d.ash.main.set 0 (d.ash.next % 516096) e, next := d.ash.next + 1 }
    epell := { d.epell with
      sessions := d.epell.sessions.filter (fun y => y.id != x.id)
      notify := d.epell.notify.erase x.id
      notifyLost := d.epell.notifyLost.filter (· ≠ x.id) } } ∧ field e 0 8 = 0x13 := by
  refine ⟨ashEntry d 0x13 [(8, 3, roleCode x.role), (12, 4, transportCode x.transport), (16, 8, 0), (32, 32, x.id)], ?_,
    ashEntry_kind d _ _ (by simp)⟩
  rw [closeSession, auditSession, ashMain_of_not_gasp d _ h]

/-! ## Role locks (R392) -/

@[simp] theorem lockOf_setLock (d : Dev) (r : Role) (l : AuthLock) : lockOf (setLock d r l) r = l := Table.get_set_self _ _ _ _
@[simp] theorem reg_setLock (d : Dev) (r : Role) (l : AuthLock) (i j : Nat) : reg (setLock d r l) i j = reg d i j := rfl

theorem locked_iff (d : Dev) (r : Role) : locked d r = true ↔ ∃ f, (lockOf d r).until_ = some f ∧ d.frame.no < f := by
  simp [locked, Option.any_eq_true]

/-- The lock of a role after one more failed password proof. -/
def failedLock (d : Dev) (r : Role) : AuthLock :=
  let l := lockOf d r
  if l.ended ∨ l.until_.isSome then
    let k := min 16 (l.doublings + 1)
    { l with doublings := k, until_ := some (d.frame.no + 2 ^ k * reg d 0x8204 0x01), ended := true }
  else if reg d 0x8204 0x00 ≤ l.failures + 1 then { l with failures := l.failures + 1, until_ := some (d.frame.no + reg d 0x8204 0x01) }
  else { l with failures := l.failures + 1 }

theorem passwordFailed_eq (d : Dev) (r : Role) : passwordFailed d r = setLock d r (failedLock d r) := by
  unfold passwordFailed failedLock
  dsimp only
  split
  · rfl
  · split <;> rfl

theorem failedLock_again (d : Dev) (r : Role) (h : (lockOf d r).ended = true ∨ (lockOf d r).until_ ≠ none) : failedLock d r =
    { lockOf d r with
      doublings := min 16 ((lockOf d r).doublings + 1)
      until_ := some (d.frame.no + 2 ^ min 16 ((lockOf d r).doublings + 1) * reg d 0x8204 0x01), ended := true } :=
  if_pos (h.imp_right Option.isSome_iff_ne_none.2)

section
variable (d : Dev) (r : Role) (h : ¬((lockOf d r).ended = true ∨ (lockOf d r).until_ ≠ none))
include h

theorem failedLock_below (hf : (lockOf d r).failures + 1 < reg d 0x8204 0x00) :
    failedLock d r = { lockOf d r with failures := (lockOf d r).failures + 1 } :=
  (if_neg (mt (Or.imp_right Option.isSome_iff_ne_none.1) h)).trans (if_neg (by omega))

theorem failedLock_limit (hf : reg d 0x8204 0x00 ≤ (lockOf d r).failures + 1) : failedLock d r =
    { lockOf d r with failures := (lockOf d r).failures + 1, until_ := some (d.frame.no + reg d 0x8204 0x01) } :=
  (if_neg (mt (Or.imp_right Option.isSome_iff_ne_none.1) h)).trans (if_pos hf)

end

/-- The count of refused sessions bears on no lock. -/
theorem failedLock_bump (d : Dev) (r : Role) (n : Nat) : failedLock (bump d 0x8220 0x00 n) r = failedLock d r := by
  have hreg : ∀ j < 256, reg (bump d 0x8220 0x00 n) 0x8204 j = reg d 0x8204 j := fun j hj =>
    reg_setReg_ne d _ _ _ _ _ (entry_ne_of_index (by decide) hj (by decide))
  unfold failedLock
  rw [hreg 0 (by decide), hreg 1 (by decide)]
  rfl

/-! ## What a PROOF is judged by (R390, R391) -/

theorem proofHolds_password (n : Nv) (o : Opening) (mac : List Byte) : proofHolds n o (.password mac) = true ↔
    o.password = true ∧ ∃ c, credential n o.role = some c ∧ mac = Config.hmac512 (c.drop 32) (asciiOf "EPELL-PW" ++ o.th) := by
  simp only [proofHolds, Bool.and_eq_true, Option.any_eq_true, beq_iff_eq]

theorem proofHolds_key (n : Nv) (o : Opening) (i : Nat) (signer signed : List Byte) (cert : Option (List Byte)) :
    proofHolds n o (.key i signer signed cert) = true ↔ o.password = false ∧ signed = asciiOf "EPELL-KEY" ++ o.th ∧
      (o.role = .maker → cert = some signer) ∧ (o.role ≠ .maker → roleKey n o.role i = some signer) := by
  simp only [proofHolds, Bool.and_eq_true, Bool.not_eq_true', beq_iff_eq, and_assoc]
  by_cases hr : o.role = .maker <;> simp [hr]

section
variable {n : Nv} {d : Dev} {o : Opening} {b : ProofBody}

theorem proofStatus_full (h : reg d 0x8201 0x00 ≤ d.epell.sessions.length) : proofStatus n d o b = stSessionFull := if_pos h

variable (hfull : ¬reg d 0x8201 0x00 ≤ d.epell.sessions.length)
include hfull

theorem proofStatus_locked (hp : o.password = true) (hl : locked d o.role = true) : proofStatus n d o b = stSessionLocked :=
  (if_neg hfull).trans (if_pos ⟨hp, hl⟩)

theorem proofStatus_refused (hl : ¬(o.password = true ∧ locked d o.role = true)) (h : proofHolds n o b = false) :
    proofStatus n d o b = stSessionRefused :=
  ((if_neg hfull).trans (if_neg hl)).trans (if_pos (by rw [h]; rfl))

theorem proofStatus_ok (hl : ¬(o.password = true ∧ locked d o.role = true)) (h : proofHolds n o b = true) :
    proofStatus n d o b = stOk :=
  ((if_neg hfull).trans (if_neg hl)).trans (if_neg (by rw [h]; decide))

end

/-! ## The device after a PROOF -/

/-- The device whose opening a PROOF has used up. -/
def takeOpening (d : Dev) (o : Opening) : Dev :=
  { d with epell := { d.epell with openings := d.epell.openings.filter (fun x => x != o) } }

/-- A refused proof: counted, and held against the role, if the proof itself was wrong. -/
def countRefusal (d : Dev) (o : Opening) (st : Nat) : Dev :=
  if st = stSessionRefused then
    if o.password ∧ o.role ≠ .maker then passwordFailed (bump d 0x8220 0x00 1) o.role else bump d 0x8220 0x00 1
  else d

/-- A refusal: audited and answered with its code. -/
def refuseProof (d : Dev) (o : Opening) (st : Nat) : Dev :=
  emit (auditSession (countRefusal d o st) 0x12 o.role o.transport st 0) (resultOut o 0 st)

/-- The session that an opening becomes. -/
def openedSession (n : Nv) (d : Dev) (o : Opening) : Session :=
  { id := d.epell.nextId, role := o.role, transport := o.transport
    label := decide (o.role = .installer) && o.password && n.installerLabel
    openFrame := d.frame.no, lastFrame := d.frame.no, seqIn := 0, seqOut := 0, keyIn := o.keyIn, keyOut := o.keyOut
    subscribed := false, staged := none, latch := none }

/-- The device with one session more; its role's failures are forgotten. -/
def addSession (n : Nv) (d : Dev) (o : Opening) : Dev :=
  let e := setLock (bump d 0x8220 0x01 1) o.role lockIdle
  { e with epell := { e.epell with sessions := e.epell.sessions ++ [openedSession n d o], nextId := d.epell.nextId + 1 } }

/-- An accepted proof: audited and answered with the SESSION_ID. -/
def openSessionOf (n : Nv) (d : Dev) (o : Opening) : Dev :=
  emit (auditSession (addSession n d o) 0x11 o.role o.transport stOk d.epell.nextId) (resultOut o d.epell.nextId stOk)

/-- Firmware answers on a transport that is on. -/
theorem not_unserved {d : Dev} {t : Transport} (hup : dictUp d = true) (hon : transportOn d t = true) :
    ¬((!dictUp d) = true ∨ (!transportOn d t) = true) := by simp [hup, hon]

section
variable {n : Nv} {d : Dev} {op : ProofOp} (hup : dictUp d = true) (hon : transportOn d op.transport = true)
include hup hon

theorem proofRecord_no_opening (h : d.epell.openings.find? (fun o => o.transport == op.transport && o.nonceC == op.nonce) = none) :
    proofRecord n d op = dropRecord d := by
  rw [proofRecord, if_neg (not_unserved hup hon), h]

variable {o : Opening} (h : d.epell.openings.find? (fun o => o.transport == op.transport && o.nonceC == op.nonce) = some o)
include h

theorem proofRecord_wrong_seal (hk : op.key ≠ o.keyIn) : proofRecord n d op = dropRecord d := by
  rw [proofRecord, if_neg (not_unserved hup hon), h]
  exact if_pos hk

/-- A sealed proof of an opening is refused or accepted by its status. -/
theorem proofRecord_judged (hk : op.key = o.keyIn) : proofRecord n d op =
    if proofStatus n d o op.body = stOk then openSessionOf n (takeOpening d o) o
    else refuseProof (takeOpening d o) o (proofStatus n d o op.body) := by
  rw [proofRecord, if_neg (not_unserved hup hon), h]
  exact if_neg (not_not_intro hk)

end

/-- Counting a refusal changes the locks and the scalar entries alone. -/
theorem countRefusal_frame (d : Dev) (o : Opening) (st : Nat) :
    ∃ l r, countRefusal d o st = { d with epell := { d.epell with locks := l }, regs := r } := by
  unfold countRefusal
  split
  · split
    · rw [passwordFailed_eq]; exact ⟨_, _, rfl⟩
    · exact ⟨_, _, rfl⟩
  · exact ⟨_, _, rfl⟩

theorem reg_countRefusal (d : Dev) (o : Opening) (st : Nat) :
    reg (countRefusal d o st) 0x8220 0x00 = reg d 0x8220 0x00 + if st = stSessionRefused then 1 else 0 := by
  unfold countRefusal
  split
  · split
    · rw [passwordFailed_eq, reg_setLock, reg_bump]
    · exact reg_bump _ _ _ _
  · rfl

theorem lockOf_countRefusal (d : Dev) (o : Opening) (hp : o.password = true) (hr : o.role ≠ .maker) :
    lockOf (countRefusal d o stSessionRefused) o.role = failedLock d o.role := by
  rw [countRefusal, if_pos rfl, if_pos ⟨hp, hr⟩, passwordFailed_eq, lockOf_setLock, failedLock_bump]

theorem refuseProof_spec (d : Dev) (o : Opening) (st : Nat) :
    (refuseProof d o st).out = resultOut o 0 st :: d.out ∧ (refuseProof d o st).epell.sessions = d.epell.sessions ∧
      (refuseProof d o st).epell.openings = d.epell.openings ∧ (refuseProof d o st).mem = d.mem ∧
      reg (refuseProof d o st) 0x8220 0x00 = reg d 0x8220 0x00 + (if st = stSessionRefused then 1 else 0) ∧
      (d.pow.stage ≠ .gasp → (refuseProof d o st).ash.next = d.ash.next + 1) := by
  obtain ⟨l, r, hc⟩ := countRefusal_frame d o st
  refine ⟨?_, ?_, ?_, ?_, ?_, fun hg => ?_⟩
  · rw [refuseProof, emit_out, auditSession_out, hc]
  · rw [refuseProof, emit_epell, auditSession_epell, hc]
  · rw [refuseProof, emit_epell, auditSession_epell, hc]
  · rw [refuseProof, emit_mem, auditSession_mem, hc]
  · rw [refuseProof, reg_emit, reg_auditSession, reg_countRefusal]
  · rw [refuseProof, emit_ash, auditSession_next _ _ _ _ _ _ (by rwa [hc]), hc]

theorem lockOf_refuseProof (d : Dev) (o : Opening) (hp : o.password = true) (hr : o.role ≠ .maker) :
    lockOf (refuseProof d o stSessionRefused) o.role = failedLock d o.role :=
  (lockOf_auditSession _ _ _ _ _ _ _).trans (lockOf_countRefusal d o hp hr)

theorem openSessionOf_spec (n : Nv) (d : Dev) (o : Opening) :
    (openSessionOf n d o).out = resultOut o d.epell.nextId stOk :: d.out ∧
      (openSessionOf n d o).epell.sessions = d.epell.sessions ++ [openedSession n d o] ∧ lockOf (openSessionOf n d o) o.role = lockIdle ∧
      (openSessionOf n d o).epell.nextId = d.epell.nextId + 1 ∧ reg (openSessionOf n d o) 0x8220 0x01 = reg d 0x8220 0x01 + 1 ∧
      (openSessionOf n d o).mem = d.mem := by
  have hlock : lockOf (addSession n d o) o.role = lockIdle := lockOf_setLock (bump d 0x8220 0x01 1) o.role lockIdle
  have hreg : reg (addSession n d o) 0x8220 0x01 = reg d 0x8220 0x01 + 1 := reg_bump d 0x8220 0x01 1
  refine ⟨?_, ?_, ?_, ?_, ?_, ?_⟩
  · rw [openSessionOf, emit_out, auditSession_out]; rfl
  · rw [openSessionOf, emit_epell, auditSession_epell]; rfl
  · exact (lockOf_auditSession _ _ _ _ _ _ _).trans hlock
  · rw [openSessionOf, emit_epell, auditSession_epell]; rfl
  · rw [openSessionOf, reg_emit, reg_auditSession, hreg]
  · rw [openSessionOf, emit_mem, auditSession_mem]; rfl

/-! ## The commands -/

theorem exec_openSession (op : OpenOp) (s : State) : exec (.openSession op) s = .next { s with dev := openRecord s.nv s.dev op } := rfl

theorem exec_proof (op : ProofOp) (s : State) : exec (.proof op) s = .next { s with dev := proofRecord s.nv s.dev op } := rfl

theorem exec_sessionIdleExpiry (op : SessionOp) (s : State) (x : Session)
    (h : s.dev.epell.sessions.find? (fun y => y.id == op.ses) = some x) : exec (.sessionIdleExpiry op) s = .next { s with
      dev := if x.lastFrame + reg s.dev 0x8201 0x01 ≤ s.dev.frame.no then closeSession s.dev x else s.dev } := by
  show execSessionIdleExpiry op s = _
  rw [execSessionIdleExpiry, onDev, h]

theorem exec_authLockExpiry (op : RoleOp) (s : State) (f : Nat) (h : (lockOf s.dev op.role).until_ = some f) :
    exec (.authLockExpiry op) s = .next { s with
      dev := if f ≤ s.dev.frame.no then setLock s.dev op.role { lockOf s.dev op.role with until_ := none, ended := true }
        else s.dev } := by
  show execAuthLockExpiry op s = _
  simp only [execAuthLockExpiry, onDev, h, Option.any_some, decide_eq_true_eq]

section
variable {op : ProofOp} {s : State} {o : Opening} (hup : dictUp s.dev = true) (hon : transportOn s.dev op.transport = true)
  (h : s.dev.epell.openings.find? (fun o => o.transport == op.transport && o.nonceC == op.nonce) = some o) (hk : op.key = o.keyIn)
include hup hon h hk

theorem exec_proof_refused {st : Nat} (hst : proofStatus s.nv s.dev o op.body = st) (hne : st ≠ stOk) :
    exec (.proof op) s = .next { s with dev := refuseProof (takeOpening s.dev o) o st } := by
  rw [exec_proof, proofRecord_judged hup hon h hk, hst, if_neg hne]

theorem exec_proof_accepted (hst : proofStatus s.nv s.dev o op.body = stOk) :
    exec (.proof op) s = .next { s with dev := openSessionOf s.nv (takeOpening s.dev o) o } := by
  rw [exec_proof, proofRecord_judged hup hon h hk, if_pos hst]

/-- What a refusal answers, uses up, counts and audits. -/
theorem proof_refused {st : Nat} (hst : proofStatus s.nv s.dev o op.body = st) (hne : st ≠ stOk) :
    ∃ t, exec (.proof op) s = .next t ∧ t.dev.out = resultOut o 0 st :: s.dev.out ∧
      t.dev.epell.sessions = s.dev.epell.sessions ∧ t.dev.epell.openings = s.dev.epell.openings.filter (fun x => x != o) ∧
      t.nv = s.nv ∧ t.dev.mem = s.dev.mem ∧
      reg t.dev 0x8220 0x00 = reg s.dev 0x8220 0x00 + (if st = stSessionRefused then 1 else 0) ∧
      (s.dev.pow.stage ≠ .gasp → t.dev.ash.next = s.dev.ash.next + 1) := by
  obtain ⟨hout, hses, hop, hmem, hreg, hash⟩ := refuseProof_spec (takeOpening s.dev o) o st
  exact ⟨_, exec_proof_refused hup hon h hk hst hne, hout, hses, hop, rfl, hmem, hreg, hash⟩

end

end Sys2Proof.Machine
end

section
/-!
The statement about openings and closes (R389 to R394).
-/
namespace Sys2Proof.Machine
open Sys2Proof

/-- Settles O46: each record's equation, the refusals by the proof's status, the locks by the three cases of a failure. -/
theorem sessionsOpenAndClose : Obligations.SessionsOpenAndClose := by
  unfold Obligations.SessionsOpenAndClose
  refine ⟨?opening, ?proof, proofHolds_password, proofHolds_key, locked_iff, ?idle, ?lock, closeSession_of_not_gasp⟩
  case opening =>
    intro op s hup hon
    rw [exec_openSession, openRecord, if_neg (not_unserved hup hon)]
    rfl
  case proof =>
    intro op s hup hon
    refine ⟨fun hnone => ?_, fun o ho => ⟨fun hk => ?_, fun hk hfull => ?_, fun hk hfull hp hl => ?_,
      fun hk hfull hl => ⟨fun hbad => ⟨?_, fun hp hr => ?_⟩, fun hgood => ?_⟩⟩⟩
    · rw [exec_proof, proofRecord_no_opening hup hon hnone]; rfl
    · rw [exec_proof, proofRecord_wrong_seal hup hon ho hk]; rfl
    · exact proof_refused hup hon ho hk (proofStatus_full hfull) (by decide)
    · exact proof_refused hup hon ho hk (proofStatus_locked hfull hp hl) (by decide)
    · exact proof_refused hup hon ho hk (proofStatus_refused hfull hl hbad) (by decide)
    · refine ⟨_, exec_proof_refused hup hon ho hk (proofStatus_refused hfull hl hbad) (by decide), ?_⟩
      have hlock : lockOf (refuseProof (takeOpening s.dev o) o stSessionRefused) o.role = failedLock s.dev o.role :=
        lockOf_refuseProof (takeOpening s.dev o) o hp hr
      exact ⟨fun ha => hlock.trans (failedLock_again _ _ ha), fun ha hf => hlock.trans (failedLock_below _ _ ha hf),
        fun ha hf => hlock.trans (failedLock_limit _ _ ha hf)⟩
    · obtain ⟨hout, hses, hlock, hnext, hreg, hmem⟩ := openSessionOf_spec s.nv (takeOpening s.dev o) o
      exact ⟨_, exec_proof_accepted hup hon ho hk (proofStatus_ok hfull hl hgood), hout, hses, hlock, rfl, rfl, rfl, rfl, hnext, hreg,
        rfl, hmem⟩
  case idle =>
    intro op s x hx
    rw [exec_sessionIdleExpiry op s x hx]
    exact ⟨fun h => by rw [if_pos h], fun h => by rw [if_neg (Nat.not_le.2 h)]⟩
  case lock =>
    intro op s f hf
    rw [exec_authLockExpiry op s f hf]
    exact ⟨fun h => by rw [if_pos h], fun h => by rw [if_neg (Nat.not_le.2 h)]⟩

end Sys2Proof.Machine
end

section
/-!
SUPPORT. The effective level of a source (R416): what aging makes of a level, and the fields of the record that carries it (R419).
-/
namespace Sys2Proof.Machine
open Sys2Proof

/-! ## Aging (R416) -/

theorem agedLevel_of_exempt {level limit : Nat} (waited : Nat) (h : level = 0 ∨ level = 15 ∨ limit = 0) :
    agedLevel level limit waited = level := if_pos h

theorem agedLevel_of_aging {level limit : Nat} (waited : Nat) (hpos : 0 < level) (hlt : level < 15) (hlim : 0 < limit) :
    agedLevel level limit waited = min 14 (level + waited / (1024 * limit)) := by
  rw [agedLevel, if_neg (by omega), Nat.mul_comm limit]
  split
  next h14 => rw [Nat.min_eq_left (Nat.le_trans h14 (Nat.le_add_right level _)), Nat.le_antisymm (Nat.le_of_lt_succ hlt) h14]
  next => rfl

/-- Aging never lowers a level of R413's four bits, nor takes it past 15. -/
theorem agedLevel_bounds {level : Nat} (limit waited : Nat) (h : level ≤ 15) :
    level ≤ agedLevel level limit waited ∧ agedLevel level limit waited ≤ 15 := by
  by_cases hex : level = 0 ∨ level = 15 ∨ limit = 0
  · rw [agedLevel_of_exempt waited hex]
    exact ⟨Nat.le_refl _, h⟩
  · rw [agedLevel_of_aging waited (by omega) (by omega) (by omega)]
    exact ⟨Nat.le_min.2 ⟨by omega, Nat.le_add_right level _⟩, Nat.le_trans (Nat.min_le_left 14 _) (by decide)⟩

theorem effLevel_of_not_pending (d : Dev) {q : Source} (h : q.st ≠ .pending) : effLevel d q = q.level := if_neg h

theorem effLevel_of_pending (d : Dev) {q : Source} (h : q.st = .pending) :
    effLevel d q = agedLevel q.level q.ageLimit (now d - q.since) := if_pos h

theorem Source.level_le (q : Source) : q.level ≤ 15 := Nat.le_of_lt_succ (field_lt q.reg 0 4)

theorem effLevel_bounds (d : Dev) (q : Source) : q.level ≤ effLevel d q ∧ effLevel d q ≤ 15 := by
  by_cases hp : q.st = .pending
  · rw [effLevel_of_pending d hp]
    exact agedLevel_bounds _ _ q.level_le
  · rw [effLevel_of_not_pending d hp]
    exact ⟨Nat.le_refl _, q.level_le⟩

/-! ## Reading back a packed field (R10) -/

theorem packBits_append (l m : List (Nat × Nat × Nat)) : packBits (l ++ m) = packBits l + packBits m := by
  induction l with
  | nil => exact (Nat.zero_add _).symm
  | cons x r ih => rw [List.cons_append, packBits, packBits, ih, Nat.add_assoc]

/-- The bits of a number that lie inside a word are the word's. -/
theorem field_ofNat {w lo len : Nat} (x : Nat) (h : lo + len ≤ w) : field (BitVec.ofNat w x) lo len = x / 2 ^ lo % 2 ^ len := by
  rw [field, BitVec.toNat_ofNat, Nat.shiftRight_eq_div_pow, ← Nat.mod_mul_right_div_self, ← Nat.mod_mul_right_div_self, ← Nat.pow_add,
    Nat.mod_mod_of_dvd x (Nat.pow_dvd_pow 2 h)]

/-- A packed field reads back where the fields before it end below it and those after it begin above it. -/
theorem field_packBits {w lo len : Nat} (pre post : List (Nat × Nat × Nat)) (x : Nat) (hw : lo + len ≤ w)
    (hpre : packBits pre < 2 ^ lo) (hpost : ∀ y ∈ post, lo + len ≤ y.1) :
    field (BitVec.ofNat w (packBits (pre ++ (lo, len, x) :: post))) lo len = x % 2 ^ len := by
  obtain ⟨k, hk⟩ := Nat.dvd_of_mod_eq_zero (packBits_mod_two_pow (lo + len) post hpost)
  have hsum : packBits (pre ++ (lo, len, x) :: post) = packBits pre + 2 ^ lo * (x % 2 ^ len + 2 ^ len * k) := by
    rw [packBits_append, packBits, hk, Nat.shiftLeft_eq, Nat.mul_comm _ (2 ^ lo), Nat.pow_add, Nat.mul_assoc, ← Nat.mul_add]
  rw [field_ofNat _ hw, hsum, Nat.add_mul_div_left _ _ (Nat.two_pow_pos lo), Nat.div_eq_of_lt hpre, Nat.zero_add,
    Nat.add_mul_mod_self_left, Nat.mod_mod]

/-- The LEVEL of an event record is the source's effective level (R419). -/
theorem eventRecord_level (d : Dev) (n : Nat) (q : Source) (lost : Bool) : field (eventRecord d n q lost) 11 4 = effLevel d q := by
  have hsrc : packBits [(0, 11, n)] < 2 ^ 11 := Nat.mod_lt n (Nat.two_pow_pos 11)
  have hfit : effLevel d q < 2 ^ 4 := Nat.lt_succ_of_le (effLevel_bounds d q).2
  refine (field_packBits [(0, 11, n)] _ _ (by decide) hsrc ?after).trans (Nat.mod_eq_of_lt hfit)
  case after =>
    simp only [List.forall_mem_cons, List.not_mem_nil, false_implies, implies_true, and_true]
    decide

end Sys2Proof.Machine
end

section
/-!
The statement about effective levels (R416).
-/
namespace Sys2Proof.Machine
open Sys2Proof

/-- Settles O1, by the three cases of a level (not PENDING, exempt, aging) and the LEVEL field of the record. -/
theorem effectiveLevel : Obligations.EffectiveLevel := by
  unfold Obligations.EffectiveLevel
  intro d n q lost
  refine ⟨effLevel_of_not_pending d, fun hp hex => ?exempt, fun hp hpos hlt hlim => ?aging, eventRecord_level d n q lost,
    effLevel_bounds d q⟩
  case exempt => rw [effLevel_of_pending d hp, agedLevel_of_exempt _ hex]
  case aging => rw [effLevel_of_pending d hp, agedLevel_of_aging _ hpos hlt hlim]

end Sys2Proof.Machine
end
